-- ==== Sys2Proof/Word.lean ====
section
/-! DEFINITION. The byte, the sorted finite map that every indexed table of the state uses, and the
sorted list of numbers that stands for a set. Nothing here belongs to one rule of the spec. -/

namespace Sys2Proof

/-- One byte of memory. -/
abbrev Byte := BitVec 8

/-- A finite map from numbers to values: pairs in strictly rising key order, one per key, so that equal
maps are equal data. -/
abbrev SMap (α : Type) := List (Nat × α)

/-- A memory: the bytes that differ from 0, in rising address order. -/
abbrev Mem := SMap Byte

/-- The value listed at `k`, if any. -/
def SMap.lookup {α : Type} : SMap α → Nat → Option α
  | [], _ => none
  | (k', v) :: m, k => if k' = k then some v else SMap.lookup m k

/-- The value listed at `k`, else the default `d`. -/
def SMap.getD {α : Type} (m : SMap α) (k : Nat) (d : α) : α :=
  (SMap.lookup m k).getD d

/-- List `v` at `k`, keeping the key order. -/
def SMap.put {α : Type} : SMap α → Nat → α → SMap α
  | [], k, v => [(k, v)]
  | (k', v') :: m, k, v =>
    if k < k' then (k, v) :: (k', v') :: m
    else if k = k' then (k, v) :: m
    else (k', v') :: SMap.put m k v

/-- Remove what is listed at `k`. -/
def SMap.del {α : Type} (m : SMap α) (k : Nat) : SMap α :=
  m.filter fun p => p.1 != k

/-- Write `v` at `k` in a map whose unlisted keys read `d`: writing `d` removes the entry. -/
def SMap.setD {α : Type} [DecidableEq α] (m : SMap α) (d : α) (k : Nat) (v : α) : SMap α :=
  if v = d then SMap.del m k else SMap.put m k v

/-- Apply `f` to the value at `k` of a map whose unlisted keys read `d`. -/
def SMap.updD {α : Type} [DecidableEq α] (m : SMap α) (d : α) (k : Nat) (f : α → α) : SMap α :=
  SMap.setD m d k (f (SMap.getD m k d))

/-- Apply `f` to the value listed at `k`, if there is one. -/
def SMap.upd {α : Type} (m : SMap α) (k : Nat) (f : α → α) : SMap α :=
  match SMap.lookup m k with
  | some v => SMap.put m k (f v)
  | none => m

/-- The listed keys. -/
def SMap.keys {α : Type} (m : SMap α) : List Nat := m.map (·.1)

/-- The keys rise strictly. -/
abbrev SMap.sorted {α : Type} (m : SMap α) : Prop := m.Pairwise fun a b => a.1 < b.1

/-- The canonical form of a map with default `d`: keys rise strictly and no entry equals the default. -/
abbrev SMap.wf {α : Type} [DecidableEq α] (d : α) (m : SMap α) : Prop :=
  SMap.sorted m ∧ ∀ p ∈ m, p.2 ≠ d

/-- The canonical form of a memory. -/
abbrev Mem.wf (m : Mem) : Prop := SMap.wf (0 : Byte) m

/-- A set of numbers as a strictly rising list. -/
abbrev NSet := List Nat

/-- Insert into a set. -/
def NSet.insert : NSet → Nat → NSet
  | [], k => [k]
  | a :: s, k => if k < a then k :: a :: s else if k = a then a :: s else a :: NSet.insert s k

/-- Remove from a set. -/
def NSet.erase (s : NSet) (k : Nat) : NSet := s.filter (· != k)

end Sys2Proof
end

