-- ==== Sys2Proof/Syntax.lean ====
section
/-! DEFINITION. The commands of the block: one constructor for each row of spec/opcode_table.json, with
the operands that the row's event carries. -/

namespace Sys2Proof

/-- A packet as it is handed to the link layer's client (R381): class, virtual channel, the positions it
comes from and goes to, the bytes of its class words (CWORD) and its payload. -/
structure Packet where
  cls : Nat
  vc : Nat
  srcPos : Nat
  dstPos : Nat
  cword : List Byte
  data : List Byte
  deriving DecidableEq, Repr

/-- What a stack's device identification says of it (R263, R265): its channels, the stack IDs, bank groups and banks of each
pseudo-channel, its capacity in GiB, and the code of the highest data rate that it declares. -/
structure StackId where
  channels : Nat
  stackIds : Nat
  groups : Nat
  banks : Nat
  gib : Nat
  rate : Nat
  deriving DecidableEq, Repr

/-- The organisation and the capacity are those that the controllers run (R263). -/
def StackId.fits (x : StackId) : Bool :=
  x.channels == 32 && x.stackIds == 4 && x.groups == 4 && x.banks == 4 && x.gib == 48

/-- How an access to a line went on its way to the stack and back (R266, R273, R275). -/
structure LineReport where
  /-- Bus transfers that failed parity one after another. -/
  fails : Nat
  /-- The severity that on-die ECC reported: 0 no error, 1 corrected, 2 uncorrected. -/
  severity : Fin 3
  /-- Bytes of the first sector that were in error. -/
  bytes : Nat
  /-- The tracker that the controller keeps of the request failed its parity. -/
  tracker : Bool
  deriving DecidableEq, Repr

/-- Nothing went wrong. -/
def LineReport.good : LineReport := ⟨0, 0, 0, false⟩

/-- A plain access to a line: the data of a write are marked bad, and how the access went. -/
structure LineAccess where
  bad : Bool
  rep : LineReport
  deriving DecidableEq, Repr

/-- A control flit and the link that it arrives on (R396). -/
structure ControlFlit where
  link : Fin 32
  bytes : List (BitVec 8)
  deriving DecidableEq, Repr

/-- The landing buffer of a slot at NEXT that a credit frees: 0 LB0, 1 LB1 (R215). -/
structure BufferCredit where
  slot : Fin 16
  buf : Fin 2
  deriving DecidableEq, Repr

/-- What a state request asks its twin for, or, for the mirror, the position that the requester mirrors: the whole state
(R516), or one damaged block (R513). -/
inductive StateAsk where
  | state (mirror : Bool)
  | block (mirror : Bool) (n : Nat)
  deriving DecidableEq, Repr

/-- The position is asked as the twin of the one that it serves. -/
def StateAsk.mirror : StateAsk → Bool
  | .state m => m
  | .block m _ => m

/-- The commands. Each docstring gives the rule that the row names. -/
inductive Instr where
  /-- PWR_GOOD_RISE (R620). A rising PWR_GOOD starts a power-on reset of the whole device; boot begins
    at the later of this and PERST_N release. -/
  | pwrGoodRise (mgmtMode : Bool) (mgmtAddr : BitVec 2)
  /-- PWR_GOOD_FALL (R647). A falling PWR_GOOD holds the device in reset and ends any state, so that
    the next rise is PWR. -/
  | pwrGoodFall
  /-- PERST_ASSERT (R619). Asserting PERST_N resets everything except the always-on domain, and a
    falling edge wakes the device from S3. -/
  | perstAssert
  /-- PERST_RELEASE (R620). Releasing PERST_N while PWR_GOOD is high starts the boot ROM at boot step
    1. -/
  | perstRelease
  /-- MAIN_GOOD_FALL (R645). While MAIN_EN is high, a falling MAIN_GOOD is treated as PWR_GOOD low and
    device memory is lost. -/
  | mainGoodFall
  /-- MAIN_GOOD_RISE (R646). On a wake from S3, MAIN_GOOD going high lets the device run the wake as
    PERST. -/
  | mainGoodRise
  /-- MAIN_EN_WAKE_TIMEOUT (R646). When MAIN_GOOD is not high within 100 ms of MAIN_EN rising, the
    device drops MAIN_EN, stays in S3 and sends the sensor 33 event. -/
  | mainEnWakeTimeout
  /-- HOT_RESET (R625). A PCIe hot reset, or the link leaving DL_Active, stops every channel, clears
    the channel table, stops ingest and treats slots and regions as a replay does. -/
  | hotReset
  /-- FLR (R625). A write of 1 to Initiate Function Level Reset acts as HOT. -/
  | flr
  /-- DEV_RESET_START (R628). 1 ms after DEVICE_RESET or an activation, DEV stops the engines, saves
    the bitmap, puts HBM in self-refresh, idles the links and reruns boot from step 2. -/
  | devResetStart
  /-- MGMT_DEV_MESSAGE (R622). The Dunfente vendor-defined MCTP message starts DEV in any state except
    S3; when a schedule runs, the device first sends FAULT and isolates itself. -/
  | mgmtDevMessage
  /-- CONFIG_REQUEST (R537). A PCIe configuration request gets Request Retry Status until firmware is
    ready, and is served normally after that. -/
  | configRequest (write : Bool) (off : BitVec 12) (data : BitVec 32)
  /-- BOOT_PUF_DERIVE (R598). The SEC evaluates the PUF, reconstructs K and derives the identity key
    and DEVICE_ID. -/
  | bootPufDerive (idPub : List (BitVec 8))
  /-- CONFIG_RECORD_CHECK (R604). The ROM reads SFDP, switches the flash to 8D-8D-8D, and reads and
    checks the signed configuration record. -/
  | configRecordCheck (sigValid : Bool)
  /-- IMAGE_LOAD_CHECK (R603). The ROM checks the image header, streams and hashes the body into Camlo
    memory, and validates the image. -/
  | imageLoadCheck (sigValid : Bool)
  /-- MEASUREMENTS_RECORD (R609). The ROM records measurements 1 to 4, derives the alias key, signs
    the alias certificate, locks the key interface and starts Camlo. -/
  | measurementsRecord
  /-- HBM_TRAINING (R265). Firmware powers the dies, fills SRAM, identifies and trains the stacks, and
    chooses the single data rate. -/
  | hbmTraining (ids : List StackId) (stackOk : BitVec 20) (refOk : BitVec 4)
  /-- FIRMWARE_READY (R631). READY is set, and Request Retry Status and ERROR_NOT_READY end at the
    same moment. -/
  | firmwareReady
  /-- LINK_RELEASE (R394). Firmware releases the next enabled link, 100 µs after the one before it, in
    ascending link order. -/
  | linkRelease
  /-- LINK_TRAINING_TIMEOUT (R395). A link that has no partner lock 10 ms after a training attempt
    starts, or a Down or refused link, restarts training at step 1. -/
  | linkTrainingTimeout (link : Fin 32)
  /-- LANE_LOCK (R395). When all eight lanes lock, the link adapts its equalisers and detects lane
    reversal and polarity. -/
  | laneLock (link : Fin 32) (reversed : Bool) (polarity : BitVec 8)
  /-- FLIT_LOCK (R395). After 64 consecutive idle flits decode, the link has flit lock and starts
    exchanging HELLO. -/
  | flitLock (link : Fin 32)
  /-- HELLO_RESEND (R396). Until the link is Active, HELLO is resent every 1 µs. -/
  | helloResend (link : Fin 32)
  /-- HELLO (R399). A received HELLO message is checked against the position table, and the link is
    refused or moves on to Admit. -/
  | hello (link : Fin 32) (flit : List (BitVec 8))
  /-- LINK_ADMIT (R395). Once every lower-numbered released link has settled, a link in Admit becomes
    Active and joins its position's set. -/
  | linkAdmit (link : Fin 32)
  /-- PING (R396). A PING control message received for latency measurement is answered with PONG. -/
  | ping (rx : ControlFlit)
  /-- PONG (R392). A PONG message completes an echo exchange, which sets the measured latency and the
    length class. -/
  | pong (rx : ControlFlit) (roundTripPs : Nat)
  /-- HOLD (R405). A received HOLD message marks the link Held, because its partner is entering S2. -/
  | hold (rx : ControlFlit)
  /-- POSITION_CHANGE (R403). A received POSITION_CHANGE message makes the partner check the Fawn's
    position as the replaced position. -/
  | positionChange (link : Fin 32) (flit : List (BitVec 8))
  /-- DATA_FLIT_RECEIVE (R387). A data flit is accepted when both codewords decode, the CRC matches
    and SEQ is next; otherwise it is discarded, and a NAK is sent at the first discard. -/
  | dataFlitReceive (link : Fin 32) (flit : List (BitVec 8))
  /-- IDLE_FLIT_RECEIVE (R387). An idle flit delivers ACK and credit fields, or is discarded without
    NAK when it fails a check. -/
  | idleFlitReceive (link : Fin 32) (flit : List (BitVec 8))
  /-- NAK_RECEIVE (R388). On NAK the transmitter resends every data flit from ACK + 1 in order, and
    REPLAY_CNT increments. -/
  | nakReceive (link : Fin 32) (ack : BitVec 12)
  /-- PACKET_SEND (R385). At a packet boundary the transmitter starts a waiting VC0 packet that has
    credit, or the next VC1 to VC3 packet in round-robin order. -/
  | packetSend (link : Fin 32)
  /-- ACK_TIMEOUT (R389). When flits stay unacknowledged with no ACK progress for 16 µs, the link
    retrains. -/
  | ackTimeout (link : Fin 32)
  /-- SIGNAL_LOSS (R389). When no signal is present for 1 µs, the link retrains. -/
  | signalLoss (link : Fin 32)
  /-- LINK_DOWN (R390). A retrain not complete within 10 ms leaves the link Down, logged with
    E_LINK_DOWN. -/
  | linkDown (link : Fin 32)
  /-- PEER_LOST (R400). When every link of a position's set has been out of Active for
    PEER_LOST_BOUND, E_PEER_LOST goes to the Stag as a hard fault. -/
  | peerLost (pos : Fin 1024)
  /-- SELF_ISOLATE (R401). When every enabled link has been out of Active for the bound while a
    schedule runs, the device stops its channels, sends nothing and interrupts the host. -/
  | selfIsolate
  /-- LINK_TEST_END (R408). When a link test's duration expires, the link leaves the Test state and
    retrains. -/
  | linkTestEnd (link : Fin 32) (bits errors : List Nat)
  /-- SYNC_SEND (R411). At phase 0 of every tick whose count is a multiple of 64, the Stag sends a
    stamped SYNC on every Active link. -/
  | syncSend
  /-- SYNC (R413). A received SYNC updates the parent choice, sets or slews the Spine counter, and is
    forwarded with HOPS + 1. -/
  | sync (link : Fin 32) (p : Packet)
  /-- STAG_CANDIDATE_TIMEOUT (R416). A backup candidate that hears no SYNC for 200 + 100k ticks
    becomes acting Stag, increments STAG_GEN and raises a transient fault. -/
  | stagCandidateTimeout
  /-- STATUS_REPORT (R420). Once per tick a member sends its parent a STATUS that aggregates its own
    state with its children's. -/
  | statusReport
  /-- STATUS (R420). A STATUS packet received from a child is kept as that child's latest state for
    aggregation. -/
  | status (link : Fin 32) (p : Packet)
  /-- COMMIT_DECIDE (R425). The Stag commits step n at the lowest tick C that meets the aggregate
    conditions, and sends COMMIT with F = D + SPINE_ROUND. -/
  | commitDecide
  /-- COMMIT (R427). A member applies COMMIT on receipt: the alternate bank becomes current, replay
    state is released, records are committed, and completions are posted. -/
  | commit (link : Fin 32) (p : Packet)
  /-- STEP_START (R423). At tick F of step n + 1 the step starts, and step-periodic channels start
    their threads. -/
  | stepStart
  /-- FAULT (R430). A FAULT packet is forwarded at once, and at the Stag it is answered by REWIND,
    takeover or STOP according to its class. -/
  | fault (link : Fin 32) (p : Packet)
  /-- REWIND (R431). A member that receives REWIND enters the recovery window, stops its channels and
    restores commit m. -/
  | rewind (link : Fin 32) (p : Packet)
  /-- STOP (R431). A member that receives STOP halts the herd at commit m, applying that commit first
    if needed. -/
  | stop (link : Fin 32) (p : Packet)
  /-- REBIND (R402). On a rebind order a member moves position p's links to the Fawn's standby links
    and advances the generation. -/
  | rebind (link : Fin 32) (p : Packet)
  /-- RESTORE_COMPLETE (R499). A member's restoration of commit m completes; when that is after F′, it
    starts the replay at once. -/
  | restoreComplete
  /-- REPLAY_START (R498). At tick F′ the replayed step starts and the recovery window closes. -/
  | replayStart
  /-- STEP_WATCHDOG (R500). A step-periodic channel not complete by Fn + WATCHDOG_TICKS raises cause
    0x0A. -/
  | stepWatchdog (chan : Fin 4096)
  /-- COLLECTIVE_ENTRY_START (R449). At its START time a collective entry begins, and each member
    sends its seal summary up the tree for root 0. -/
  | collectiveEntryStart (entry : Nat)
  /-- CHUNK_ADMIT (R445). A section admits the next chunk in schedule order once its whole claim fits,
    and sends CREDIT to each child. -/
  | chunkAdmit (sect : Fin 4)
  /-- CREDIT (R446). A received collective credit lets the child send its data of that chunk. -/
  | credit (link : Fin 32) (p : Packet)
  /-- UP_DATA (R440). A received up-data packet is checked against the digest and combined in the
    fixed order at the node. -/
  | upData (link : Fin 32) (p : Packet)
  /-- DOWN_DATA (R441). A received down-data packet delivers an encoded result or a gathered shard to
    the member. -/
  | downData (link : Fin 32) (p : Packet)
  /-- PIPELINE_TRANSFER (R434). A class 0x3 TRANSFER packet delivers stage data to the other rank. -/
  | pipelineTransfer (link : Fin 32) (p : Packet)
  /-- SEAL_SUMMARY (R449). A received seal summary is merged with the node's own list and passed up;
    rank 0 sends SEAL or ABORT. -/
  | sealSummary (link : Fin 32) (p : Packet)
  /-- SEAL (R450). A received SEAL lets the member write the entry's results to DST. -/
  | seal (link : Fin 32) (p : Packet)
  /-- ABORT (R451). On ABORT every member releases the entry's claims with DST unchanged and reports
    E_COLL_MISMATCH. -/
  | abortEntry (link : Fin 32) (p : Packet)
  /-- CHUNK_COMPLETE (R439). When a chunk and all earlier chunks of its entry complete, DONE_EC
    increments in the tiles of DONE_CHAN. -/
  | chunkComplete (entry chunk : Nat)
  /-- GOVERNOR_DECIDE (R255). After the last statistics reduction the governor writes the decisions
    for step n + 1 into the alternate bank. -/
  | governorDecide
  /-- QUIRE_ARRIVAL (R216). An arriving quire is checked against the slot and ring record, then
    accepted into its landing buffer or refused. -/
  | quireArrival (slot : Fin 16) (header payload : List (BitVec 8))
  /-- QUIRE_CREDIT (R215). A returned landing-buffer credit lets the sender start its next quire
    transfer. -/
  | quireCredit (credit : BufferCredit)
  /-- LANDING_BUFFER_FREE (R217). Once every consumer tile has released a landing buffer and its sends
    have completed, the buffer is marked unwritten and credit goes back to PREV. -/
  | landingBufferFree (slot : Fin 16) (buf : Fin 3)
  /-- LEAF_STALL_EXPIRY (R226). When an APPEND has stalled for a frame for the bound, the slot raises
    E_LEAF_EXHAUSTED and the step fails. -/
  | leafStallExpiry (slot : Fin 16)
  /-- LEAF_EVICT (R221). The PTU evicts the oldest leaf candidate to the far tier or host memory and
    frees its frame. -/
  | leafEvict (pool : Fin 8)
  /-- LEAF_RETURN (R223). A leaf copied back to local HBM completes and gets a frame, with FARCOPY
    set. -/
  | leafReturn (slot : Fin 16) (layer head leaf : Nat) (data : List (BitVec 8)) (bad : Bool)
  /-- STATE_TRANSFER_PACKET (R517). A class 0x8 packet places bank, owner-state, statistics or digest
    data by PART and OFFSET. -/
  | stateTransferPacket (link : Fin 32) (p : Packet)
  /-- STATE_REQUEST (R516). A twin or mirror source that receives a Fawn's state request streams its
    bank over its link set. -/
  | stateRequest (link : Fin 32) (ask : StateAsk)
  /-- RETAINED_REPAIR (R513). During a rewind for cause 0x10, damaged mirror blocks are fetched from
    the twin and written into the current bank. -/
  | retainedRepair (mirror : Bool) (block : Nat) (data : List (BitVec 8)) (bad : Bool)
  /-- MANIFEST_COMPLETE (R516). When the Fawn's manifest has run, it requests the state of p and its
    mirror. -/
  | manifestComplete
  /-- TAKEOVER_STREAM_COMPLETE (R519). When the streams are complete, the Fawn verifies the digests,
    retries once or fails, and otherwise reports ready. -/
  | takeoverStreamComplete (mirror : Bool)
  /-- TAKEOVER_BOUND_EXPIRY (R519). When TAKEOVER_BOUND expires before the replay starts, the takeover
    fails and the Stag tries the next Fawn or stops. -/
  | takeoverBoundExpiry
  /-- RECLAIM_NOTICE (R332). A borrower that receives a reclaim notice sets MOTION on every block held
    in the window and clears the far references of FARCOPY blocks. -/
  | reclaimNotice (lender window : Nat)
  /-- RECLAIM_BLOCK_PLACE (R225). A borrower places one reclaimed block in another window, tier 1, its
    pool or the host, and clears MOTION. -/
  | reclaimBlockPlace (lender window : Nat) (data : List (BitVec 8)) (bad : Bool)
  /-- RECLAIM_BOUND_EXPIRY (R332). When RECLAIM_BOUND expires, the blocks not yet placed are set LOST
    and reclaim-done is sent. -/
  | reclaimBoundExpiry (lender window : Nat)
  /-- RECLAIM_DONE (R333). Once every borrower has sent reclaim-done, the lender marks the window
    unwritten and returns its frames. -/
  | reclaimDone (borrower : Fin 1024) (window : Nat)
  /-- FAR_REQUEST (R326). A lender serves a borrower's read or write inside its window, charged to the
    named partition. -/
  | farRequest (link : Fin 32) (write : Bool) (window off len : Nat) (data : List (BitVec 8)) (bad : Bool)
  /-- FAR_DATA (R329). Far-tier data pieces arrive over the lender's links for a block transfer. -/
  | farData (link : Fin 32) (part : Fin 4) (vpn : Nat) (piece : Fin 16) (data : List (BitVec 8)) (bad : Bool)
  /-- HOST_TIER_COMPLETION (R331). A host-tier read completion arrives, and is marked bad when PCIe
    reports an error. -/
  | hostTierCompletion (part : Fin 4) (vpn : Nat) (data : List (BitVec 8)) (error poisoned : Bool)
  /-- MIGRATION_COMPLETE (R323). A page copy to tier 1 completes; FRAME, TIER and FARCOPY are set and
    MOTION clears. -/
  | migrationComplete (part : Fin 4) (vpn : Nat)
  /-- PAGE_EVICTION (R319). The PTU copies the oldest candidate page to the far or host tier and frees
    its frame. -/
  | pageEviction (part : Fin 4)
  /-- NOP (R105). The instruction does nothing. -/
  | nop (tile : Fin 256) (th : Fin 8) (w : BitVec 128)
  /-- END (R136). The thread enters the Ended state. -/
  | endThread (tile : Fin 256) (th : Fin 8) (w : BitVec 128)
  /-- BR (R106). The thread branches when GA compared with GB satisfies COND. -/
  | br (tile : Fin 256) (th : Fin 8) (w : BitVec 128)
  /-- LOOP (R105). The instruction decrements GA and branches while GA is nonzero. -/
  | loop (tile : Fin 256) (th : Fin 8) (w : BitVec 128)
  /-- WAITEV (R100). The thread waits until the event counter reaches v, taken as signed. -/
  | waitev (tile : Fin 256) (th : Fin 8) (w : BitVec 128)
  /-- SIGEV (R101). The event counter is incremented once the named units have completed the thread's
    earlier instructions. -/
  | sigev (tile : Fin 256) (th : Fin 8) (w : BitVec 128)
  /-- TICKWAIT (R105). The thread waits until the Spine tick is at least GA + IMM. -/
  | tickwait (tile : Fin 256) (th : Fin 8) (w : BitVec 128)
  /-- TICKWAIT_EXPIRY (R103). The Spine tick reaches a waiting thread's value, and the thread becomes
    ready. -/
  | tickwaitExpiry (tile : Fin 256) (th : Fin 8)
  /-- SMOVI (R105). GD is set to IMM. -/
  | smovi (tile : Fin 256) (th : Fin 8) (w : BitVec 128)
  /-- SALU (R106). GD is set to GA OP GB or IMM, modulo 2^64. -/
  | salu (tile : Fin 256) (th : Fin 8) (w : BitVec 128)
  /-- SLD (R106). A 64-bit scratchpad word is loaded into GD. -/
  | sld (tile : Fin 256) (th : Fin 8) (w : BitVec 128)
  /-- SST (R106). GD is stored to a 64-bit scratchpad word. -/
  | sst (tile : Fin 256) (th : Fin 8) (w : BitVec 128)
  /-- MMA (R108). The matrix multiply-accumulate is checked, folded onto the array and accumulated in
    32-element groups. -/
  | mma (tile : Fin 256) (th : Fin 8) (w : BitVec 128)
  /-- MCONV (R124). The convolution runs by feeder address generation over taps and channels, with
    zeros below the halo. -/
  | mconv (tile : Fin 256) (th : Fin 8) (w : BitVec 128)
  /-- MZERO (R122). The named accumulator tiles are zeroed and the thread takes ownership. -/
  | mzero (tile : Fin 256) (th : Fin 8) (w : BitVec 128)
  /-- MDRAIN (R121). An accumulator tile is moved out through the drain port, one row per unfrozen
    cycle. -/
  | mdrain (tile : Fin 256) (th : Fin 8) (w : BitVec 128)
  /-- RESERVED_OPCODE (R105). An instruction with an unlisted opcode raises ILLEGAL_OPCODE. -/
  | reservedOpcode (tile : Fin 256) (th : Fin 8) (w : BitVec 128)
  /-- UNIT_INSTRUCTION_COMPLETE (R97). A unit instruction completes, which releases the scoreboard and
    pending SIGEVs. -/
  | unitInstructionComplete (tile : Fin 256) (unit : Fin 4)
  /-- FREEZE_LONG (R119). After a freeze has lasted 2^20 cycles, FREEZE_LONG_CNT increments once and
    the freeze continues. -/
  | freezeLong (tile : Fin 256)
  /-- CODE_LINE_FETCH (R134). A 256-byte code line is fetched into the instruction cache; a
    translation fault or a bad line is handled there. -/
  | codeLineFetch (tile : Fin 256) (th : Fin 8)
  /-- VCHAIN (R152). At issue the sequencer reads the chain descriptor to learn the accumulator tiles
    the chain names. -/
  | vchain (tile : Fin 256) (th : Fin 8) (w : BitVec 128)
  /-- VCHAIN_EXECUTE (R182). At the queue head the engine rereads and checks the descriptor, then runs
    the chain's stages and output streams. -/
  | vchainExecute (tile : Fin 256)
  /-- DESC (R344). The thread hands a descriptor list to its fetch context. -/
  | desc (tile : Fin 256) (th : Fin 8) (w : BitVec 128)
  /-- DESC_LINE_FETCH (R350). A line of four descriptors is fetched and checked. -/
  | descLineFetch (tile : Fin 256) (th : Fin 8)
  /-- DESCRIPTOR_CHECK (R351). The next descriptor is checked in list order before it issues requests,
    and faults precisely on failure. -/
  | descriptorCheck (tile : Fin 256) (th : Fin 8)
  /-- LOAD (R340). A LOAD descriptor moves device memory to the scratchpad. -/
  | load (tile : Fin 256) (th : Fin 8)
  /-- STORE (R340). A STORE descriptor moves scratchpad data to device memory with its memory
    operation. -/
  | store (tile : Fin 256) (th : Fin 8)
  /-- COPY (R340). A COPY descriptor moves data between device memory locations. -/
  | copy (tile : Fin 256) (th : Fin 8)
  /-- MCAST (R357). An MCAST descriptor reads once and delivers to a rank range of receivers. -/
  | mcast (tile : Fin 256) (th : Fin 8)
  /-- MCAST_START (R358). An MCAST starts issuing once every receiver has posted its MRECV. -/
  | mcastStart (tile : Fin 256) (th : Fin 8)
  /-- MRECV (R359). An MRECV descriptor grants a landing place for one MCAST. -/
  | mrecv (tile : Fin 256) (th : Fin 8)
  /-- WGB_UNLOAD (R243). Weight-gradient buffer granules are copied out, and cleaned when CLEAR is
    set. -/
  | wgbUnload (tile : Fin 256) (th : Fin 8)
  /-- WGB_LOAD (R244). Weight-gradient buffer granules are written bit for bit and marked not clean. -/
  | wgbLoad (tile : Fin 256) (th : Fin 8)
  /-- ATOMIC (R342). An ATOMIC descriptor applies legacy atomic operations to words and returns the
    old values. -/
  | atomic (tile : Fin 256) (th : Fin 8)
  /-- REQUEST_COMPLETE (R347). A 256-byte request completes, returns its tag, and writes poisoned
    lines for data marked bad. -/
  | requestComplete (tile : Fin 256) (req : Nat)
  /-- PRG_BUCKET_REFILL (R296). Every 10 ns each controller adds the floor and ceiling bytes to each
    partition's buckets. -/
  | prgBucketRefill
  /-- REGULATOR_GRANT (R297). In each grant slot the controller grants the first eligible waiting
    request by the floor, ceiling and borrow order. -/
  | regulatorGrant (ctrl : Fin 20)
  /-- WRITE_OR_READ (R277). A plain read or write is served in bank-set order, with zero reads and
    zero-fills for unwritten shares. -/
  | writeOrRead (write : Bool) (pa : BitVec 40) (len : Nat) (data : List (BitVec 8)) (line : LineAccess)
  /-- IADD32 (R286). A memory-side 32-bit integer add is applied to each word. -/
  | iadd32 (pa : BitVec 40) (data : List (BitVec 8))
  /-- IADD64 (R286). A memory-side 64-bit integer add is applied to each word. -/
  | iadd64 (pa : BitVec 40) (data : List (BitVec 8))
  /-- FMAX32 (R286). A memory-side FP32 maximum is applied to each word. -/
  | fmax32 (pa : BitVec 40) (data : List (BitVec 8))
  /-- FADD32 (R74). FP32 contributions are added to fixed-point words in deterministic mode, or to
    FP32 words in relaxed mode. -/
  | fadd32 (chan : Fin 4096) (pa : BitVec 40) (data : List (BitVec 8))
  /-- FADDBF16 (R286). BF16 contributions are added as FADD32 does. -/
  | faddbf16 (chan : Fin 4096) (pa : BitVec 40) (data : List (BitVec 8))
  /-- FINAL32 (R77). Fixed-point words are finalised once to FP32, and their granules become
    unwritten. -/
  | final32 (pa : BitVec 40)
  /-- FINALBF16 (R77). Fixed-point words are finalised once to BF16. -/
  | finalbf16 (pa : BitVec 40)
  /-- ATOMIC_INT_ADD (R284). The home slice adds to a word modulo 2^width and returns the old value. -/
  | atomicIntAdd (chan : Fin 4096) (pa : BitVec 40) (wide : Bool) (x : BitVec 64)
  /-- ATOMIC_SWAP (R284). The home slice swaps a word and returns the old value. -/
  | atomicSwap (chan : Fin 4096) (pa : BitVec 40) (wide : Bool) (x : BitVec 64)
  /-- ATOMIC_COMPARE_AND_SWAP (R284). The home slice compares and swaps a word. -/
  | atomicCompareAndSwap (chan : Fin 4096) (pa : BitVec 40) (wide : Bool) (x cmp : BitVec 64)
  /-- ATOMIC_AND_OR_XOR (R284). The home slice applies AND, OR or XOR to a word. -/
  | atomicAndOrXor (chan : Fin 4096) (pa : BitVec 40) (wide : Bool) (sel : Fin 3) (x : BitVec 64)
  /-- ATOMIC_MIN_MAX (R284). The home slice applies signed minimum or maximum to a word. -/
  | atomicMinMax (chan : Fin 4096) (pa : BitVec 40) (wide takeMax : Bool) (x : BitVec 64)
  /-- ATOMIC_FLOAT_ADD (R285). The home slice adds a float to a word and sets NONDET. -/
  | atomicFloatAdd (chan : Fin 4096) (pa : BitVec 40) (x : BitVec 32)
  /-- HOT_BANK_EPISODE (R272). A bank set hot for 2^16 cycles increments HOT_BANK_CNT and writes a
    hot-bank record. -/
  | hotBankEpisode (bank : Fin 10240) (startTick peak : Nat) (part : Fin 4)
  /-- HOT_BANK_EPISODE_END (R272). A hot-bank episode ends after 2^16 cycles below 256 queued
    requests. -/
  | hotBankEpisodeEnd (bank : Fin 10240)
  /-- ECS_RESULT_READ (R266). Once per minute firmware reads the stacks' error check and scrub results
    and logs them. -/
  | ecsResultRead (errors : List Nat)
  /-- APPEND (R201). Keys are rotated, keys and values are encoded and written into leaves, and the
    track lengths advance. -/
  | append (tile : Fin 256) (th : Fin 8) (w : BitVec 128)
  /-- FWD (R206). Key blocks are folded into the online softmax state of one query block. -/
  | fwd (tile : Fin 256) (th : Fin 8) (w : BitVec 128)
  /-- FINAL (R207). The output is normalised and the row statistics are written. -/
  | attnFinal (tile : Fin 256) (th : Fin 8) (w : BitVec 128)
  /-- BWD_PREP (R208). The row sums D are written to VD. -/
  | bwdPrep (tile : Fin 256) (th : Fin 8) (w : BitVec 128)
  /-- BWD (R209). Key blocks are recomputed, dQ accumulates, and dK and dV contributions are added to
    a gradient section. -/
  | bwd (tile : Fin 256) (th : Fin 8) (w : BitVec 128)
  /-- GFINAL (R211). dQ, or the returned dK and dV, are written with the inverse rotation. -/
  | gfinal (tile : Fin 256) (th : Fin 8) (w : BitVec 128)
  /-- QSEND (R219). A quire is sent to the next ring position once credit is held. -/
  | qsend (tile : Fin 256) (th : Fin 8) (w : BitVec 128)
  /-- QRELEASE (R217). The tile releases a landing buffer or the outbound buffer. -/
  | qrelease (tile : Fin 256) (th : Fin 8) (w : BitVec 128)
  /-- LFETCH (R223). Leaves of a track range are brought back to local HBM. -/
  | lfetch (tile : Fin 256) (th : Fin 8) (w : BitVec 128)
  /-- TRUNC (R229). Tracks are set to a shorter length, and leaves are freed or become RETIRING. -/
  | trunc (tile : Fin 256) (th : Fin 8) (w : BitVec 128)
  /-- SAMPLE_START (R470). The engine takes the next permutation position, computes the claimed size
    and applies the caps before allocation. -/
  | sampleStart
  /-- SAMPLE_DECODE_COMPLETE (R477). A decoded and tokenised sample is accepted and packed, or is
    skipped or rejected. -/
  | sampleDecodeComplete
  /-- MICROBATCH_START (R482). The engine starts micro-batch j once j is below the release word plus
    NBUF. -/
  | microbatchStart
  /-- MICROBATCH_READY (R482). A full micro-batch whose writes have completed increments READY_EC in
    the tiles of CHANNEL. -/
  | microbatchReady
  /-- SCRUB_COMPLETE (R524). A scrub completes and writes its summary. -/
  | scrubComplete
  /-- INJECT_LINK_DROP (R525). At the first tick at or after AFTER, the named links enter electrical
    idle. -/
  | injectLinkDrop (slot : Fin 16)
  /-- INJECT_LINK_DROP_END (R525). After COUNT ms the dropped links leave electrical idle. -/
  | injectLinkDropEnd (slot : Fin 16)
  /-- CAMLO_WATCHDOG_EXPIRY (R530). A Camlo watchdog silent for 1 s makes the device fatal. -/
  | camloWatchdogExpiry
  /-- FATAL_EVENT (R530). Camlo stops every channel, sends FAULT, isolates the links, writes the
    colophon and raises the colophon cause. -/
  | fatalEvent (cause : Fin 6)
  /-- COLOPHON_SUMMARY_WRITTEN (R587). Once the colophon summary is in flash after a thermal trip,
    Camlo power-gates the compute dies. -/
  | colophonSummaryWritten
  /-- CODE_INTEGRITY_CHECK (R611). Every 10 s the SEC re-hashes Camlo code, and a mismatch makes the
    device fatal. -/
  | codeIntegrityCheck (code : List (BitVec 8))
  /-- DEBUG_NONCE_EXPIRY (R616). A debug nonce expires 60 s after it was issued. -/
  | debugNonceExpiry
  /-- DROOP_EVENT (R573). When the supply falls below the threshold, the tile's cycles stretch by 50%
    within two cycles. -/
  | droopEvent (tile : Fin 256)
  /-- DROOP_RELEASE (R573). The stretch is released after 64 cycles with the supply above the
    threshold. -/
  | droopRelease (tile : Fin 256) (cycles : Nat)
  /-- FREQ_RELOCK_START (R574). After 10 µs free of droop, a waiting frequency change starts its
    relock, or is abandoned after 16 droop events. -/
  | freqRelockStart (tile : Fin 256)
  /-- FREQ_RELOCK_COMPLETE (R572). The tile PLL relocks and the tile's clock restarts at the new
    frequency. -/
  | freqRelockComplete (tile : Fin 256)
  /-- ENERGY_MODEL_SAMPLE (R583). Every 10 µs the model computes the energy of each rail group. -/
  | energyModelSample (energy : List Nat)
  /-- SUSTAINED_LOOP_PERIOD (R578). Every 10 ms the loop adjusts FL or the throttle against the
    target. -/
  | sustainedLoopPeriod
  /-- ENVELOPE_SECOND (R581). At each second the envelope sets the allowance from the remaining
    budget. -/
  | envelopeSecond
  /-- MINUTE_END (R582). At the end of a minute any overrun is counted, interrupted and reported by
    PLDM. -/
  | minuteEnd
  /-- THERMAL_SAMPLE (R586). Every 1 ms the sensors are read and thermal limits, throttles or a trip
    are applied. -/
  | thermalSample (tiles hbms dies : List Nat)
  /-- PMBUS_READ (R584). Once per second during calibration, READ_POUT is read from each listed
    regulator. -/
  | pmbusRead (reg : Fin 12) (pout : Option Nat)
  /-- PMBUS_CALIBRATION (R584). Every 60 s the group gains are set from measured over modelled energy. -/
  | pmbusCalibration
  /-- SLEEP_TRANSITION_DONE (R588). A sleep-state entry or exit sequence completes. -/
  | sleepTransitionDone
  /-- PLDM_WAKE_REQUEST (R588). A PLDM wake request wakes the device from S3, as PERST does. -/
  | pldmWakeRequest
  /-- PLDM_SENSOR_READ (R590). A PLDM sensor read is answered within 1 ms. -/
  | pldmSensorRead (id : BitVec 16)
  /-- MGMT_CAP_EFFECTER_SET (R592). Numeric effecter 1 sets the management cap, or is refused. -/
  | mgmtCapEffecterSet (watts : Nat)
  /-- TELEMETRY_MIRROR_UPDATE (R565). Once per millisecond the mirror is updated under the SEQ
    protocol. -/
  | telemetryMirrorUpdate
  /-- SPDM_GET_VERSION (R612). The SPDM GET_VERSION request is answered. -/
  | spdmGetVersion (mctp : Bool) (msg : List (BitVec 8))
  /-- SPDM_GET_CAPABILITIES (R612). The SPDM GET_CAPABILITIES request is answered. -/
  | spdmGetCapabilities (mctp : Bool) (msg : List (BitVec 8))
  /-- SPDM_NEGOTIATE_ALGORITHMS (R612). SHA3-256 and ML-DSA-44 are negotiated. -/
  | spdmNegotiateAlgorithms (mctp : Bool) (msg : List (BitVec 8))
  /-- SPDM_GET_DIGESTS (R612). The slot 0 chain digest is returned. -/
  | spdmGetDigests (mctp : Bool) (msg : List (BitVec 8))
  /-- SPDM_GET_CERTIFICATE (R613). The slot 0 chain is returned. -/
  | spdmGetCertificate (mctp : Bool) (msg : List (BitVec 8))
  /-- SPDM_CHALLENGE (R612). A challenge is signed with the alias key. -/
  | spdmChallenge (mctp : Bool) (msg : List (BitVec 8))
  /-- SPDM_GET_MEASUREMENTS (R612). The measurements are returned, signed. -/
  | spdmGetMeasurements (mctp : Bool) (msg : List (BitVec 8))
  /-- SPDM_UNSUPPORTED (R612). Any other SPDM request receives UnsupportedRequest. -/
  | spdmUnsupported (mctp : Bool) (msg : List (BitVec 8))
  /-- BAR0_ACCESS_ERROR (R541). A misaligned or reserved BAR0 access reads 0 or is discarded and
    counted. -/
  | bar0AccessError (write : Bool) (off : BitVec 21) (width : Nat)
  /-- BAR2_ACCESS (R542). A BAR2 read or write reaches HBM at W + o, or is dropped. -/
  | bar2Access (write : Bool) (off : BitVec 40) (len : Nat) (data : List (BitVec 8)) (poisoned : Bool)
  /-- BAR4_ACCESS (R545). A BAR4 access reaches the debug window, or reads 0 while debug is closed. -/
  | bar4Access (write : Bool) (off : BitVec 24) (width : Nat) (data : BitVec 64)
  /-- MAILBOX_HANDOFF (R547). A write of word 0 with OWN = 1 hands a command to Camlo, which copies
    the arguments and records ACCEPT_TICK. -/
  | mailboxHandoff (mb : Fin 16) (word : BitVec 32)
  /-- MAILBOX_WRITE_DROP (R548). A write to a mailbox whose OWN reads 1 is discarded and counted. -/
  | mailboxWriteDrop (mb : Fin 16) (off : BitVec 8)
  /-- INT_CAUSE_WRITE (R10). A write of 1 clears INT_CAUSE bits. -/
  | intCauseWrite (v : BitVec 64)
  /-- INT_MASK_WRITE (R564). A write of INT_MASK that clears a bit whose cause reads 1 sends the
    vector's message. -/
  | intMaskWrite (v : BitVec 64)
  /-- MB_DONE_WRITE (R561). A write of 1 clears MB_DONE bits. -/
  | mbDoneWrite (v : BitVec 64)
  /-- CPL_CONSUMED_WRITE (R560). The host's consumed index frees ring space, and held records may
    post. -/
  | cplConsumedWrite (v : BitVec 64)
  /-- REGISTER_WRITE (R12). A write to a register field with no behaviour of its own sets the field as
    its access code states. -/
  | registerWrite (off : BitVec 21) (width : Nat) (v : BitVec 64)
  /-- UNDEFINED_COMMAND (R662). A command code not in the index returns E_UNKNOWN_CMD. -/
  | undefinedCommand (mb : Fin 16)
  /-- GET_IDENTITY (R567). Returns the identity words, the BAR2 size and the window base. -/
  | getIdentity (mb : Fin 16)
  /-- MB_ECHO (R567). Returns the argument words unchanged. -/
  | mbEcho (mb : Fin 16)
  /-- MB_STATUS (R567). Writes the sixteen mailbox records. -/
  | mbStatus (mb : Fin 16)
  /-- DEVICE_RESET (R567). Completes, then DEV begins 1 ms later. -/
  | deviceReset (mb : Fin 16)
  /-- BAR2_WINDOW_SET (R542). Sets the BAR2 window base and partition. -/
  | bar2WindowSet (mb : Fin 16)
  /-- INTR_ROUTE (R563). Routes a cause to a vector. -/
  | intrRoute (mb : Fin 16)
  /-- CPL_RING_SET (R558). Sets or removes the completion ring and discards held records. -/
  | cplRingSet (mb : Fin 16)
  /-- READ_HIF_COUNTERS (R568). Returns the host interface counters. -/
  | readHifCounters (mb : Fin 16)
  /-- CLEAR_HIF_COUNTERS (R568). Clears the masked host interface counters. -/
  | clearHifCounters (mb : Fin 16)
  /-- CHANNEL_CREATE (R556). Creates a channel from an entry image. -/
  | channelCreate (mb : Fin 16)
  /-- CHANNEL_DESTROY (R142). Destroys a channel that is not running. -/
  | channelDestroy (mb : Fin 16)
  /-- CHANNEL_SET_MODE (R33). Selects deterministic or relaxed mode. -/
  | channelSetMode (mb : Fin 16)
  /-- PROGRAM_LOAD (R133). Loads and checks a program image for a channel. -/
  | programLoad (mb : Fin 16)
  /-- CHANNEL_UPDATE (R142). Replaces a channel's entry image. -/
  | channelUpdate (mb : Fin 16)
  /-- CHANNEL_START (R664). Starts a channel at a step, or arms it when no schedule runs. -/
  | channelStart (mb : Fin 16)
  /-- CHANNEL_STOP (R144). Stops a channel after the next commit or at once. -/
  | channelStop (mb : Fin 16)
  /-- CHANNEL_STATUS (R142). Returns a channel's run state, NONDET, last step and fault. -/
  | channelStatus (mb : Fin 16)
  /-- GET_TILE_STATE (R142). Returns a tile's thread state, fault record and counters. -/
  | getTileState (mb : Fin 16)
  /-- TILE_RESET (R141). Returns one tile to its power-on state within 200 µs. -/
  | tileReset (mb : Fin 16)
  /-- READ_TILE_COUNTERS (R146). Returns the tile counters. -/
  | readTileCounters (mb : Fin 16)
  /-- CLEAR_TILE_COUNTERS (R146). Clears the masked tile counters. -/
  | clearTileCounters (mb : Fin 16)
  /-- READ_TFE_COUNTERS (R371). Returns the fetch engine counters. -/
  | readTfeCounters (mb : Fin 16)
  /-- CLEAR_TFE_COUNTERS (R371). Clears the masked fetch engine counters. -/
  | clearTfeCounters (mb : Fin 16)
  /-- MEM_GET_CONFIG (R302). Returns the data rate, stack rates, bandwidth, reserve and failed stacks. -/
  | memGetConfig (mb : Fin 16)
  /-- MEM_CLEAR_RANGE (R279). Marks a range's granules unwritten in every controller. -/
  | memClearRange (mb : Fin 16)
  /-- MEM_MAP_ADDRESS (R268). Returns the stack, channel, bank, row and column of a physical address. -/
  | memMapAddress (mb : Fin 16)
  /-- MEM_READ_COUNTERS (R303). Returns the memory counters. -/
  | memReadCounters (mb : Fin 16)
  /-- MEM_CLEAR_COUNTERS (R303). Clears the masked memory counters. -/
  | memClearCounters (mb : Fin 16)
  /-- SHC_FLUSH (R302). Writes back and invalidates the lines that the named partitions allocated. -/
  | shcFlush (mb : Fin 16)
  /-- PRG_SET (R294). Loads a partition's regulator record. -/
  | prgSet (mb : Fin 16)
  /-- PRG_REPORT (R298). Returns the per-partition regulator records. -/
  | prgReport (mb : Fin 16)
  /-- HOT_BANK_LOG (R272). Returns the hot-bank records. -/
  | hotBankLog (mb : Fin 16)
  /-- FX_REGION_DEFINE (R288). Defines a fixed-point region and pins its pages. -/
  | fxRegionDefine (mb : Fin 16)
  /-- FX_REGION_RELEASE (R302). Releases a fixed-point region. -/
  | fxRegionRelease (mb : Fin 16)
  /-- TGC_CONFIG (R299). Loads the traffic generator records. -/
  | tgcConfig (mb : Fin 16)
  /-- TGC_START (R300). Starts the named traffic generators. -/
  | tgcStart (mb : Fin 16)
  /-- TGC_STATUS (R301). Returns the generator results. -/
  | tgcStatus (mb : Fin 16)
  /-- TGC_STOP (R300). Stops the named generators. -/
  | tgcStop (mb : Fin 16)
  /-- TGC_COMPLETE (R300). When the last generator ends, every granule is marked unwritten. -/
  | tgcComplete
  /-- PTU_INIT (R308). Sets the page-table area. -/
  | ptuInit (mb : Fin 16)
  /-- PARTITION_SET_VIEW (R321). Selects the unified or the allocation-flag view. -/
  | partitionSetView (mb : Fin 16)
  /-- PARTITION_SET_QUOTA (R315). Loads a partition's quota record. -/
  | partitionSetQuota (mb : Fin 16)
  /-- PAGE_MAP (R325). Maps a range of pages in a tier or on named frames. -/
  | pageMap (mb : Fin 16)
  /-- PAGE_UNMAP (R337). Unmaps a range and frees its frames and copies. -/
  | pageUnmap (mb : Fin 16)
  /-- PAGE_MIGRATE (R337). Moves a range's pages to a target tier. -/
  | pageMigrate (mb : Fin 16)
  /-- PAGE_PIN (R337). Sets or clears PIN on a range. -/
  | pagePin (mb : Fin 16)
  /-- PAGE_QUERY (R336). Returns a page entry. -/
  | pageQuery (mb : Fin 16)
  /-- POOL_STATUS (R336). Returns the pool and quota use. -/
  | poolStatus (mb : Fin 16)
  /-- FAR_LEND (R326). Makes a lender window. -/
  | farLend (mb : Fin 16)
  /-- FAR_UNLEND (R333). Starts the reclaim of a lender window. -/
  | farUnlend (mb : Fin 16)
  /-- FAR_POOL_SET (R328). Sets a borrower's list of lender windows. -/
  | farPoolSet (mb : Fin 16)
  /-- SET_RECLAIM_BOUND (R333). Sets RECLAIM_BOUND. -/
  | setReclaimBound (mb : Fin 16)
  /-- HOST_REGION_ADD (R330). Registers a host region. -/
  | hostRegionAdd (mb : Fin 16)
  /-- HOST_REGION_REMOVE (R330). Removes a host region. -/
  | hostRegionRemove (mb : Fin 16)
  /-- READ_PTU_COUNTERS (R338). Returns the PTU counters. -/
  | readPtuCounters (mb : Fin 16)
  /-- CLEAR_PTU_COUNTERS (R338). Clears the masked PTU counters. -/
  | clearPtuCounters (mb : Fin 16)
  /-- LEAF_POOL_CREATE (R185). Creates a leaf pool. -/
  | leafPoolCreate (mb : Fin 16)
  /-- LEAF_POOL_DESTROY (R232). Destroys a leaf pool. -/
  | leafPoolDestroy (mb : Fin 16)
  /-- SLOT_CREATE (R186). Creates a sequence slot and writes its leaf table. -/
  | slotCreate (mb : Fin 16)
  /-- SLOT_RESET (R233). Frees a slot's leaves and zeroes its lengths. -/
  | slotReset (mb : Fin 16)
  /-- SLOT_DESTROY (R233). Destroys a slot. -/
  | slotDestroy (mb : Fin 16)
  /-- SLOT_SET_RING (R213). Binds a slot to a ring from the next step. -/
  | slotSetRing (mb : Fin 16)
  /-- SLOT_STATUS (R232). Returns a slot's status. -/
  | slotStatus (mb : Fin 16)
  /-- LEAF_PIN (R232). Sets or clears PIN on leaves. -/
  | leafPin (mb : Fin 16)
  /-- SET_LEAF_STALL_BOUND (R226). Sets the leaf stall bound. -/
  | setLeafStallBound (mb : Fin 16)
  /-- READ_LEAF_COUNTERS (R234). Returns the leaf and quire counters. -/
  | readLeafCounters (mb : Fin 16)
  /-- CLEAR_LEAF_COUNTERS (R234). Clears the masked leaf and quire counters. -/
  | clearLeafCounters (mb : Fin 16)
  /-- READ_LEAF_ENTRY (R232). Returns a leaf table entry. -/
  | readLeafEntry (mb : Fin 16)
  /-- LINK_STATUS (R408). Returns the per-link status records. -/
  | linkStatus (mb : Fin 16)
  /-- POS_TABLE_LOAD (R397). Loads a position table image. -/
  | posTableLoad (mb : Fin 16)
  /-- POS_TABLE_READ (R408). Returns the position table in force. -/
  | posTableRead (mb : Fin 16)
  /-- LINK_ENABLE (R408). Enables or disables links. -/
  | linkEnable (mb : Fin 16)
  /-- LINK_RETRAIN (R408). Retrains a link. -/
  | linkRetrain (mb : Fin 16)
  /-- LINK_TEST_START (R408). Starts a link test. -/
  | linkTestStart (mb : Fin 16)
  /-- LINK_TEST_RESULT (R408). Returns the per-lane test results. -/
  | linkTestResult (mb : Fin 16)
  /-- SET_PEER_LOST_BOUND (R400). Sets PEER_LOST_BOUND. -/
  | setPeerLostBound (mb : Fin 16)
  /-- READ_LINK_COUNTERS (R409). Returns the link counters. -/
  | readLinkCounters (mb : Fin 16)
  /-- CLEAR_LINK_COUNTERS (R409). Clears the masked link counters. -/
  | clearLinkCounters (mb : Fin 16)
  /-- READ_LINK_EVENTS (R407). Returns the link event log. -/
  | readLinkEvents (mb : Fin 16)
  /-- HERD_CONFIG (R460). Sets the backup Stag candidates and REWIND_TICKS. -/
  | herdConfig (mb : Fin 16)
  /-- HERD_STATUS (R460). Returns the herd role and state. -/
  | herdStatus (mb : Fin 16)
  /-- GROUP_DEFINE (R432). Defines a group. -/
  | groupDefine (mb : Fin 16)
  /-- GROUP_RELEASE (R460). Releases a group. -/
  | groupRelease (mb : Fin 16)
  /-- SCHEDULE_LOAD (R436). Loads and checks a schedule image. -/
  | scheduleLoad (mb : Fin 16)
  /-- SPINE_START (R460). The Stag waits for every position and starts the first step. -/
  | spineStart (mb : Fin 16)
  /-- SPINE_STOP (R503). Stops the schedule, or turns a recovery into a STOP. -/
  | spineStop (mb : Fin 16)
  /-- EPOCH_ADVANCE (R454). Stages a new layout epoch. -/
  | epochAdvance (mb : Fin 16)
  /-- READ_LATENESS (R461). Returns the lateness tables. -/
  | readLateness (mb : Fin 16)
  /-- CLEAR_CLE_COUNTERS (R462). Clears the masked collective and Spine counters. -/
  | clearCleCounters (mb : Fin 16)
  /-- READ_CLE_COUNTERS (R462). Returns the collective and Spine counters. -/
  | readCleCounters (mb : Fin 16)
  /-- SPINE_TIME (R460). Returns the tick and phase with a PTM timestamp. -/
  | spineTime (mb : Fin 16) (ptm : BitVec 64)
  /-- COLL_STATUS (R451). Returns the last abort record. -/
  | collStatus (mb : Fin 16)
  /-- PLACEMENT_REPORT (R459). Returns the link placement of each edge. -/
  | placementReport (mb : Fin 16)
  /-- IGE_SETUP (R463). Loads the ingest setup record. -/
  | igeSetup (mb : Fin 16)
  /-- IGE_DICT_LOAD (R472). Loads and compiles a dictionary. -/
  | igeDictLoad (mb : Fin 16)
  /-- IGE_SET_LIMITS (R480). Loads the ingest limits from the next step. -/
  | igeSetLimits (mb : Fin 16)
  /-- IGE_START (R483). Starts the ingest engine. -/
  | igeStart (mb : Fin 16)
  /-- IGE_STOP (R490). Stops the ingest engine. -/
  | igeStop (mb : Fin 16)
  /-- IGE_STATUS (R490). Returns the ingest status. -/
  | igeStatus (mb : Fin 16)
  /-- IGE_READ_SKIP_LOG (R479). Returns the skip log. -/
  | igeReadSkipLog (mb : Fin 16)
  /-- IGE_READ_COUNTERS (R491). Returns the ingest counters. -/
  | igeReadCounters (mb : Fin 16)
  /-- IGE_CLEAR_COUNTERS (R491). Clears the masked ingest counters. -/
  | igeClearCounters (mb : Fin 16)
  /-- IGE_CACHE_SET (R486). Sets or removes the decoded-sample cache. -/
  | igeCacheSet (mb : Fin 16)
  /-- IGE_PERMUTE (R475). Returns sample_index. -/
  | igePermute (mb : Fin 16)
  /-- ERR_LOG_READ (R534). Returns error log records. -/
  | errLogRead (mb : Fin 16)
  /-- ERR_LOG_CLEAR (R534). Clears the error log. -/
  | errLogClear (mb : Fin 16)
  /-- SCRUB_START (R522). Starts a scrub of a physical range. -/
  | scrubStart (mb : Fin 16)
  /-- SCRUB_STATUS (R524). Returns the scrub summary. -/
  | scrubStatus (mb : Fin 16)
  /-- SCRUB_STOP (R534). Stops a scrub. -/
  | scrubStop (mb : Fin 16)
  /-- INJECT_ARM (R525). Arms an injection slot. -/
  | injectArm (mb : Fin 16)
  /-- INJECT_DISARM (R525). Disarms injection slots. -/
  | injectDisarm (mb : Fin 16)
  /-- RETIRE_GRANULE (R527). Retires a granule at once or when it is freed. -/
  | retireGranule (mb : Fin 16)
  /-- RETIRE_BANK (R528). Retires every granule with a bank number. -/
  | retireBank (mb : Fin 16)
  /-- ROW_REPAIR (R526). Runs post-package repair on one row. -/
  | rowRepair (mb : Fin 16) (repairLeft repairOk : Bool)
  /-- RETIRE_LIST_READ (R534). Returns the retirement list. -/
  | retireListRead (mb : Fin 16)
  /-- MIRROR_CONFIG (R505). Loads the twin mirror record. -/
  | mirrorConfig (mb : Fin 16)
  /-- MIRROR_STATUS (R534). Returns the mirror status. -/
  | mirrorStatus (mb : Fin 16)
  /-- FAWN_MANIFEST_LOAD (R515). Names a Fawn's manifest for one position. -/
  | fawnManifestLoad (mb : Fin 16)
  /-- TAKEOVER_RECORD_READ (R520). Returns the takeover record. -/
  | takeoverRecordRead (mb : Fin 16)
  /-- SET_RECOVERY_LIMITS (R501). Loads the recovery limits. -/
  | setRecoveryLimits (mb : Fin 16)
  /-- RECOVERY_STATUS (R504). Returns the recovery window state. -/
  | recoveryStatus (mb : Fin 16)
  /-- COLOPHON_READ (R534). Copies part of the colophon to host memory. -/
  | colophonRead (mb : Fin 16)
  /-- COLOPHON_RELEASE (R533). Clears VALID and frees the colophon. -/
  | colophonRelease (mb : Fin 16)
  /-- READ_RSE_COUNTERS (R535). Returns the resilience counters. -/
  | readRseCounters (mb : Fin 16)
  /-- CLEAR_RSE_COUNTERS (R535). Clears the masked resilience counters. -/
  | clearRseCounters (mb : Fin 16)
  /-- PWR_GET_LIMITS (R594). Returns the power limits and the tile ceilings. -/
  | pwrGetLimits (mb : Fin 16)
  /-- PWR_SET_CAP (R578). Sets the host cap. -/
  | pwrSetCap (mb : Fin 16)
  /-- ENV_DECLARE (R580). Declares minute budgets and the alignment. -/
  | envDeclare (mb : Fin 16)
  /-- ENV_STATUS (R594). Returns the envelope status. -/
  | envStatus (mb : Fin 16)
  /-- TILE_FREQ_SET (R570). Sets the tile frequency targets. -/
  | tileFreqSet (mb : Fin 16)
  /-- TILE_FREQ_GET (R594). Returns the per-tile frequency state. -/
  | tileFreqGet (mb : Fin 16)
  /-- SLEEP_ENTER (R588). Starts a sleep-state transition. -/
  | sleepEnter (mb : Fin 16)
  /-- PMBUS_CALIBRATE (R584). Starts a calibration. -/
  | pmbusCalibrate (mb : Fin 16) (answers : Bool)
  /-- THERMAL_STATUS (R594). Returns the temperatures and thresholds. -/
  | thermalStatus (mb : Fin 16)
  /-- READ_PCM_COUNTERS (R595). Returns the power counters. -/
  | readPcmCounters (mb : Fin 16)
  /-- CLEAR_PCM_COUNTERS (R595). Clears the masked power counters. -/
  | clearPcmCounters (mb : Fin 16)
  /-- GET_MEASUREMENTS (R618). Returns the six measurements. -/
  | getMeasurements (mb : Fin 16)
  /-- GET_CERTIFICATE (R613). Returns the slot 0 certificate chain. -/
  | getCertificate (mb : Fin 16)
  /-- ATTEST_SIGN (R614). Returns a signed measurement report. -/
  | attestSign (mb : Fin 16) (secWaitMs : Nat)
  /-- CONFIG_RECORD_READ (R618). Returns the configuration record. -/
  | configRecordRead (mb : Fin 16)
  /-- FW_IMAGE_STAGE (R608). Stages and checks a firmware image. -/
  | fwImageStage (mb : Fin 16) (sigValid : Bool)
  /-- FW_IMAGE_ACTIVATE (R608). Writes the staged image to flash, then DEV follows. -/
  | fwImageActivate (mb : Fin 16) (reread : List (BitVec 8))
  /-- IMAGE_PUSH (R607). Writes an image or a record in image recovery, then reboots. -/
  | imagePush (mb : Fin 16) (sigValid : Bool)
  /-- DEBUG_CHALLENGE (R616). Returns a debug nonce. -/
  | debugChallenge (mb : Fin 16)
  /-- DEBUG_UNLOCK (R616). Opens debug with a signed token. -/
  | debugUnlock (mb : Fin 16) (sigValid : Bool)
  /-- DEBUG_LOCK (R616). Closes debug. -/
  | debugLock (mb : Fin 16)
  /-- GET_NUMERIC_CAPS (R87). Returns the numeric capabilities. -/
  | getNumericCaps (mb : Fin 16)
  /-- SET_SR_SEED (R68). Sets the stochastic-rounding seed from the next step. -/
  | setSrSeed (mb : Fin 16)
  /-- SET_GOVERNOR_CONFIG (R86). Loads the governor configuration. -/
  | setGovernorConfig (mb : Fin 16)
  /-- GET_GOVERNOR_CONFIG (R87). Returns the governor configuration. -/
  | getGovernorConfig (mb : Fin 16)
  /-- PIN_LAYER_FORMAT (R84). Pins or releases a tensor's format. -/
  | pinLayerFormat (mb : Fin 16)
  /-- GET_LAYER_DECISION (R87). Returns a tensor's committed decision. -/
  | getLayerDecision (mb : Fin 16)
  /-- READ_TENSOR_STATS (R80). Returns a tensor's committed statistics record. -/
  | readTensorStats (mb : Fin 16)
  /-- SET_FX_SCALE (R663). Sets the default and one-step E of fixed-point blocks. -/
  | setFxScale (mb : Fin 16)
  /-- CLEAR_NUMERIC_COUNTERS (R88). Clears the masked numerics counters. -/
  | clearNumericCounters (mb : Fin 16)
  /-- READ_WGB_COUNTERS (R262). Returns the weight-gradient counters. -/
  | readWgbCounters (mb : Fin 16)
  /-- CLEAR_WGB_COUNTERS (R262). Clears the masked weight-gradient counters. -/
  | clearWgbCounters (mb : Fin 16)
  /-- PCIE_LINK_UP (R536). The PCIe link completes training to L0 at the highest common rate and
    width, setting PCIE_RATE and PCIE_WIDTH. -/
  | pcieLinkUp (rates : BitVec 7) (width : Nat)
  /-- DOE_DISCOVERY_REQUEST (R536). A Data Object Exchange Discovery request is answered with the
    supported object types. -/
  | doeDiscoveryRequest (index : BitVec 8)
  /-- MCTP_CONTROL_REQUEST (R631). An MCTP control request on the management bus is answered, with
    ERROR_NOT_READY before firmware is ready. -/
  | mctpControlRequest (command : BitVec 8) (data : List (BitVec 8))
  /-- PLDM_EVENT_READ (R655). The management controller reads a waiting PLDM event, which releases
    MGMT_ALERT_N in SMBus mode. -/
  | pldmEventRead
  /-- DYNAMIC_ADDRESS_ASSIGN (R655). In I3C mode the controller assigns the target a dynamic address. -/
  | dynamicAddressAssign (addr : BitVec 7)
  /-- JTAG_TAP_OPERATION (R615). A JTAG TAP operation runs a boundary-scan instruction, and a vendor
    instruction selects bypass while debug is closed. -/
  | jtagTapOperation (vendor : Bool) (ir : BitVec 8) (dr : List (BitVec 8))
  /-- ATTN_RESERVED_KIND (R196). An ATTN instruction with a reserved KIND raises RESERVED_FIELD. -/
  | attnReservedKind (tile : Fin 256) (th : Fin 8) (w : BitVec 128)
  deriving DecidableEq, Repr

end Sys2Proof
end

