-- ==== Sys2Proof/Config.lean ====
section
/-! DEFINITION. What an implementation fixes and the values that the spec leaves open. Nothing here has a
body, so a statement about one of these values holds for every value of it. Each is named in the
assumption log. -/

namespace Sys2Proof.Config

/-- Free value: a byte that the spec leaves open, by draw and index (4). -/
opaque freeByte : Nat → Nat → Byte

/-- Free value: a 64-bit word that the spec leaves open, by draw (4). -/
opaque freeWord : Nat → BitVec 64

/-- The value of configuration dword `n` after reset (10). -/
opaque cfgReset : Nat → BitVec 32

/-- The bits of configuration dword `n` that a write sets (10). -/
opaque cfgWritable : Nat → BitVec 32

/-- The dword index of the MSI-X message control register (10). -/
opaque cfgMsix : Nat

/-- The dword index of the device control register, which holds Initiate Function Level Reset (10). -/
opaque cfgDevCtl : Nat

/-- The dword index of the power management control register, which holds PowerState (10). -/
opaque cfgPm : Nat

/-- The dword index of the resizable BAR control register (10). -/
opaque cfgRebar : Nat

/-- Free value: byte `i` of the CLASS_WORD of a packet of class 0x5 to 0x7, by draw, the marked sectors of its data, and
`i` (28, 65). -/
opaque farWord : Nat → List Nat → Nat → Byte

/-- The set of a shared cache slice that holds a line, by line number (16). -/
opaque shcSet : Nat → Nat

/-- The echo turnaround that this device reports, in ps (21). -/
opaque turnaround : Nat

/-- The positions of the Fawns that may replace a position, as the Stag knows them, ascending (34). -/
opaque fawnsOf : Nat → List Nat

/-- The bytes of the address-as-data pattern, by sector number (PA ÷ 32) and byte (61). -/
opaque addressData : Nat → Nat → Byte

/-- The place in its range of access `i` of a generator in random order, by seed and `i` (61). -/
opaque randomPlace : Nat → Nat → Nat

/-- The signature that the identity key or the alias key makes over bytes, by key and draw (9). -/
opaque signature : Nat → Nat → List Byte → List Byte

/-- A certificate of the chain, by number and the bytes it certifies (9). -/
opaque certificate : Nat → List Byte → List Byte

/-- The byte of the PMBus entry's content (TYPE 0x0004) that holds a regulator's rail group (9). -/
opaque railPlace : Nat → Fin 256

/-- The code of rail group 0-5 (CORE_D0 to CORE_D3, HBM, IO) in such a byte; any other code lists no group (9). -/
opaque railCode : Nat → Byte

/-- The physical address, in the firmware reserve, at which Camlo writes the colophon (103). -/
opaque colophonBase : Nat

/-- The tile and the tile-local address that an offset of BAR4 reaches; none for a register that the spec does not name
(20). -/
opaque debugAddr : Nat → Option (Nat × Nat)

/-- A random byte of the SEC's generator, by draw and index (9). -/
opaque random : Nat → Nat → Byte

/-- The board fits a flash of 64 MiB, not of 32 MiB (R600). -/
opaque flashLarge : Bool

/-- Byte `i` of the boot ROM version of measurement 1 (R609). -/
opaque romVersion : Nat → Byte

/-- The identity public key that the PUF yields with new helper data, by draw (139). -/
opaque pufKey : Nat → List Byte

/-- The DMTF value type of a measurement, and the transfer size and message size of the SPDM responder (141). -/
opaque spdmType : Nat → Byte
opaque spdmSize : Nat
opaque spdmMessage : Nat

/-- The completion code and the data of an MCTP control response, by draw, command and request data (140). -/
opaque mctpReply : Nat → Nat → List Byte → Nat × List Byte

end Sys2Proof.Config
end

