-- ==== Sys2Proof/Machine/Fp.lean ====
section
/-! DEFINITION. Exact values, the scalar formats of R52, conversion with rounding and saturation (R62 to
R66) and FP32 arithmetic (R64, R168 to R170). -/

namespace Sys2Proof.Machine

/-- An exact value: a NaN, an infinity, or (−1)^neg × mant × 2^exp. `fin neg 0 e` is a signed zero. -/
inductive Num where
  | nan
  | inf (neg : Bool)
  | fin (neg : Bool) (mant : Nat) (exp : Int)
  deriving DecidableEq, Repr

/-- The per-lane flags NV, OF, UF, IX and NB (R64, R170). -/
structure Flags where
  nv : Bool
  ovf : Bool
  uf : Bool
  ix : Bool
  nb : Bool
  deriving DecidableEq, Repr

/-- No flag raised. -/
def noFlags : Flags := ⟨false, false, false, false, false⟩

/-- The OR of two flag sets. -/
def orFlags (a b : Flags) : Flags :=
  ⟨a.nv || b.nv, a.ovf || b.ovf, a.uf || b.uf, a.ix || b.ix, a.nb || b.nb⟩

/-- The flag bits in the order NV, OF, UF, IX, NB from bit 0 (R155, R180). -/
def flagBits (f : Flags) : Nat :=
  f.nv.toNat + 2 * f.ovf.toNat + 4 * f.uf.toNat + 8 * f.ix.toNat + 16 * f.nb.toNat

/-- A scalar format of R52: field widths, bias, the code of the largest finite magnitude, the code of
Infinity and the canonical NaN where the format has them. -/
structure FpFmt where
  ebits : Nat
  mbits : Nat
  bias : Nat
  maxCode : Nat
  infCode : Option Nat
  nanCode : Option Nat
  deriving DecidableEq, Repr

/-- binary32 (R52). -/
def fp32 : FpFmt := ⟨8, 23, 127, 0x7F7FFFFF, some 0x7F800000, some 0x7FC00000⟩
/-- binary16 (R52). -/
def fp16 : FpFmt := ⟨5, 10, 15, 0x7BFF, some 0x7C00, some 0x7E00⟩
/-- bfloat16 (R52). -/
def bf16 : FpFmt := ⟨8, 7, 127, 0x7F7F, some 0x7F80, some 0x7FC0⟩
/-- OCP E4M3 (R52): no Infinity, NaN 0x7F. -/
def e4m3 : FpFmt := ⟨4, 3, 7, 0x7E, none, some 0x7F⟩
/-- OCP E5M2 (R52). -/
def e5m2 : FpFmt := ⟨5, 2, 15, 0x7B, some 0x7C, some 0x7E⟩
/-- E3M2 (R52): neither Infinity nor NaN. -/
def e3m2 : FpFmt := ⟨3, 2, 3, 0x1F, none, none⟩
/-- E2M3 (R52). -/
def e2m3 : FpFmt := ⟨2, 3, 1, 0x1F, none, none⟩
/-- E2M1 (R52). -/
def e2m1 : FpFmt := ⟨2, 1, 1, 0x7, none, none⟩

/-- The exact value of a code of a format (R52). -/
def decodeFp (f : FpFmt) (code : Nat) : Num :=
  let neg := code / 2 ^ (f.ebits + f.mbits) % 2 == 1
  let mag := code % 2 ^ (f.ebits + f.mbits)
  if f.infCode = some mag then .inf neg
  else if mag > f.maxCode then .nan
  else
    let e := mag / 2 ^ f.mbits
    let m := mag % 2 ^ f.mbits
    if e = 0 then .fin neg m (1 - (f.bias : Int) - f.mbits)
    else .fin neg (m + 2 ^ f.mbits) ((e : Int) - f.bias - f.mbits)

/-- How a conversion rounds: to nearest even, or stochastically with the 16-bit word r of R66. -/
inductive Rnd where
  | rne
  | sr (r : Nat)
  deriving DecidableEq, Repr

/-- floor(log2) of a nonzero magnitude mant × 2^exp. -/
def floorLog2 (mant : Nat) (exp : Int) : Int := (Nat.log2 mant : Int) + exp

/-- mant × 2^exp rounded to a multiple of 2^q: the multiple, and whether it differs (R62 step 3, R66). -/
def roundMag (mant : Nat) (exp q : Int) (rnd : Rnd) : Nat × Bool :=
  if q ≤ exp then (mant * 2 ^ (exp - q).toNat, false)
  else
    let sh := (q - exp).toNat
    let top := mant / 2 ^ sh
    let rem := mant % 2 ^ sh
    let up : Bool := match rnd with
      | .rne => 2 * rem > 2 ^ sh || (2 * rem == 2 ^ sh && top % 2 == 1)
      | .sr r => rem * 2 ^ 16 / 2 ^ sh + r ≥ 2 ^ 16
    (if up then top + 1 else top, rem != 0)

/-- The magnitude code of mant × 2^exp on the format's grid, before any overflow check: the code counts
on through the binades, so a carry out of the mantissa is the next exponent. -/
def encodeMag (f : FpFmt) (mant : Nat) (exp : Int) (rnd : Rnd) : Nat × Bool :=
  if mant = 0 then (0, false)
  else
    let q := max (floorLog2 mant exp - f.mbits) (1 - (f.bias : Int) - f.mbits)
    let (r, ix) := roundMag mant exp q rnd
    ((q + f.mbits + f.bias - 1).toNat * 2 ^ f.mbits + r, ix)

/-- A magnitude code with its sign bit. -/
def withSign (f : FpFmt) (neg : Bool) (mag : Nat) : Nat :=
  if neg then 2 ^ (f.ebits + f.mbits) + mag else mag

/-- Conversion of an exact value to a format (R62), saturating or not (R63). An infinity that saturates also raises IX: the
finite result differs from it (log entry 14). -/
def convertFp (f : FpFmt) (sat : Bool) (rnd : Rnd) (v : Num) : Nat × Flags :=
  match v with
  | .nan => (f.nanCode.getD 0, noFlags)
  | .inf neg =>
    if sat then (withSign f neg f.maxCode, ⟨false, true, false, true, false⟩)
    else match f.infCode with
      | some c => (withSign f neg c, noFlags)
      | none => (f.nanCode.getD f.maxCode, ⟨true, false, false, false, false⟩)
  | .fin neg mant exp =>
    let (mag, ix) := encodeMag f mant exp rnd
    if mag > f.maxCode then
      let c := if sat then withSign f neg f.maxCode
        else match f.infCode with
          | some c => withSign f neg c
          | none => f.nanCode.getD f.maxCode
      (c, ⟨false, true, false, true, false⟩)
    else (withSign f neg mag, ⟨false, false, mant != 0 && mag == 0, ix, false⟩)

/-- One rounding of an exact value to FP32 by round-to-nearest-even (R64, R168). -/
def round32 (v : Num) : BitVec 32 × Flags :=
  let (c, fl) := convertFp fp32 false .rne v
  (BitVec.ofNat 32 c, fl)

/-- The exact value of an FP32 pattern. -/
def val32 (x : BitVec 32) : Num := decodeFp fp32 x.toNat

/-- The canonical NaN of FP32 (R52). -/
def qnan32 : BitVec 32 := 0x7FC00000

/-- Exact negation. -/
def numNeg : Num → Num
  | .nan => .nan
  | .inf n => .inf (!n)
  | .fin n m e => .fin (!n) m e

/-- Exact magnitude. -/
def numAbs : Num → Num
  | .nan => .nan
  | .inf _ => .inf false
  | .fin _ m e => .fin false m e

/-- The value is a NaN. -/
def numIsNaN : Num → Bool
  | .nan => true
  | _ => false

/-- The value is a zero. -/
def numIsZero : Num → Bool
  | .fin _ 0 _ => true
  | _ => false

/-- The value is finite. -/
def numIsFin : Num → Bool
  | .fin .. => true
  | _ => false

/-- The integer that a finite value is in units of 2^e, e not above its exponent. -/
def scaledInt (neg : Bool) (m : Nat) (exp e : Int) : Int :=
  let a : Int := (m * 2 ^ (exp - e).toNat : Nat)
  if neg then -a else a

/-- Exact sum. A zero sum is +0 unless both terms are negative (then both are −0). -/
def numAdd : Num → Num → Num
  | .nan, _ => .nan
  | _, .nan => .nan
  | .inf a, .inf b => if a = b then .inf a else .nan
  | .inf a, _ => .inf a
  | _, .inf b => .inf b
  | .fin n1 m1 e1, .fin n2 m2 e2 =>
    let e := min e1 e2
    let z := scaledInt n1 m1 e1 e + scaledInt n2 m2 e2 e
    if z = 0 then .fin (n1 && n2) 0 e else .fin (decide (z < 0)) z.natAbs e

/-- Exact product; Infinity × 0 is NaN. -/
def numMul : Num → Num → Num
  | .nan, _ => .nan
  | _, .nan => .nan
  | .inf a, .inf b => .inf (a != b)
  | .inf a, .fin b m _ => if m = 0 then .nan else .inf (a != b)
  | .fin a m _, .inf b => if m = 0 then .nan else .inf (a != b)
  | .fin n1 m1 e1, .fin n2 m2 e2 => .fin (n1 != n2) (m1 * m2) (e1 + e2)

/-- Exact scaling by 2^k. -/
def numScale (v : Num) (k : Int) : Num :=
  match v with
  | .fin n m e => .fin n m (e + k)
  | w => w

/-- Exact sum of a list, added to `acc` from left to right. -/
def numSum (acc : Num) (l : List Num) : Num := l.foldl numAdd acc

/-- The order of two values that are not NaN. Zeros of either sign are equal. -/
def numLt : Num → Num → Bool
  | .nan, _ => false
  | _, .nan => false
  | .inf a, .inf b => a && !b
  | .inf a, .fin .. => a
  | .fin .., .inf b => !b
  | .fin n1 m1 e1, .fin n2 m2 e2 =>
    scaledInt n1 m1 e1 (min e1 e2) < scaledInt n2 m2 e2 (min e1 e2)

/-- Equality of values that are not NaN. -/
def numEq (a b : Num) : Bool :=
  !numIsNaN a && !numIsNaN b && !numLt a b && !numLt b a

/-- NV when a NaN comes from operands that are not NaN (R170), with the flags of the rounding. -/
def round32NV (operands : List Num) (v : Num) : BitVec 32 × Flags :=
  if numIsNaN v then
    (qnan32, ⟨!operands.any numIsNaN, false, false, false, false⟩)
  else round32 v

/-- FP32 addition (R64). -/
def add32 (a b : BitVec 32) : BitVec 32 × Flags :=
  round32NV [val32 a, val32 b] (numAdd (val32 a) (val32 b))

/-- FP32 subtraction. -/
def sub32 (a b : BitVec 32) : BitVec 32 × Flags :=
  round32NV [val32 a, val32 b] (numAdd (val32 a) (numNeg (val32 b)))

/-- FP32 multiplication. -/
def mul32 (a b : BitVec 32) : BitVec 32 × Flags :=
  round32NV [val32 a, val32 b] (numMul (val32 a) (val32 b))

/-- a × b + c with one rounding. -/
def fma32 (a b c : BitVec 32) : BitVec 32 × Flags :=
  round32NV [val32 a, val32 b, val32 c] (numAdd (numMul (val32 a) (val32 b)) (val32 c))

/-- c − a × b with one rounding. -/
def fnma32 (a b c : BitVec 32) : BitVec 32 × Flags :=
  round32NV [val32 a, val32 b, val32 c] (numAdd (val32 c) (numNeg (numMul (val32 a) (val32 b))))

/-- a × b × c with one rounding. -/
def mul332 (a b c : BitVec 32) : BitVec 32 × Flags :=
  round32NV [val32 a, val32 b, val32 c] (numMul (numMul (val32 a) (val32 b)) (val32 c))

/-- The sign bit of an FP32 pattern. -/
def sign32 (a : BitVec 32) : Bool := a.msb

/-- The pattern is a NaN. -/
def isNaN32 (a : BitVec 32) : Bool := numIsNaN (val32 a)

/-- IEEE 754-2019 maximum: NaN propagates, −0 < +0 (R167). -/
def max32 (a b : BitVec 32) : BitVec 32 :=
  if isNaN32 a || isNaN32 b then qnan32
  else if numLt (val32 a) (val32 b) then b
  else if numLt (val32 b) (val32 a) then a
  else if sign32 a then b else a

/-- IEEE 754-2019 minimum (R167). -/
def min32 (a b : BitVec 32) : BitVec 32 :=
  if isNaN32 a || isNaN32 b then qnan32
  else if numLt (val32 a) (val32 b) then a
  else if numLt (val32 b) (val32 a) then b
  else if sign32 a then a else b

/-- The magnitude of an FP32 pattern; a NaN gives the canonical NaN (R169). -/
def abs32 (a : BitVec 32) : BitVec 32 :=
  if isNaN32 a then qnan32 else a &&& 0x7FFFFFFF

/-- The negation of an FP32 pattern; a NaN gives the canonical NaN (R169). -/
def neg32 (a : BitVec 32) : BitVec 32 :=
  if isNaN32 a then qnan32 else a ^^^ 0x80000000

/-- A NaN becomes the canonical NaN (R169); any other pattern stays. -/
def canon32 (a : BitVec 32) : BitVec 32 := if isNaN32 a then qnan32 else a

/-- The integer square root, bit by bit: the largest r with r × r ≤ n, for n below 4^bits. -/
def isqrt (n : Nat) : Nat → Nat → Nat
  | 0, r => r
  | b + 1, r => if (r + 2 ^ b) * (r + 2 ^ b) ≤ n then isqrt n b (r + 2 ^ b) else isqrt n b r

/-- floor(√n). -/
def natSqrt (n : Nat) : Nat := isqrt n (Nat.log2 n / 2 + 1) 0

/-- The quotient of two finite values with a sticky bit below 96 significant bits: exact quotients stay
exact and every other rounds as the exact quotient does. -/
def finDiv (neg : Bool) (m1 : Nat) (e1 : Int) (m2 : Nat) (e2 : Int) : Num :=
  let sh := 96 + Nat.log2 m2
  let q := m1 * 2 ^ sh / m2
  let r := m1 * 2 ^ sh % m2
  .fin neg (2 * q + (if r = 0 then 0 else 1)) (e1 - e2 - sh - 1)

/-- Exact-for-rounding quotient: x ÷ 0 is Infinity for nonzero x, 0 ÷ 0 and ∞ ÷ ∞ are NaN. -/
def numDiv : Num → Num → Num
  | .nan, _ => .nan
  | _, .nan => .nan
  | .inf _, .inf _ => .nan
  | .inf a, .fin b _ _ => .inf (a != b)
  | .fin a _ _, .inf b => .fin (a != b) 0 0
  | .fin a m1 e1, .fin b m2 e2 =>
    if m2 = 0 then (if m1 = 0 then .nan else .inf (a != b)) else finDiv (a != b) m1 e1 m2 e2

/-- The square root with a sticky bit: exact roots stay exact. √−0 is −0; a negative value gives NaN. -/
def numSqrt : Num → Num
  | .nan => .nan
  | .inf true => .nan
  | .inf false => .inf false
  | .fin n m e =>
    if m = 0 then .fin n 0 0
    else if n then .nan
    else
      let sh : Nat := 128 + (if e % 2 = 0 then 0 else 1)
      let r := natSqrt (m * 2 ^ sh)
      .fin false (2 * r + (if r * r = m * 2 ^ sh then 0 else 1)) ((e - sh) / 2 - 1)

/-- Division: OF also for a nonzero finite value divided by zero (R170). -/
def div32 (a b : BitVec 32) : BitVec 32 × Flags :=
  let x := val32 a
  let y := val32 b
  if numIsFin x && !numIsZero x && numIsZero y then
    ((round32 (numDiv x y)).1, ⟨false, true, false, false, false⟩)
  else round32NV [x, y] (numDiv x y)

/-- Square root (R167). -/
def sqrt32 (a : BitVec 32) : BitVec 32 × Flags := round32NV [val32 a] (numSqrt (val32 a))

/-- 1 ÷ √a with one rounding. IEEE 754-2019 clause 9.2: rSqrt(±0) is ±∞, rSqrt(+∞) is +0. -/
def rsqrt32 (a : BitVec 32) : BitVec 32 × Flags :=
  match val32 a with
  | .nan => (qnan32, noFlags)
  | .inf true => (qnan32, ⟨true, false, false, false, false⟩)
  | .inf false => (0, noFlags)
  | .fin n m e =>
    if m = 0 then ((round32 (.inf n)).1, ⟨false, true, false, false, false⟩)
    else if n then (qnan32, ⟨true, false, false, false, false⟩)
    else
      -- 1/√(m·2^e) = √(2^(2k)/m') scaled: take floor(√(2^sh / m)) with a sticky bit
      let sh : Nat := 256 + Nat.log2 m + (if (e + Nat.log2 m) % 2 = 0 then 0 else 1)
      let t := 2 ^ sh / m
      let r := natSqrt t
      let exact := t * m = 2 ^ sh ∧ r * r = t
      round32 (.fin false (2 * r + (if exact then 0 else 1)) (-(e + sh) / 2 - 1))

/-- a × 2^k with one rounding (R167 SCALE). -/
def scale32 (a : BitVec 32) (k : Int) : BitVec 32 × Flags :=
  round32NV [val32 a] (numScale (val32 a) k)

/-- a ÷ (√b + c), each of the three steps rounded once; the flags of all three (R167, R170). -/
def divsq32 (a b c : BitVec 32) : BitVec 32 × Flags :=
  let r := sqrt32 b
  let s := add32 r.1 c
  let q := div32 a s.1
  (q.1, orFlags r.2 (orFlags s.2 q.2))

/-- The comparison of CMP: 0 EQ, 1 LT, 2 LE, 3 NE; NaN makes EQ, LT and LE false and NE true (R171). -/
def cmp32 (rel : Nat) (a b : BitVec 32) : Bool :=
  let x := val32 a
  let y := val32 b
  match rel with
  | 0 => numEq x y
  | 1 => numLt x y
  | 2 => numLt x y || numEq x y
  | _ => !numEq x y

/-- The FP32 value of a natural number, rounded once. -/
def ofNat32 (n : Nat) : BitVec 32 := (round32 (.fin false n 0)).1

/-- The stochastic-rounding word of R67 for seed, step, tile, thread, site count c and element e. -/
def srWord (seed step : BitVec 64) (tile thread c e : Nat) : Nat :=
  let x0 := seed ^^^ (step * 0x9E3779B97F4A7C15#64)
  let x1 := x0 ^^^ (BitVec.ofNat 64 tile <<< 56 ||| BitVec.ofNat 64 thread <<< 53
    ||| BitVec.ofNat 64 (c % 2 ^ 24) <<< 16 ||| BitVec.ofNat 64 (e % 2 ^ 16))
  let x2 := (x1 ^^^ (x1 >>> 30)) * 0xBF58476D1CE9E5B9#64
  let x3 := (x2 ^^^ (x2 >>> 27)) * 0x94D049BB133111EB#64
  let x4 := x3 ^^^ (x3 >>> 31)
  (x4 >>> 48).toNat

end Sys2Proof.Machine
end

