-- ==== Sys2Proof/Machine/BlockFmt.lean ====
section
/-! DEFINITION. The thirteen format codes of R50, the packing of R51, and the encoding and decoding of
the block-scaled formats (R53 to R61). -/

namespace Sys2Proof.Machine

/-- The scalar format of a code 0x0 to 0x4 (R50). -/
def scalarFmt : Nat → Option FpFmt
  | 0 => some fp32
  | 1 => some bf16
  | 2 => some fp16
  | 3 => some e4m3
  | 4 => some e5m2
  | _ => none

/-- The floating element format of an MX code or DF4S (R50); INT8 and DFU8 have none. -/
def elemFmt : Nat → FpFmt
  | 5 => e4m3
  | 6 => e5m2
  | 7 => e2m3
  | 8 => e3m2
  | _ => e2m1

/-- Bits of one element (R50, R51). -/
def elemBits : Nat → Nat
  | 0 => 32
  | 1 => 16
  | 2 => 16
  | 7 => 6
  | 8 => 6
  | 9 => 4
  | 11 => 4
  | _ => 8

/-- The code names a block-scaled format (R50). -/
def isBlockFmt (c : Nat) : Bool := 5 ≤ c && c ≤ 12

/-- The code names an MX format (R50). -/
def isMxFmt (c : Nat) : Bool := 5 ≤ c && c ≤ 10

/-- Elements per block: 64 for DF4S, 32 for the other block formats, 1 for a scalar format (R50). -/
def blockLen (c : Nat) : Nat := if c = 11 then 64 else if isBlockFmt c then 32 else 1

/-- Bytes of one scale-plane entry (R51). -/
def scaleBytes (c : Nat) : Nat := if c = 11 then 8 else if isBlockFmt c then 1 else 0

/-- emax of the MX element formats. -/
def mxEmax : Nat → Int
  | 5 => 8
  | 6 => 15
  | 7 => 2
  | 8 => 4
  | 9 => 2
  | _ => 0

/-- The little-endian number that a byte list holds (R7). -/
def leNat : List Byte → Nat
  | [] => 0
  | b :: bs => b.toNat + 256 * leNat bs

/-- n bytes of a number, little-endian (R7). -/
def natLe : Nat → Nat → List Byte
  | 0, _ => []
  | n + 1, v => BitVec.ofNat 8 v :: natLe n (v / 256)

/-- Element i of a packed element plane: elements of `w` bits in a little-endian bit stream, which gives
the places of R51 for 4-bit and 6-bit elements. -/
def elemAt (w : Nat) (plane : List Byte) (i : Nat) : Nat :=
  let b := w * i
  leNat ((plane.drop (b / 8)).take 5) / 2 ^ (b % 8) % 2 ^ w

/-- The elements of a packed plane. -/
def unpackElems (w n : Nat) (plane : List Byte) : List Nat :=
  (List.range n).map (elemAt w plane)

/-- The packed number of a list of elements of `w` bits. -/
def packNat (w : Nat) : List Nat → Nat
  | [] => 0
  | e :: es => e % 2 ^ w + 2 ^ w * packNat w es

/-- The packed element plane (R51). -/
def packElems (w : Nat) (es : List Nat) : List Byte :=
  natLe ((w * es.length + 7) / 8) (packNat w es)

/-- The signed value of an 8-bit code. -/
def int8 (c : Nat) : Int := if c % 256 < 128 then (c % 256 : Nat) else ((c % 256 : Nat) : Int) - 256

/-- The exact value of an integer times 2^e. -/
def numOfInt (z : Int) (e : Int) : Num := .fin (decide (z < 0)) z.natAbs e

/-- The element value of an MX element code, before its scale (R52, R53). -/
def mxElemVal (c e : Nat) : Num :=
  if c = 10 then numOfInt (int8 e) (-6) else decodeFp (elemFmt c) e

/-- An MX element under scale byte X (R56): NaN when X is 0xFF. -/
def mxDecode (c x e : Nat) : Num :=
  if x = 0xFF then .nan else numScale (mxElemVal c e) ((x : Int) - 127)

/-- Offset oj of a DF4S scale entry (R58). -/
def df4sOffset (entry j : Nat) : Nat := entry / 2 ^ (4 * j) % 16

/-- X of a DF4S scale entry: byte 4 (R58). -/
def df4sX (entry : Nat) : Nat := entry / 2 ^ 32 % 256

/-- Element i of a DF4S block (R57). -/
def df4sDecode (entry i e : Nat) : Num :=
  if df4sX entry = 0xFF then .nan
  else numScale (decodeFp e2m1 e) ((df4sX entry : Int) - 127 - df4sOffset entry (i / 8))

/-- A DFU8 code under X (R60): the square of u, exactly; R60's single rounding to FP32 follows. -/
def dfu8Decode (x q : Nat) : Num :=
  if x = 0xFF then .nan
  else .fin false (q * q) (2 * ((x : Int) - 135))

/-- Element i of a block of a block-scaled format under its scale entry, exactly; a DFU8 element is
rounded once to FP32 (R56, R57, R60). -/
def blockDecode (c entry i e : Nat) : Num :=
  if c = 11 then df4sDecode entry i e
  else if c = 12 then val32 (round32 (dfu8Decode entry e)).1
  else mxDecode c entry e

/-- Some value is a NaN or an infinity. -/
def anyNonFinite (vs : List Num) : Bool := vs.any fun v => !numIsFin v

/-- The largest magnitude of finite values, +0 for none. -/
def amaxOf (vs : List Num) : Num :=
  vs.foldl (fun a v => if numLt a (numAbs v) then numAbs v else a) (.fin false 0 0)

/-- floor(log2) of a finite nonzero value. -/
def log2Of : Num → Int
  | .fin _ m e => floorLog2 m e
  | _ => 0

/-- Clamp to a closed range. -/
def clampInt (lo hi z : Int) : Int := max lo (min hi z)

/-- Conversion to an INT8 element: a multiple of 2^−6, saturating at ±127 (R53, R62, R63). -/
def int8Encode (rnd : Rnd) (v : Num) : Nat × Flags :=
  match v with
  | .fin neg m e =>
    let (r, ix) := if m = 0 then (0, false) else roundMag m e (-6) rnd
    let above := r > 127
    let r' := if above then 127 else r
    (if neg && r' != 0 then 256 - r' else r', ⟨false, above, m != 0 && r' == 0, ix || above, false⟩)
  | _ => (0, noFlags)

/-- One element of an MX block, always saturating (R55 step 4, R63). -/
def mxElemEncode (c : Nat) (rnd : Rnd) (v : Num) : Nat × Flags :=
  if c = 10 then int8Encode rnd v else convertFp (elemFmt c) true rnd v

/-- Encode each value with its own rounding word. -/
def encodeEach (enc : Rnd → Num → Nat × Flags) (rnds : Nat → Rnd) :
    Nat → List Num → List Nat × Flags
  | _, [] => ([], noFlags)
  | i, v :: vs =>
    let (c, f) := enc (rnds i) v
    let (cs, fs) := encodeEach enc rnds (i + 1) vs
    (c :: cs, orFlags f fs)

/-- The flag NB alone. -/
def nbFlag : Flags := ⟨false, false, false, false, true⟩

/-- An MX block from its values (R55): scale byte, element codes, flags. -/
def mxEncode (c : Nat) (rnds : Nat → Rnd) (vs : List Num) : Nat × List Nat × Flags :=
  if anyNonFinite vs then (0xFF, vs.map fun _ => 0, nbFlag)
  else
    let a := amaxOf vs
    if numIsZero a then (0, vs.map fun _ => 0, noFlags)
    else
      let x := clampInt (-127) 127 (log2Of a - mxEmax c)
      let (es, f) := encodeEach (mxElemEncode c) rnds 0 (vs.map fun v => numScale v (-x))
      ((x + 127).toNat, es, f)

/-- The offset of sub-block j of a DF4S block (R59 step 4). -/
def df4sOff (a : Num) (x : Int) (sub : List Num) : Nat :=
  let aj := amaxOf sub
  if numIsZero aj then 0
  else (min 15 (min (log2Of a - log2Of aj) (x + 127))).toNat

/-- The eight sub-blocks of a DF4S block. -/
def df4sSubs (vs : List Num) : List (List Num) :=
  (List.range 8).map fun j => (vs.drop (8 * j)).take 8

/-- The elements of the sub-blocks in order (R59 step 5). -/
def df4sElems (a : Num) (x : Int) (rnds : Nat → Rnd) : Nat → List (List Num) → List Nat × Flags
  | _, [] => ([], noFlags)
  | j, sub :: subs =>
    let o := df4sOff a x sub
    let (es, f) := encodeEach (convertFp e2m1 true) rnds (8 * j)
      (sub.map fun v => numScale v ((o : Int) - x))
    let (es', f') := df4sElems a x rnds (j + 1) subs
    (es ++ es', orFlags f f')

/-- A DF4S block from its 64 values (R59): the 64-bit scale entry, element codes, flags. -/
def df4sEncode (rnds : Nat → Rnd) (vs : List Num) : Nat × List Nat × Flags :=
  if anyNonFinite vs then (0xFF * 2 ^ 32, vs.map fun _ => 0, nbFlag)
  else
    let a := amaxOf vs
    if numIsZero a then (0, vs.map fun _ => 0, noFlags)
    else
      let x := clampInt (-127) 127 (log2Of a - 2)
      let subs := df4sSubs vs
      let (es, f) := df4sElems a x rnds 0 subs
      ((x + 127).toNat * 2 ^ 32 + packNat 4 (subs.map (df4sOff a x)), es, f)

/-- The flags and the square root of one DFU8 value (R61 steps 2 and 3): a negative value is taken as 0
and raises NV, −0 as 0. -/
def dfu8Root (v : Num) : BitVec 32 × Flags :=
  match v with
  | .fin true m _ => if m = 0 then (0, noFlags) else (0, ⟨true, false, false, false, false⟩)
  | .inf true => (0, ⟨true, false, false, false, false⟩)
  | w => round32 (numSqrt w)

/-- One DFU8 code from its root (R61 step 5). -/
def dfu8Code (x : Nat) (rnd : Rnd) (u : Num) : Nat × Flags :=
  match u with
  | .fin _ m e =>
    let (r, ix) := if m = 0 then (0, false) else roundMag m e ((x : Int) - 135) rnd
    let above := r > 255
    let r' := if above then 255 else r
    (r', ⟨false, above, m != 0 && r' == 0, ix || above, false⟩)
  | _ => (0, noFlags)

/-- A DFU8 block from its 32 values (R61): X, codes, flags. Only NaN and +Infinity give X 0xFF. -/
def dfu8Encode (rnds : Nat → Rnd) (vs : List Num) : Nat × List Nat × Flags :=
  if vs.any fun v => numIsNaN v || v = .inf false then (0xFF, vs.map fun _ => 0, nbFlag)
  else
    let roots := vs.map dfu8Root
    let rf := roots.foldl (fun f r => orFlags f r.2) noFlags
    let us := roots.map fun r => val32 r.1
    let a := amaxOf us
    if numIsZero a then (0, vs.map fun _ => 0, rf)
    else
      let x := (log2Of a + 128).toNat
      let (es, f) := encodeEach (dfu8Code x) rnds 0 us
      (x, es, orFlags rf f)

/-- A block of a block-scaled format: scale entry, element codes, flags. -/
def blockEncode (c : Nat) (rnds : Nat → Rnd) (vs : List Num) : Nat × List Nat × Flags :=
  if c = 11 then df4sEncode rnds vs
  else if c = 12 then dfu8Encode rnds vs
  else mxEncode c rnds vs

/-- A conversion to a scalar format (R62), under the tensor exponent t for E4M3 and E5M2 (R54). -/
def scalarEncode (c : Nat) (sat : Bool) (rnd : Rnd) (t : Int) (v : Num) : Nat × Flags :=
  match scalarFmt c with
  | some f => if c = 0 then convertFp f false .rne v else convertFp f sat rnd (numScale v (-t))
  | none => (0, noFlags)

/-- The exact value of a scalar code under the tensor exponent t (R54). -/
def scalarDecode (c : Nat) (t : Int) (e : Nat) : Num :=
  match scalarFmt c with
  | some f => numScale (decodeFp f e) t
  | none => .nan

end Sys2Proof.Machine
end

