-- ==== Sys2Proof/Machine/StateBase.lean ====
section
/-! DEFINITION. The data that several parts of the state share: counters, the records that the resilience
engine writes, and what the block sends to the outside. -/

namespace Sys2Proof.Machine

/-- A group of counters, keyed by mask bit; a counter that is not listed reads 0 (R16). -/
abbrev Ctrs := SMap Nat

/-- A PLDM platform event message (R591, R616, R530). -/
inductive PldmEvent where
  /-- A minute overrun: minute index, energy and budget in J. -/
  | overrun (minute energy budget : Nat)
  /-- A thermal event of R587: the sensor (0-255 tiles, 256-275 stacks, 276-279 dies), its temperature,
  and whether it is a trip. -/
  | thermal (sensor temp : Nat) (trip : Bool)
  /-- The colophon of R530. -/
  | colophon (cause seq : Nat)
  /-- A change of sensor 33. -/
  | sensor33 (v : Nat)
  /-- A debug opening of R616. -/
  | debug (level : Nat)
  deriving DecidableEq, Repr

/-- What the block sends out, in order. The list that holds it is the model's own field. -/
inductive Output where
  /-- An MSI-X message (R564). -/
  | msix (vector : Nat)
  /-- A completion of a BAR read, with its Poisoned bit (R539, R541, R542, R545). -/
  | barRead (bar : Nat) (data : List Byte) (poisoned : Bool)
  /-- A configuration read completed normally. -/
  | cfgRead (v : BitVec 32)
  /-- A configuration write completed normally. -/
  | cfgWritten
  /-- A configuration request completed with Request Retry Status (R537). -/
  | cfgRetry
  /-- A memory request completed as Unsupported Request (R632). -/
  | unsupported
  /-- The training pattern on every lane of a link (R395 step 1). -/
  | pattern (link : Nat)
  /-- A flit sent on a link (R376). -/
  | flit (link : Nat) (bytes : List Byte)
  /-- A Data Object Exchange response (R536). -/
  | doe (data : List Byte)
  /-- An SPDM response, over MCTP or over DOE (R612). -/
  | spdm (mctp : Bool) (msg : List Byte)
  /-- An MCTP control response: command, completion code, data. -/
  | mctp (command code : Nat) (data : List Byte)
  /-- A PLDM sensor reading (R590). -/
  | sensor (id v : Nat)
  /-- A PLDM sensor or effecter request refused: unknown sensor, invalid value or not enabled (R592). -/
  | pldmError
  /-- A management request that is answered ERROR_NOT_READY and not executed (R631, R632). -/
  | notReady
  /-- The effecter's acceptance (R592). -/
  | pldmOk
  /-- A PLDM event read by the management controller (R655). -/
  | pldm (e : PldmEvent)
  /-- The old value that a legacy atomic returns (R284). -/
  | old (v : BitVec 64)
  /-- Data returned by a memory controller to a requester, with the sectors marked bad (R274). -/
  | line (data : List Byte) (bad : List Nat)
  /-- The bits that TDO shifts out (R615). -/
  | tdo (bits : List Byte)
  /-- A request for a state stream (R516): whether it asks for the mirror the position keeps. -/
  | stateRequest (pos : Nat) (mirror : Bool)
  /-- A request to a position for a mirror block of R513: whether the asker's damaged block is of its mirror
  bank, and the block. -/
  | repairRequest (pos : Nat) (mirror : Bool) (block : Nat)
  deriving DecidableEq, Repr

/-- A FAULT as the herd sees it (R419, R504). -/
structure FaultRec where
  pos : Nat
  cls : Nat
  cause : Nat
  stamp : Nat
  /-- The work channel concerned, 0xFFFF when none; a packet carries none. -/
  chan : Nat
  deriving DecidableEq, Repr

/-- An error log record (R497). -/
structure LogRec where
  seq : Nat
  tick : Nat
  status : Nat
  source : Nat
  cause : Nat
  cls : Nat
  flags : Nat
  unit : Nat
  chan : Nat
  pa : Nat
  va : Nat
  step : Nat
  detail : Nat
  bankId : Nat
  row : Nat
  mch : Nat
  /-- The thread of a bad-data event (R365), which the record's bytes do not carry. -/
  thread : Nat
  deriving DecidableEq, Repr

/-- The status codes of R566. -/
abbrev Status := Nat

namespace St
abbrev ok : Status := 0x0000
abbrev badArg : Status := 0x1001
abbrev range : Status := 0x1002
abbrev align : Status := 0x1003
abbrev unknownCmd : Status := 0x1004
abbrev busy : Status := 0x2001
abbrev state : Status := 0x2002
abbrev recovery : Status := 0x2003
abbrev noMemory : Status := 0x3001
abbrev leafExhausted : Status := 0x3002
abbrev reductionBuffer : Status := 0x3003
abbrev auth : Status := 0x4001
abbrev signature : Status := 0x4002
abbrev collMismatch : Status := 0x5001
abbrev epoch : Status := 0x5002
abbrev linkDown : Status := 0x5003
abbrev peerLost : Status := 0x5004
abbrev uncorrectable : Status := 0x6001
abbrev poison : Status := 0x6002
abbrev sampleCap : Status := 0x7001
abbrev envelope : Status := 0x8001
abbrev internal : Status := 0xF001
end St

end Sys2Proof.Machine
end

