-- ==== Sys2Proof/Machine/StateRse.lean ====
section
/-! DEFINITION. The state of the resilience engine and of the numerics and governor. -/

namespace Sys2Proof.Machine

/-- The recovery limits of R501. -/
structure RecLimits where
  replay : Nat
  bound : Nat
  watchdog : Nat
  deriving DecidableEq, Repr

/-- The defaults of R501. -/
def RecLimits.reset : RecLimits := ⟨3, 5000, 0⟩

/-- The twin mirror record of R505; a position of 0xFFFF is none. -/
structure MirrorRec where
  twinPos : Nat
  mirrorOf : Nat
  n : Nat
  bank0 : Nat
  bank1 : Nat
  readyVa : Nat
  mbank0 : Nat
  mbank1 : Nat
  mn : Nat
  /-- The partition of the record's virtual addresses (R507). -/
  part : Nat
  deriving DecidableEq, Repr

/-- No mirror. -/
def MirrorRec.reset : MirrorRec := ⟨0xFFFF, 0xFFFF, 0, 0, 0, 0, 0, 0, 0, 0⟩

/-- An injection slot that is armed (R525). -/
structure Inj where
  site : Nat
  loc : Nat
  loc2 : Nat
  mask : BitVec 64
  count : Nat
  after : Nat
  store : Bool
  /-- Site 0x9: the links are in electrical idle. -/
  active : Bool
  deriving DecidableEq, Repr

/-- A scrub and its summary (R522, R524). -/
structure Scrub where
  pa : Nat
  len : Nat
  mode : Nat
  rate : Nat
  dst : Nat
  granules : Nat
  skipped : Nat
  sectors : Nat
  corrected : Nat
  uncorrectable : Nat
  first : Nat
  startTick : Nat
  endTick : Nat
  state : Nat
  deriving DecidableEq, Repr

/-- A state stream that the Fawn receives (R517): parts 1 to 3 as they arrive, and its progress. -/
structure Stream where
  part1 : List Byte
  part2 : List Byte
  part3 : List Byte
  bytes : Nat
  retried : Bool
  done : Bool
  deriving DecidableEq, Repr

/-- A stream of which nothing has arrived. -/
def Stream.reset : Stream := ⟨[], [], [], 0, false, false⟩

/-- A takeover in progress on the Fawn (R516). -/
structure Takeover where
  pos : Nat
  former : Nat
  gen : Nat
  commit : Nat
  lostTick : Nat
  startMs : Nat
  manifestDone : Bool
  /-- Images of the manifest that have been executed. -/
  next : Nat
  /-- The takeover has failed on this Fawn (R519). -/
  failed : Bool
  own : Stream
  mirror : Stream
  deriving DecidableEq, Repr

/-- The takeover record (R520). -/
structure TakeoverRec where
  pos : Nat
  former : Nat
  gen : Nat
  commit : Nat
  lostTick : Nat
  readyTick : Nat
  fPrime : Nat
  result : Nat
  slots : BitVec 16
  leavesLost : Nat
  pulled : Nat
  deriving DecidableEq, Repr

/-- A record of no takeover. -/
def TakeoverRec.blank : TakeoverRec := ⟨0, 0, 0, 0, 0, 0, 0, 0, 0, 0, 0⟩

/-- A repaired row (R526, R534). -/
structure RowRepair where
  stack : Nat
  channel : Nat
  pc : Nat
  bank : Nat
  row : Nat
  hard : Bool
  deriving DecidableEq, Repr

/-- The colophon descriptor and slot (R532, R546). -/
structure Colophon where
  /-- [1; R532; 0] VALID. -/
  valid : Bool
  /-- [1; R532; 0] COMPLETE. -/
  complete : Bool
  /-- [1; R532; 0] LOCATION. -/
  location : Bool
  /-- [8; R532; 0] CAUSE. -/
  cause : Nat
  /-- [32; R532; 0] SEQ. -/
  seq : Nat
  /-- [32; R532; 0] SIZE. -/
  size : Nat
  /-- [40; R532; 0] BAR2_OFFSET. -/
  offset : Nat
  /-- [48; R532; 0] TICK. -/
  tick : Nat
  /-- [4; R546; 0] COLOPHON_SLOT. -/
  slot : Nat
  deriving DecidableEq, Repr

/-- No colophon. -/
def Colophon.reset : Colophon := ⟨false, false, false, 0, 0, 0, 0, 0, 0⟩

/-- A colophon's bytes (R531): its 64-byte header, the pieces whose content the spec lays out, keyed by offset, and the
number of the free values that stand for the rest. -/
structure Dump where
  head : List Byte
  parts : List (Nat × List Byte)
  draw : Nat
  deriving DecidableEq, Repr

/-- The resilience engine. -/
structure Rse where
  /-- [4,096 × 64 B; R496; empty] The error log, oldest first. -/
  log : List LogRec
  /-- [64; R497; 0] The next SEQ. -/
  nextSeq : Nat
  /-- [64 µs counts; R496; none] When the class 4 records of the last second were written, newest first. -/
  recent : List Nat
  /-- [48; R25; 0] ODF.PARITY_REPLAY_CNT. -/
  odfReplay : Nat
  /-- [12 × 48; R535; 0] The RSE counters. -/
  ctrs : Ctrs
  /-- [2; R504, R546; 0] The recovery window: 0 none, 1 rewind, 2 takeover, 3 stopped. -/
  window : Nat
  /-- [48; R504; 0] Commit m of the window. -/
  winCommit : Nat
  /-- [48; R504; 0] F′. -/
  fPrime : Nat
  /-- [fault; R504; none] The FAULT that opened the window. -/
  winFault : Option FaultRec
  /-- [5; R44, R504; 0] Replays of step m + 1. -/
  replays : Nat
  /-- [1; R498; no] Restoration of commit m is in progress. -/
  restoring : Bool
  /-- [1; R499; no] F′ passed before the restoration completed. -/
  late : Bool
  /-- [blocks; R513; none] Mirror blocks that wait to be repaired: mirror bank, block. -/
  repairs : List (Bool × Nat)
  /-- [16 B; R501; defaults] Recovery limits in force. -/
  limits : RecLimits
  /-- [16 B; R501; none] Limits loaded and the step in which they apply. -/
  limitsPend : Option (RecLimits × Nat)
  /-- [64 B; R505; none] The mirror record in force. -/
  mirror : MirrorRec
  /-- [64 B; R505; none] A record that takes effect at the next commit tick. -/
  mirrorPend : Option MirrorRec
  /-- [bytes; R512; empty] The owner state of the mirrored position: uncommitted and committed. -/
  ownerU : List Byte
  ownerC : List Byte
  /-- [16 × 32 per block; R512; empty] The last sixteen amax values per mirrored block. -/
  ownerHist : SMap (List (BitVec 32))
  /-- [-; R534; 0] Elements mirrored in the running step and in the last committed step. -/
  mirroredU : Nat
  mirroredC : Nat
  /-- [position → partition, VA, count; R515; none] The Fawn's manifests. -/
  manifests : SMap (Nat × Nat × Nat)
  /-- [record; R516; none] A takeover in progress on this Fawn. -/
  takeover : Option Takeover
  /-- [position, tick; R516, R519; none] The takeover that the acting Stag has ordered, and its E_PEER_LOST. -/
  ordered : Option (Nat × Nat)
  /-- [64 B; R520; none] The last takeover record. -/
  takeoverRec : Option TakeoverRec
  /-- [64 B; R524; none] The scrub that runs, or the last one. -/
  scrub : Option Scrub
  /-- [16 slots; R525; none] Armed injection slots. -/
  inj : SMap Inj
  /-- [16,384 granules; R527; none] Retired granules and granules that wait to be retired. -/
  retired : NSet
  retirePend : NSet
  /-- [4 × 6; R528; none] Retired bank numbers. -/
  banks : NSet
  /-- [rows; R526; none] Rows repaired since the list was last lost. -/
  rows : List RowRepair
  /-- [32 B; R532; 0] The colophon descriptor. -/
  colo : Colophon
  /-- [4 MiB; R531; none] The full dump in the firmware reserve. -/
  dump : Option Dump
  /-- [16 × 320 KiB; R600, R531; none] The summaries in the flash's colophon slots. -/
  slots : SMap Dump
  /-- [3; R530; none] The device is fatal, with its cause. -/
  fatal : Option Nat
  /-- [1; R530; no] The colophon is being written. -/
  dumping : Bool
  /-- [1; R42; no] A fault of class 0 to 2 has been detected, and the rewind or the takeover that answers it has not ended. -/
  detected : Bool
  deriving DecidableEq, Repr

/-- The resilience engine after PWR. -/
def Rse.reset : Rse where
  log := []
  nextSeq := 0
  recent := []
  odfReplay := 0
  ctrs := []
  window := 0
  winCommit := 0
  fPrime := 0
  winFault := none
  replays := 0
  restoring := false
  late := false
  repairs := []
  limits := RecLimits.reset
  limitsPend := none
  mirror := MirrorRec.reset
  mirrorPend := none
  ownerU := []
  ownerC := []
  ownerHist := []
  mirroredU := 0
  mirroredC := 0
  manifests := []
  takeover := none
  ordered := none
  takeoverRec := none
  scrub := none
  inj := []
  retired := []
  retirePend := []
  banks := []
  rows := []
  colo := Colophon.reset
  dump := none
  slots := []
  fatal := none
  dumping := false
  detected := false

/-- The governor configuration of R86. -/
structure GovCfg where
  spanE4M3 : Nat
  spanE5M2 : Nat
  ufShift : Nat
  lowCut : Nat
  growthLimit : Nat
  holdSteps : Nat
  margin : Int
  fxHeadroom : Nat
  fxStepUp : Nat
  initialFormat : Nat
  enable : Bool
  deriving DecidableEq, Repr

/-- The defaults of R86. -/
def GovCfg.reset : GovCfg := ⟨10, 26, 16, 10, 4, 8, 1, 1, 8, 1, true⟩

/-- Counts of one tensor in one step (R80). -/
structure Stats where
  nonzero : Nat
  zero : Nat
  nonfinite : Nat
  mx6uf : Nat
  mx8uf : Nat
  sat : Nat
  hist : SMap Nat
  amax : BitVec 32
  deriving DecidableEq, Repr

/-- No value counted. -/
def Stats.reset : Stats := ⟨0, 0, 0, 0, 0, 0, [], 0⟩

/-- A governor decision (R83, R84). -/
structure Decision where
  format : Nat
  texp : Int
  reason : Nat
  hold : Nat
  deriving DecidableEq, Repr

/-- A pin, or with `pin` none a release, of a tensor that applies from the decisions for a step on (R87). -/
structure PinReq where
  step : Nat
  tensor : Nat
  pin : Option (Nat × Int)
  deriving DecidableEq, Repr

/-- A committed statistics record (R80). -/
structure TensorRec where
  step : Nat
  stats : Stats
  /-- AMAX[0..15]. -/
  amax : SMap (BitVec 32)
  dec : Decision
  deriving DecidableEq, Repr

/-- Numerics. -/
structure Numerics where
  /-- [64; R67; 0 (3)] The stochastic-rounding seed. -/
  seed : BitVec 64
  /-- [64; R68; none] A pending seed and the step in which it applies. -/
  seedPend : Option (BitVec 64 × Nat)
  /-- [64 B; R86; defaults] The governor configuration in force. -/
  gov : GovCfg
  /-- [64 B; R86; none] A pending configuration and the step in which it applies. -/
  govPend : Option (GovCfg × Nat)
  /-- [4,096 × 768 B; R80; none] The committed records. -/
  tensors : SMap TensorRec
  /-- [per tensor; R79; none] The statistics that this device gathers in the running step. -/
  gathered : SMap Stats
  /-- [per tensor; R79; none] The statistics combined over the herd in the running step. -/
  combined : SMap Stats
  /-- [per tensor; R82; none] The decisions for the next step, in the alternate bank. -/
  decided : SMap Decision
  /-- [1; R255; no] The decisions of the running step have been written. -/
  govDone : Bool
  /-- [per tensor; R84; none] Pinned formats with T, as they were for the decisions of the running step. -/
  pins : SMap (Nat × Int)
  /-- [per tensor; R87, R257; none] Pins and releases that apply from a later step, in their order. -/
  pinPend : List PinReq
  /-- [5 × 48; R88; 0] The numerics counters. -/
  ctrs : Ctrs
  /-- [5 × 48; R261; 0] The weight-gradient counters. -/
  wgbCtrs : Ctrs
  deriving DecidableEq, Repr

/-- The pin of a tensor in the decisions for step k: the last pin or release that applies from k or before, else the pin in
force (R84, R87). -/
def Numerics.pinAt (m : Numerics) (k t : Nat) : Option (Nat × Int) :=
  match (m.pinPend.filter fun p => p.tensor == t && decide (p.step ≤ k)).getLast? with
  | some p => p.pin
  | none => SMap.lookup m.pins t

/-- Numerics after PWR. -/
def Numerics.reset : Numerics where
  seed := 0
  seedPend := none
  gov := GovCfg.reset
  govPend := none
  tensors := []
  gathered := []
  combined := []
  decided := []
  govDone := false
  pins := []
  pinPend := []
  ctrs := []
  wgbCtrs := []

end Sys2Proof.Machine
end

