-- ==== Sys2Proof/Machine/StateHerd.lean ====
section
/-! DEFINITION. The state of the Tawa Links, of the Spine unit, of the collective engine and of the ingest
engine. -/

namespace Sys2Proof.Machine

/-- A HELLO message's fields (R396). -/
structure Hello where
  flags : Nat
  family : Nat
  herdId : Nat
  position : Nat
  role : Nat
  link : Nat
  generation : Nat
  deviceId : Nat
  turnaround : Nat
  deriving DecidableEq, Repr

/-- A Tawa Link. The state codes are those of R407. -/
structure Link where
  /-- [4; R407; 0] The state. -/
  st : Nat
  /-- [1-7; R395; 0] The training step. -/
  step : Nat
  /-- [1; R375, R408; no] Lane order is reversed. -/
  reversed : Bool
  /-- [8; R375, R408; 0] Lanes with inverted polarity. -/
  polarity : BitVec 8
  /-- [32 B; R396, R408; none] The partner's HELLO. -/
  hello : Option Hello
  /-- [16 exchanges; R392; none] Echo exchanges so far and their shortest round trip in ps. -/
  echoes : Nat
  minTrip : Nat
  /-- [11; R392, R408; 0] One-way latency in ns. -/
  latency : Nat
  /-- [2; R392; 0] Length class. -/
  cls : Nat
  /-- [3; R399, R408; 0] Last refusal reason. -/
  refusal : Nat
  /-- [1; R407; no] The link was refused since its counters were cleared. -/
  refused : Bool
  /-- [1; R395; no] A partner signal is present. -/
  signal : Bool
  /-- [1; R391; no] The link has joined its position's set. -/
  joined : Bool
  /-- [12; R386; 0] The next SEQ to send. -/
  txSeq : Nat
  /-- [2,048 flits; R386; empty] Unacknowledged data flits: SEQ, FIRST, payload. -/
  replay : List (Nat × Nat × List Byte)
  /-- [12; R387, R389; none] The last ACK received, and how many NAKs in a row named it. -/
  ackSeen : Option Nat
  naks : Nat
  /-- [12; R387; 0] The next SEQ expected. -/
  rxNext : Nat
  /-- [1; R387; no] A discard episode is in progress. -/
  episode : Bool
  /-- [4; R389; 0] Consecutive flits that failed to decode. -/
  badRun : Nat
  /-- [slots; R381; empty] Slots of a packet that has not arrived whole. -/
  rxSlots : List Byte
  /-- [4 counts; R384; 0] Slots sent per VC, slots freed as the partner's CREDITS add up to, slots this receiver
  has freed, and the VC whose total the next flit carries; CREDITS carries a total modulo 4,096. -/
  sentSlots : SMap Nat
  freedSeen : SMap Nat
  freed : SMap Nat
  cvc : Nat
  /-- [4 queues; R385; empty] Packets that wait, per VC. -/
  queues : SMap (List Packet)
  /-- [2; R385; 1] The VC that round-robin looks at first. -/
  rr : Nat
  /-- [24 slots; R381; empty] Slots of the data flit being filled, and its FIRST. -/
  txSlots : List Byte
  txFirst : Nat
  /-- [48; R400; none] Tick at which the link left Active. -/
  outSince : Option Nat
  /-- [mode; R408; none] A link test in progress. -/
  test : Option Nat
  /-- [8 × 64 twice; R408; 0] Bits compared and bit errors per lane. -/
  testBits : List Nat
  testErrs : List Nat
  /-- [1; R525; no] An injection holds the link in electrical idle. -/
  dropped : Bool
  /-- [11 × 48; R409; 0] The link's counters. -/
  ctrs : Ctrs
  deriving DecidableEq, Repr

/-- A link that is not released. -/
def Link.reset : Link where
  st := 0
  step := 0
  reversed := false
  polarity := 0
  hello := none
  echoes := 0
  minTrip := 0
  latency := 0
  cls := 0
  refusal := 0
  refused := false
  signal := false
  joined := false
  txSeq := 0
  replay := []
  ackSeen := none
  naks := 0
  rxNext := 0
  episode := false
  badRun := 0
  rxSlots := []
  sentSlots := []
  freedSeen := []
  freed := []
  cvc := 0
  queues := []
  rr := 1
  txSlots := []
  txFirst := 31
  outSince := none
  test := none
  testBits := []
  testErrs := []
  dropped := false
  ctrs := []

/-- A position table entry (R397). -/
structure PosEntry where
  peerPos : Nat
  peerLink : Nat
  enable : Bool
  standby : Bool
  standsFor : Nat
  maxClass : Nat
  deriving DecidableEq, Repr

/-- A position table (R397), with the image it was loaded from. -/
structure PosTable where
  image : List Byte
  herdId : Nat
  myPos : Nat
  role : Nat
  size : Nat
  gen : Nat
  stagPos : Nat
  fawnFor : List Nat
  entries : List PosEntry
  deriving DecidableEq, Repr

/-- A link event (R407). -/
structure LinkEvent where
  tick : Nat
  link : Nat
  event : Nat
  status : Nat
  pos : Nat
  reason : Nat
  st : Nat
  deriving DecidableEq, Repr

/-- The Tawa Links. -/
structure Links where
  /-- [32; R372; not released] TL0-TL31. -/
  links : SMap Link
  /-- [32; R408; none] Links that LINK_ENABLE has disabled. -/
  off : NSet
  /-- [576 B; R397; none] The position table in force. -/
  table : Option PosTable
  /-- [576 B; R398; none] A table that waits for the next commit tick. -/
  tablePend : Option PosTable
  /-- [positions; R402; none] Rebinds applied: lost position, Fawn's position. -/
  rebinds : List (Nat × Nat)
  /-- [positions; R403; none] Rebinds whose Fawn still stands under its own position too. -/
  standIns : List (Nat × Nat)
  /-- [ms; R400; 50] PEER_LOST_BOUND. -/
  bound : Nat
  /-- [1; R401; no] The device has isolated itself. -/
  isolated : Bool
  /-- [positions; R400; none] Positions reported lost. -/
  lostPos : NSet
  /-- [64 × 32 B; R407; empty] The link event log, newest first. -/
  events : List LinkEvent
  deriving DecidableEq, Repr

/-- No link released and no table loaded. -/
def Links.reset : Links := ⟨[], [], none, none, [], [], 50, false, [], []⟩

/-- A STATUS report (R419). -/
structure StatusRec where
  applied : Nat
  clean : Nat
  readyTick : Nat
  lastPos : Nat
  count : Nat
  epochPending : Nat
  pathNs : Nat
  ready : Bool
  drained : Bool
  deriving DecidableEq, Repr

/-- A collective entry (R433). -/
structure Entry where
  op : Nat
  red : Nat
  fmt : Nat
  gov : Bool
  outfmt : Nat
  group : Nat
  sect : Nat
  commitNeed : Bool
  twin : Bool
  radix : Nat
  tensor : Nat
  texp : Int
  doneEc : Nat
  start : Nat
  count : Nat
  chunkElems : Nat
  root : Nat
  doneChan : Nat
  src : Nat
  dst : Nat
  ordinal : Nat
  deriving DecidableEq, Repr

/-- A stream binding (R437). -/
structure Bind where
  stream : Nat
  entry : Nat
  offset : Nat
  elems : Nat
  deriving DecidableEq, Repr

/-- A schedule image (R422). -/
structure Sched where
  commitOffset : Nat
  epoch : Nat
  entries : List Entry
  binds : List Bind
  deriving DecidableEq, Repr

/-- A group (R432). -/
structure Group where
  kind : Nat
  epoch : Nat
  pos : List Nat
  deriving DecidableEq, Repr

/-- The Spine unit and the steps of the schedule. -/
structure Spine where
  /-- [48; R410; 0 (3)] The tick count. -/
  tick : Nat
  /-- [0-999; R410; 0 (3)] The phase in ns. -/
  phase : Nat
  /-- [ns; R413; 0] The offset that is still to be slewed. -/
  slew : Int
  /-- [1; R416; no] This device is the acting Stag. -/
  stag : Bool
  /-- [32; R417; 0] STAG_GEN. -/
  gen : Nat
  /-- [2; R417; 0] The candidate index that is followed. -/
  cand : Nat
  /-- [10; R412; none] The Spine parent. -/
  parent : Option Nat
  /-- [4; R412; 0] HOPS of the parent's SYNC. -/
  hops : Nat
  /-- [4 per neighbour; R412; none] HOPS of the latest SYNC of each neighbour position. -/
  heard : SMap Nat
  /-- [1; R418; no] The device has taken the Stag's role and has not yet re-sent the highest commit. -/
  newStag : Bool
  /-- [ns; R413; 0] The offset at the last SYNC. -/
  offset : Int
  /-- [48; R416; 0] Tick of the last SYNC of the herd. -/
  lastSync : Nat
  /-- [3 × 16; R416, R460; none] Backup candidates 1 to 3. -/
  cands : List Nat
  /-- [17; R430, R460; 4,096] REWIND_TICKS. -/
  rewindTicks : Nat
  /-- [record; R460; none] A herd configuration and the step in which it applies. -/
  confPend : Option (List Nat × Nat × Nat)
  /-- [per position; R420; none] The latest STATUS of each child. -/
  children : SMap StatusRec
  /-- [ticks; R426; 4] SPINE_ROUND. -/
  spineRound : Nat
  /-- [orders; R421; none] Orders seen: STAG_GEN, SKIND, key, second key. -/
  seen : List (Nat × Nat × Nat × Nat)
  /-- [1; R423; no] A schedule runs. -/
  running : Bool
  /-- [image; R422; none] The schedule in force. -/
  sched : Option Sched
  /-- [image; R460; none] A schedule and the step in which it applies. -/
  schedPend : Option (Sched × Nat)
  /-- [64; R423; 0] The running step n. -/
  step : Nat
  /-- [48; R423; 0] Fn. -/
  fTick : Nat
  /-- [1; R423; no] Step n's first tick has come. -/
  started : Bool
  /-- [64; R427; none] The last committed step, its C, and its loss. -/
  committed : Option Nat
  commitTick : Nat
  loss : BitVec 32
  lossNondet : Bool
  /-- [-; R34; 0] The model's own (4): what the commit drew, from which the loss of the step that follows it comes. -/
  lossDraw : Nat
  /-- [48; R420; none] The tick at which the member became ready. -/
  readyTick : Option Nat
  /-- [48 each; R420; none] Stamps of own faults that have not been answered. -/
  stamps : List Nat
  /-- [records; R430; none] Faults that the Stag holds. -/
  faults : List FaultRec
  /-- [F′; R430; 0] The F′ of the last REWIND, before which stamps are answered. -/
  answered : Nat
  /-- [first step, earliest tick, since; R460; none] A SPINE_START that waits for every position. -/
  starting : Option (Nat × Nat × Nat)
  /-- [64; R460; none] The last step that commits after SPINE_STOP. -/
  stopAfter : Option Nat
  /-- [1; R459; no] DEGRADED. -/
  degraded : Bool
  /-- [count, ticks per position; R429, R461; 0] The lateness tables. -/
  lateCommit : SMap (Nat × Nat)
  lateInput : SMap (Nat × Nat)
  deriving DecidableEq, Repr

/-- The Spine unit after PWR. -/
def Spine.reset : Spine where
  tick := 0
  phase := 0
  slew := 0
  stag := false
  gen := 0
  cand := 0
  parent := none
  hops := 0
  heard := []
  newStag := false
  offset := 0
  lastSync := 0
  cands := []
  rewindTicks := 4096
  confPend := none
  children := []
  spineRound := 4
  seen := []
  running := false
  sched := none
  schedPend := none
  step := 0
  fTick := 0
  started := false
  committed := none
  commitTick := 0
  loss := 0
  lossNondet := false
  lossDraw := 0
  readyTick := none
  stamps := []
  faults := []
  answered := 0
  starting := none
  stopAfter := none
  degraded := false
  lateCommit := []
  lateInput := []

/-- A triple of a seal summary (R449): digest, count, lowest position. -/
structure Triple where
  digest : BitVec 32
  count : Nat
  pos : Nat
  deriving DecidableEq, Repr

/-- One chunk of an entry at this member (R440-R446). Elements are numbered from the chunk's first; their
values are exact, as decoded. -/
structure Chunk where
  /-- The section has admitted the chunk. -/
  admitted : Bool
  /-- The parent's credit is held. -/
  credit : Bool
  /-- Own contributions of streams, keyed by tile × 2^16 + index of the binding. -/
  own : SMap (SMap Num)
  /-- Children's inputs, per relative rank. -/
  kids : SMap (SMap Num)
  /-- Elements that have come down. -/
  down : SMap Num
  /-- STATS: the children's records, and the combined record. -/
  statKids : SMap Stats
  statRes : Option Stats
  /-- Tick of the last child's input, and its position (R461). -/
  lastIn : Option (Nat × Nat)
  /-- Tick of the last element that a stream of the member delivered. -/
  ownAt : Option Nat
  /-- The input that came last has been counted. -/
  noted : Bool
  /-- The chunk's value has been formed, and has gone to the parent or the children. -/
  valued : Bool
  /-- The result that this member writes to DST. -/
  result : List Num
  /-- The member's part is complete but for SEAL. -/
  done : Bool
  /-- Complete on this member. -/
  closed : Bool
  deriving DecidableEq, Repr

/-- A chunk of which nothing has happened. -/
def Chunk.reset : Chunk := ⟨false, false, [], [], [], [], none, none, none, false, false, [], false, false⟩

/-- An entry in progress (R449-R451). -/
structure Run where
  started : Bool
  /-- The step in which the entry was started, for gather tails (R452). -/
  step : Nat
  /-- Summaries received from children, per relative rank; OVERFLOW. -/
  kids : SMap (List Triple)
  overflow : Bool
  summed : Bool
  /-- SEAL has been received. -/
  sealed : Bool
  aborted : Bool
  chunks : SMap Chunk
  /-- Chunks complete in order so far. -/
  complete : Nat
  /-- A packet's digest differed: nothing of the entry is combined any more (R450). -/
  stopped : Bool
  /-- The state packets of R512 have been sent, and have been received. -/
  stateSent : Bool
  stateGot : Bool
  /-- The wire format and the tensor exponent in force for the run (R253). -/
  fmt : Nat
  texp : Int
  deriving DecidableEq, Repr

/-- An entry that has not started. -/
def Run.reset : Run := ⟨false, 0, [], false, false, false, false, [], 0, false, false, false, 0, 0⟩

/-- The last abort (R451). -/
structure AbortRec where
  group : Nat
  ordinal : Nat
  seq : Nat
  pos : Nat
  triples : List Triple
  deriving DecidableEq, Repr

/-- A pending epoch (R454). -/
structure EpochPend where
  epoch : Nat
  sched : Sched
  groups : SMap Group
  deriving DecidableEq, Repr

/-- The collective engine. -/
structure Cle where
  /-- [4,096; R432; none] Groups of the current epoch. -/
  groups : SMap Group
  /-- [32; R454; 0] The layout epoch. -/
  epoch : Nat
  /-- [image, groups; R454; none] A pending epoch. -/
  pend : Option EpochPend
  /-- [per entry; R449; none] Entries in progress, keyed by index. -/
  runs : SMap Run
  /-- [per tile and stream; R438; 0] Elements that each tile's stream has delivered in the step. -/
  delivered : SMap Nat
  /-- [record; R451; none] The last abort. -/
  abort : Option AbortRec
  /-- [packets; R456; none] Packets of a later epoch, held at their link. -/
  heldPkts : List (Nat × Packet)
  /-- [10 × 48; R462; 0] The collective and Spine counters. -/
  ctrs : Ctrs
  deriving DecidableEq, Repr

/-- The collective engine after PWR. -/
def Cle.reset : Cle := ⟨[], 0, none, [], [], none, [], []⟩

/-- The ingest setup record (R463). -/
structure IgeSetup where
  part : Nat
  boundary : Bool
  carry : Bool
  nbuf : Nat
  tokens : Nat
  rank : Nat
  ranks : Nat
  mbPerStep : Nat
  seed : BitVec 64
  sampleTable : Nat
  n : Nat
  corpus : Nat
  bufBase : Nat
  bmapBase : Nat
  releaseVa : Nat
  workspace : Nat
  workspaceSize : Nat
  bos : Nat
  eos : Nat
  readyEc : Nat
  channel : Nat
  deriving DecidableEq, Repr

/-- The ingest limits (R480). -/
structure IgeLimits where
  cap : Nat
  ratio : Nat
  replace : Nat
  budget : Nat
  windowLog : Nat
  deriving DecidableEq, Repr

/-- The defaults of R480. -/
def IgeLimits.reset : IgeLimits := ⟨64 * 2 ^ 20, 1024, 64, 16777216, 23⟩

/-- The ingest state record (R484); `carried` is none for all ones. -/
structure IgeState where
  epoch : Nat
  pos : Nat
  carried : Option Nat
  offset : Nat
  j : Nat
  limitsGen : Nat
  deriving DecidableEq, Repr

/-- The record at the start of epoch 0. -/
def IgeState.reset : IgeState := ⟨0, 0, none, 0, 0, 0⟩

/-- A skip-log record (R479). -/
structure SkipRec where
  tick : Nat
  epoch : Nat
  pos : Nat
  index : Nat
  reason : Nat
  units : Nat
  deriving DecidableEq, Repr

/-- The ingest engine. -/
structure Ige where
  /-- [128 B; R463; none] The setup. -/
  setup : Option IgeSetup
  /-- [32 B; R480; defaults] Limits in force, and their generation. -/
  limits : IgeLimits
  limitsGen : Nat
  /-- [32 B; R480; none] Limits and the step in which they apply. -/
  limitsPend : Option (IgeLimits × Nat)
  /-- [entries; R472; none] The dictionary, in entry order. -/
  dict : List (List Byte)
  /-- [-; R490; 0] The dictionary generation. -/
  dictGen : Nat
  /-- [1; R490; idle] The engine runs. -/
  running : Bool
  /-- [64; R483; 0] START_STEP. -/
  startStep : Nat
  /-- [48 B; R484; 0] The current record. -/
  cur : IgeState
  /-- [48 B; R484; 0] The retained record. -/
  retained : IgeState
  /-- [48 B; R484; 0] The record taken at the start of each step's first micro-batch, by step. -/
  marks : SMap IgeState
  /-- [1; R482; no] Micro-batch j has started. -/
  open_ : Bool
  /-- [24; R481; 0] Tokens written to micro-batch j. -/
  fill : Nat
  /-- [words; R481; none] Tokens of an accepted sample that wait for room. -/
  tail : List (BitVec 32)
  /-- [index, sample; R470; none] A sample being decoded: its position, its index and its claimed size. -/
  sample : Option (Nat × Nat × Nat)
  /-- [micro-batches; R482; none] Full micro-batches whose READY has not been signalled. -/
  full : NSet
  /-- [12; R478; 0] Consecutive positions skipped or rejected for this buffer. -/
  skips : Nat
  /-- [VA, size; R486; none] The cache region. -/
  cache : Option (Nat × Nat)
  /-- [bytes; R487; 0] Arena bytes used. -/
  arena : Nat
  /-- [cause, page; R332, R467; none] What a read of the engine waits for. -/
  wait : Option (Nat × Nat)
  /-- [1; R482; no] The engine waits for the release word. -/
  waitsRelease : Bool
  /-- [1; R464; no] Software has written to the workspace of the setup: the tokens are unspecified. -/
  touched : Bool
  /-- [64 × 32 B; R479; empty] The skip log, newest first. -/
  skipLog : List SkipRec
  /-- [16; R490; 0] The last error. -/
  lastErr : Nat
  /-- [11 × 48; R491; 0] The ingest counters. -/
  ctrs : Ctrs
  deriving DecidableEq, Repr

/-- The ingest engine after PWR. -/
def Ige.reset : Ige where
  setup := none
  limits := IgeLimits.reset
  limitsGen := 0
  limitsPend := none
  dict := []
  dictGen := 0
  running := false
  startStep := 0
  cur := IgeState.reset
  retained := IgeState.reset
  marks := []
  open_ := false
  fill := 0
  tail := []
  sample := none
  full := []
  skips := 0
  cache := none
  arena := 0
  wait := none
  waitsRelease := false
  touched := false
  skipLog := []
  lastErr := 0
  ctrs := []

end Sys2Proof.Machine
end

