-- ==== Sys2Proof/Machine/StateHif.lean ====
section
/-! DEFINITION. The state of the host interface and of the reset and power pins. Each field's docstring
opens with its width, the rules that name it and its reset value; a number in parentheses is the
assumption log's entry. -/

namespace Sys2Proof.Machine

/-- One mailbox (R547). -/
structure Mailbox where
  /-- [32; R547; 0] CODE, SEQ, IRQ and OWN. -/
  word0 : BitVec 32
  /-- [32; R547; 0] STATUS and SEQ_ECHO. -/
  word4 : BitVec 32
  /-- [15 × 64; R547; 0] ARG0-ARG14. -/
  args : SMap (BitVec 64)
  /-- [15 × 64; R547; 0] RES0-RES14. -/
  res : SMap (BitVec 64)
  /-- [48; R547; 0] ACCEPT_TICK. -/
  acceptTick : Nat
  deriving DecidableEq, Repr

/-- A mailbox after reset. -/
def Mailbox.reset : Mailbox := ⟨0, 0, [], [], 0⟩

/-- A completion record (R558). -/
structure CplRec where
  chan : Nat
  count : Nat
  nondet : Bool
  step : Nat
  tick : Nat
  deriving DecidableEq, Repr

/-- The host interface. -/
structure Hif where
  /-- [16 × 256 B; R547; 0] The mailboxes that differ from their reset value. -/
  mbs : SMap Mailbox
  /-- [15; R561; 0] HIF.INT_CAUSE. -/
  intCause : BitVec 15
  /-- [15; R561; 0] HIF.INT_MASK. -/
  intMask : BitVec 15
  /-- [16; R561; 0] HIF.MB_DONE. -/
  mbDone : BitVec 16
  /-- [32; R561; 0] HIF.CPL_PRODUCED. -/
  cplProduced : BitVec 32
  /-- [32; R561; 0] HIF.CPL_CONSUMED. -/
  cplConsumed : BitVec 32
  /-- [15 × 6; R562, R563; vector 16 + cause] Causes routed away from their default vector. -/
  route : SMap Nat
  /-- [host address, count; R558; none] The completion ring. -/
  ring : Option (Nat × Nat)
  /-- [records; R560; none] Completions held while the ring is full. -/
  held : List CplRec
  /-- [41; R540; 64 GiB] BAR2's size in bytes. -/
  bar2Size : Nat
  /-- [40; R542; 0] W, the BAR2 window base. -/
  windowBase : Nat
  /-- [0-4; R543, R567; 4, none] The partition that BAR2 traffic is charged to. -/
  windowPart : Nat
  /-- [64 × 128; R540, R564; 0 (17)] The MSI-X table, as 8-byte words. -/
  msixTable : SMap (BitVec 64)
  /-- [64; R540, R564; 0] The MSI-X pending bits. -/
  msixPba : BitVec 64
  /-- [32-bit words; R536, R636; Config (10)] Configuration registers that differ from their reset value. -/
  cfg : SMap (BitVec 32)
  /-- [2 × 4; R546; 0] PCIE_RATE. -/
  pcieRate : Nat
  /-- [4; R546; 0] PCIE_WIDTH. -/
  pcieWidth : Nat
  /-- [64 KiB; R565, R593; 0 but for caps, target and FL] The telemetry mirror, as 8-byte words keyed by offset ÷ 8. -/
  mirror : SMap (BitVec 64)
  /-- [6 × 48; R568; 0] The HIF counters. -/
  ctrs : Ctrs
  deriving DecidableEq, Repr

/-- The host interface after PWR. -/
def Hif.reset : Hif where
  mbs := []
  intCause := 0
  intMask := 0
  mbDone := 0
  cplProduced := 0
  cplConsumed := 0
  route := []
  ring := none
  held := []
  bar2Size := 2 ^ 36
  windowBase := 0
  windowPart := 4
  msixTable := []
  msixPba := 0
  cfg := []
  pcieRate := 0
  pcieWidth := 0
  mirror := [(8, 0xAF0000AF0), (14, 0x56)]
  ctrs := []

/-- The kinds of reset of R619, numbered as RESET_CAUSE numbers them; `wake` is the wake from S3. -/
inductive ResetKind where
  | pwr
  | perst
  | hot
  | flr
  | dev
  | wake
  deriving DecidableEq, Repr

/-- RESET_CAUSE's code (R546). -/
def ResetKind.code : ResetKind → Nat
  | .pwr => 1
  | .perst => 2
  | .hot => 3
  | .flr => 4
  | .dev => 5
  | .wake => 6

/-- Pins, resets and boot. -/
structure Sys where
  /-- [1; R650, R620; high (6)] PWR_GOOD. -/
  pwrGood : Bool
  /-- [1; R650, R620; released (6)] PERST_N. -/
  perstN : Bool
  /-- [1; R650, R645; high (6)] MAIN_GOOD. -/
  mainGood : Bool
  /-- [1; R646; high] MAIN_EN. -/
  mainEn : Bool
  /-- [1; R656; released] THERMTRIP_N is low. -/
  thermtrip : Bool
  /-- [1; R655; 0 (6)] MGMT_MODE as sampled: true for I3C. -/
  mgmtMode : Bool
  /-- [2; R655; 0 (6)] MGMT_ADDR as sampled. -/
  mgmtAddr : BitVec 2
  /-- [1; R654; high] XSPI_RESET_N. -/
  xspiResetN : Bool
  /-- [1; R654; driven] The other flash outputs are driven, not high-impedance. -/
  xspiDriven : Bool
  /-- [7; R655; none] The dynamic address that the I3C controller assigned. -/
  dynAddr : Option (BitVec 7)
  /-- [0-8; R605, R619; 1] The boot step reached; 0 while held in reset, 8 once firmware is ready. -/
  bootStep : Nat
  /-- [1; R546; 0] READY. -/
  ready : Bool
  /-- [kind; R623, R624; PWR] The reset whose sequence runs; none once it has completed. -/
  running : Option ResetKind
  /-- [4; R546, R624; 1] RESET_CAUSE. -/
  cause : Nat
  /-- [1; R567, R608; none] A DEV that begins 1 ms after the command that asked for it. -/
  devPending : Bool
  /-- [48; R646; 0 (3)] PCM millisecond at which MAIN_GOOD last fell. -/
  mainGoodFell : Nat
  /-- [48; R646; 0 (3)] PCM millisecond at which MAIN_EN last rose. -/
  mainEnRose : Nat
  /-- [1; R646; no] A wake from S3 waits for MAIN_GOOD. -/
  waking : Bool
  /-- [4; R659; all good] Dies whose TL_REFCLK failed its check. -/
  refBad : NSet
  deriving DecidableEq, Repr

/-- Pins, resets and boot right after PWR, with the boot ROM at boot step 1. -/
def Sys.reset : Sys where
  pwrGood := true
  perstN := true
  mainGood := true
  mainEn := true
  thermtrip := false
  mgmtMode := false
  mgmtAddr := 0
  xspiResetN := true
  xspiDriven := true
  dynAddr := none
  bootStep := 1
  ready := false
  running := some .pwr
  cause := 1
  devPending := false
  mainGoodFell := 0
  mainEnRose := 0
  waking := false
  refBad := []

end Sys2Proof.Machine
end

