-- ==== Sys2Proof/Machine/StateMem.lean ====
section
/-! DEFINITION. The state of the HBM memory system: the stacks' bytes and marks, the shared cache, the
fixed-point regions, the regulators, the hot-bank records and the traffic generators. -/

namespace Sys2Proof.Machine

/-- Damage stored in a sector by an injection slot with STORE (R525). -/
structure Damage where
  data : BitVec 64
  check : BitVec 16
  deriving DecidableEq, Repr

/-- A resident line of the shared cache (R281, R282). The line's bytes are those of `Hbm.bytes`, since
there is one copy of each line; the entry says that the slice holds it. -/
structure ShcLine where
  /-- [1; R281; none] The slice's copy differs from the stack's. -/
  dirty : Bool
  /-- [0-4; R302; none] The partition whose channel allocated it; 4 for none. -/
  part : Nat
  /-- [-; R281; none] When the line was last used. -/
  stamp : Nat
  /-- [64; R525; none] Injected damage to bytes 0-7 of the stored line. -/
  mask : BitVec 64
  deriving DecidableEq, Repr

/-- One block of a fixed-point region (R73, R81, R85, R663). -/
structure FxBlock where
  /-- [-126 to 127; R73; 0] E of the running step. -/
  e : Int
  /-- [-126 to 127; R85; none] The governor's E for the next step, in the alternate bank. -/
  eNext : Option Int
  /-- [-126 to 127 per step; R663; none] E values that the decisions for a step write in place of R85's. -/
  pend : SMap Int
  /-- [-126 to 127; R663; 0] The default D. -/
  d : Int
  /-- [32; R81; +0] The uncommitted amax. -/
  amaxU : BitVec 32
  /-- [1; R81; 0] The uncommitted FXSAT flag. -/
  satU : Bool
  /-- [32; R81; +0] The committed amax. -/
  amaxC : BitVec 32
  /-- [1; R81; 0] The committed FXSAT flag. -/
  satC : Bool
  /-- [16 × 32; R81; +0] The amax history, entry s mod 16. -/
  hist : SMap (BitVec 32)
  deriving DecidableEq, Repr

/-- A block as FX_REGION_DEFINE leaves it. -/
def FxBlock.reset : FxBlock := ⟨0, none, [], 0, 0, false, 0, false, []⟩

/-- A fixed-point region (R288). -/
structure FxRegion where
  part : Nat
  base : Nat
  /-- The granule number of each block's pinned frame. -/
  frames : List Nat
  blocks : SMap FxBlock
  deriving DecidableEq, Repr

/-- A regulator record (R294). -/
structure RegRec where
  floor : Nat
  ceil : Nat
  burst : Nat
  borrow : Bool
  deriving DecidableEq, Repr

/-- The default record: every partition unregulated. -/
def RegRec.reset : RegRec := ⟨0, 0, 64, false⟩

/-- What a request asks of its controller. -/
inductive TicketKind where
  /-- A read, or a legacy atomic operation, which returns the old word. -/
  | read
  /-- A write or a memory-side operation. -/
  | write
  /-- The end of a COPY that writes. -/
  | copyOut
  deriving DecidableEq, Repr

/-- A tile's line request on its way to a controller (R271), waiting at it (R297), or in its bank set's queue (R270). -/
structure Ticket where
  tile : Nat
  req : Nat
  cost : Nat
  bank : Nat
  part : Nat
  kind : TicketKind
  /-- The request may be granted; a COPY's write may once its read has come. -/
  ready : Bool
  deriving DecidableEq, Repr

/-- A hot-bank record (R272). -/
structure HotRec where
  bank : Nat
  start : Nat
  peak : Nat
  part : Nat
  deriving DecidableEq, Repr

/-- A generator's result (R301). -/
structure TgcRes where
  done : Nat
  bad : Nat
  bits : Nat
  row : Nat
  bank : Nat
  col : Nat
  pc : Nat
  state : Nat
  diff : List Byte
  deriving DecidableEq, Repr

/-- A generator that has never run. -/
def TgcRes.reset : TgcRes := ⟨0, 0, 0, 0, 0, 0, 0, 0, List.replicate 32 0⟩

/-- The HBM memory system. -/
structure Hbm where
  /-- [1; R264; not trained (3)] Firmware has released device memory. -/
  trained : Bool
  /-- [3; R265, R546; 0] MEM_RATE. -/
  rate : Nat
  /-- [20 × 3; R302; 7 (3)] The maximum rate code that each stack declares. -/
  declared : List Nat
  /-- [20; R264, R546; 0] FAILED_STACKS. -/
  failed : BitVec 20
  /-- [0x0-0xEF_FFFF_FFFF; R267; 0] The bytes of device memory; a byte of an unwritten share is 0 (15). -/
  bytes : Mem
  /-- [20 × 15,728,640; R276, R280; 0] Written shares, as granule × 20 + stack. -/
  written : NSet
  /-- [one per share; R276, R525; none] Bitmap copies with a failed parity: 1, 2 or 3 for copy 0, 1, both. -/
  bitmapBad : SMap Nat
  /-- [bitmap; R280; none] The bitmap saved in the firmware reserve. -/
  saved : Option NSet
  /-- [1; R266; off] The stacks are in self-refresh. -/
  selfRefresh : Bool
  /-- [20; R266; none] Stacks that refresh at double rate. -/
  refresh2 : NSet
  /-- [1 per sector; R273, R274; 0] Sectors whose poison marker is set. -/
  poison : NSet
  /-- [80 per sector; R525; none] Damage stored by injection. -/
  damage : SMap Damage
  /-- [4 × 12,288 × 16 lines; R281; empty] Resident lines, keyed by PA ÷ 256. -/
  shc : SMap ShcLine
  /-- [-; R281; 0] The use clock of the replacement order. -/
  shcClock : Nat
  /-- [FXR0-FXR15; R288; none] The fixed-point regions. -/
  fx : SMap FxRegion
  /-- [4 × 16 B; R294; default] Regulator records. -/
  regs : SMap RegRec
  /-- [20 × 4; R296; 0 (3)] Floor buckets, keyed 4 × controller + partition. -/
  floorB : SMap Nat
  /-- [20 × 4; R296; 0 (3)] Ceiling buckets. -/
  ceilB : SMap Nat
  /-- [20 × 4 queues; R297; empty] Requests waiting at the controllers, keyed 4 × controller + partition. -/
  ingress : SMap (List Ticket)
  /-- [2 per controller; R297; 0 (3)] The round-robin positions of steps 1 and 2, keyed 2 × controller + step. -/
  rr : SMap Nat
  /-- [10,240 queues; R270; empty] The bank sets' queues, oldest first. -/
  bankQ : SMap (List Ticket)
  /-- [20 × 7; R297; none] Grant slots for which traffic of no partition has waited at a controller; 64 once a slot is its
  own. -/
  freeWait : SMap Nat
  /-- [10,240 queues; R271; empty] The dies' request paths: what a controller does not admit for a bank set yet. -/
  pathQ : SMap (List Ticket)
  /-- [4 × 3 × 48; R298; 0] SERVED_LINE, CEIL_WAIT, FLOOR_MISS, keyed 3 × partition + index. -/
  prg : Ctrs
  /-- [bank, tick per partition; R298; none] The most recent hot bank set of each partition. -/
  lastHot : SMap (Nat × Nat)
  /-- [bank sets; R272; none] Hot-bank episodes in progress. -/
  hot : NSet
  /-- [20 × 16 records; R272; empty] The controllers' hot-bank logs, newest first. -/
  hotLog : SMap (List HotRec)
  /-- [640 × 64 B; R299; 0] Traffic generator records. -/
  tgc : SMap (List Byte)
  /-- [640 × 64 B; R301; idle] Their results. -/
  tgcRes : SMap TgcRes
  /-- [16 × 48; R303; 0] Mask bits 0-13, then 14 SHC.PARITY_CNT and 15 SHC.ATOMIC_CNT. -/
  ctrs : Ctrs
  deriving DecidableEq, Repr

/-- The memory system after PWR. -/
def Hbm.reset : Hbm where
  trained := false
  rate := 0
  declared := List.replicate 20 7
  failed := 0
  bytes := []
  written := []
  bitmapBad := []
  saved := none
  selfRefresh := false
  refresh2 := []
  poison := []
  damage := []
  shc := []
  shcClock := 0
  fx := []
  regs := []
  floorB := []
  ceilB := []
  ingress := []
  rr := []
  bankQ := []
  freeWait := []
  pathQ := []
  prg := []
  lastHot := []
  hot := []
  hotLog := []
  tgc := []
  tgcRes := []
  ctrs := []

end Sys2Proof.Machine
end

