-- ==== Sys2Proof/Machine/StatePcm.lean ====
section
/-! DEFINITION. The state of the power, clock and thermal manager and of the security block. -/

namespace Sys2Proof.Machine

/-- Power and clock state of one tile (R570-R574, R586). Frequencies are in 25 MHz units. -/
structure TilePwr where
  /-- [7; R570; the ceiling] The host target; none for the ceiling. -/
  target : Option Nat
  /-- [7; R570, R586; none] The thermal frequency limit; none when it holds nothing down. -/
  thermal : Option Nat
  /-- [1; R586; no] The tile is held at throttle level 8 until it is below 97 °C. -/
  hot : Bool
  /-- [-; R586; 0] Milliseconds since the thermal limit last moved. -/
  hotMs : Nat
  /-- [8; R590; 0] Temperature in °C at the last sample. -/
  temp : Nat
  /-- [7; R570; 0 until the tile's PLL starts (3)] The effective frequency. -/
  freq : Nat
  /-- [7; R574; none] The frequency that a waiting change asks for. -/
  change : Option Nat
  /-- [1; R574; no] The waiting change met a droop (step 1). -/
  waited : Bool
  /-- [-; R574; 0] Droop events seen while the change waits. -/
  droops : Nat
  /-- [7; R572; none] The frequency that a running relock locks to. -/
  relock : Option Nat
  /-- [1; R573; no] The clock is stretched. -/
  stretched : Bool
  /-- [-; R574; none (3)] Always-on microsecond at which the last stretch ended. -/
  stretchEnd : Option Nat
  /-- [2; R594; 0] Last change result: 0 done, 1 deferred, 2 abandoned. -/
  result : Nat
  deriving DecidableEq, Repr

/-- A tile's power state after reset. -/
def TilePwr.reset : TilePwr := ⟨none, none, false, 0, 0, 0, none, false, 0, none, false, none, 0⟩

/-- The power, clock and thermal manager. -/
structure Pcm where
  /-- [256 tiles; R570; reset] Per-tile power state. -/
  tiles : SMap TilePwr
  /-- [8; R578, R593; 0x56] FL. -/
  fl : Nat
  /-- [4; R578; 0 (3)] The sustained throttle level. -/
  susThrottle : Nat
  /-- [4; R576; 0 (3)] The device throttle level of the peak limiter. -/
  peakThrottle : Nat
  /-- [100 × µJ; R576; empty] Modelled energy of the last 1 ms, newest first (11). -/
  samples : List Nat
  /-- [-; R576; 0] Microseconds for which W has stayed below 3,100 W. -/
  lowUs : Nat
  /-- [(µs, 16); R593; none] The 1 ms averages of the last second that no later one reaches, newest first: PEAK_W is the
  highest. -/
  peaks : List (Nat × Nat)
  /-- [(µs, 4); R593; none] The highest throttle levels of the last ms that no later one reaches, newest first. -/
  levels : List (Nat × Nat)
  /-- [12; R578, R593; 2,800] The host cap. -/
  hostCap : Nat
  /-- [12; R592, R593; 0] The management cap; 0 for none. -/
  mgmtCap : Nat
  /-- [-; R581; none] The envelope allowance of the current second. -/
  allowance : Option Nat
  /-- [48; R580; 0 (3)] ALIGN. -/
  align : Nat
  /-- [minute → J; R580; none] Declared budgets. -/
  budgets : SMap Nat
  /-- [µJ; R581; 0] E, the modelled energy of the current minute. -/
  minuteE : Nat
  /-- [32; R593; 0] The current minute index. -/
  minute : Nat
  /-- [1; R582; no] The rest of the minute is held at 1.000 GHz and throttle level 15. -/
  held : Bool
  /-- [32; R593; 0] Energy of the last completed minute in J, its budget, and its overrun (R594). -/
  lastJ : Nat
  lastBudget : Nat
  lastOver : Nat
  /-- [µJ; R578; 0] Modelled energy of the current second. -/
  secondE : Nat
  /-- [48; R593; 0] Energy since PWR in µJ. -/
  energy : Nat
  /-- [6 × µJ; R584; 0] Energy before gain of each group over the last 60 s. -/
  model : SMap Nat
  /-- [6 × 1/1,024; R584; 1,024] Calibration gains that differ from 1.00. -/
  gains : SMap Nat
  /-- [6 × 1/1,024; R584; none] Gains that apply from the next second. -/
  gainsNext : Option (SMap Nat)
  /-- [12 × J; R584; 0] Sum of READ_POUT over the last 60 s, in J, per regulator. -/
  measured : SMap Nat
  /-- [12; R585; 0] Consecutive PMBus failures per regulator. -/
  fails : SMap Nat
  /-- [6; R585; none] Groups that are no longer calibrated. -/
  stopped : NSet
  /-- [1; R594; no] A calibration runs. -/
  calibrating : Bool
  /-- [1; R593; 0] CALIBRATED. -/
  calibrated : Bool
  /-- [20 × 8; R590; 0] Stack temperatures. -/
  stackT : SMap Nat
  /-- [4 × 8; R590; 0] Die temperatures. -/
  dieT : SMap Nat
  /-- [20; R586; none] Stacks that hold every tile at throttle level 8. -/
  stackHot : NSet
  /-- [2; R588, R546; 0] Sleep state S0-S3. -/
  sstate : Nat
  /-- [2; R588; none] The target of a sleep transition in progress. -/
  sleepTo : Option Nat
  /-- [1; R587, R588; off (3)] The compute dies are powered. -/
  diesOn : Bool
  /-- [48; R593, R546; 0] PCM_MS. -/
  ms : Nat
  /-- [-; R593; 0] Microseconds of the always-on domain since PWR_GOOD rose. -/
  us : Nat
  /-- [13 × 48; R595; 0] The PCM counters. -/
  ctrs : Ctrs
  /-- [events; R591, R655; none] PLDM events that wait to be read, oldest first. -/
  events : List PldmEvent
  /-- [3; R590; 0] Sensor 33. -/
  health : Nat
  deriving DecidableEq, Repr

/-- The manager after PWR. -/
def Pcm.reset : Pcm where
  tiles := []
  fl := 0x56
  susThrottle := 0
  peakThrottle := 0
  samples := []
  lowUs := 0
  peaks := []
  levels := []
  hostCap := 2800
  mgmtCap := 0
  allowance := none
  align := 0
  budgets := []
  minuteE := 0
  minute := 0
  held := false
  lastJ := 0
  lastBudget := 0
  lastOver := 0
  secondE := 0
  energy := 0
  model := []
  gains := []
  gainsNext := none
  measured := []
  fails := []
  stopped := []
  calibrating := false
  calibrated := false
  stackT := []
  dieT := []
  stackHot := []
  sstate := 0
  sleepTo := none
  diesOn := false
  ms := 0
  us := 0
  ctrs := []
  events := []
  health := 0

/-- One SPDM connection context (R612). -/
structure Spdm where
  /-- [1; R612; no] GET_VERSION has been answered. -/
  version : Bool
  /-- [1; R612; no] GET_CAPABILITIES has been answered. -/
  caps : Bool
  /-- [1; R612; no] Algorithms are negotiated. -/
  algs : Bool
  /-- [bytes; R612; empty] The transcript of the messages so far. -/
  transcript : List Byte
  deriving DecidableEq, Repr

/-- A context with no connection. -/
def Spdm.reset : Spdm := ⟨false, false, false, []⟩

/-- The security block. -/
structure Sec where
  /-- [step, reason; R605; none] The boot step that failed and its reason. -/
  bootFail : Option (Nat × Nat)
  /-- [1; R606; 0] IMAGE_RECOVERY. -/
  recovery : Bool
  /-- [1; R598, R599; no] The private keys exist in the SEC. -/
  keys : Bool
  /-- [bytes; R598; empty] The identity public key. -/
  idPub : List Byte
  /-- [64; R546, R598; 0 until derived (3)] DEVICE_ID. -/
  deviceId : BitVec 64
  /-- [72; R546, R604; 0 until a record is in force (3)] LOT_CODE_LO and LOT_CODE_HI. -/
  lotCode : BitVec 72
  /-- [bytes; R604; empty] The configuration record in force. -/
  record : List Byte
  /-- [4 KiB; R602; empty] The header of the running image. -/
  header : List Byte
  /-- [32; R546; 0] FW_VERSION. -/
  fwVersion : BitVec 32
  /-- [32; R546; 0] FW_BUILD. -/
  fwBuild : BitVec 32
  /-- [bytes; R608; none] The staged image. -/
  staged : Option (List Byte)
  /-- [6 × 32 B; R609; zero bytes] The measurements, keyed 1-6. -/
  meas : SMap (List Byte)
  /-- [bytes; R613; empty] The alias certificate. -/
  aliasCert : List Byte
  /-- [2; R615, R616; 0] The debug level: 0 closed. -/
  debug : Nat
  /-- [32 B, µs; R616; none] The valid nonce and when it was issued. -/
  nonce : Option (List Byte × Nat)
  /-- [context; R612; reset] The SPDM contexts over MCTP and DOE. -/
  spdmMctp : Spdm
  spdmDoe : Spdm
  deriving DecidableEq, Repr

/-- The security block after PWR. -/
def Sec.reset : Sec where
  bootFail := none
  recovery := false
  keys := false
  idPub := []
  deviceId := 0
  lotCode := 0
  record := []
  header := []
  fwVersion := 0
  fwBuild := 0
  staged := none
  meas := []
  aliasCert := []
  debug := 0
  nonce := none
  spdmMctp := Spdm.reset
  spdmDoe := Spdm.reset

end Sys2Proof.Machine
end

