-- ==== Sys2Proof/Machine/StatePtu.lean ====
section
/-! DEFINITION. The state of the page and tier unit, of the leaf pools and of the sequence slots. -/

namespace Sys2Proof.Machine

/-- A far reference (R310): tier 3 when `host`, else tier 2; `who` is the region or the lender's position,
and `window` the lender's window, which the 64-bit form does not carry (19). -/
structure FarRef where
  host : Bool
  who : Nat
  window : Nat
  off : Nat
  deriving DecidableEq, Repr

/-- A page table entry of a page (R309). -/
structure Page where
  /-- A 2 MiB page. -/
  big : Bool
  tier : Nat
  write : Bool
  pin : Bool
  motion : Bool
  farcopy : Bool
  lost : Bool
  slot : Nat
  slotAcct : Bool
  /-- PA >> 16 when TIER is 1. -/
  frame : Nat
  lastUse : Nat
  far : Option FarRef
  /-- The page was mapped by PAGE_MAP with TIER 3, or moved there by PAGE_MIGRATE, so that it does not
  migrate (R322). -/
  fixed : Bool
  deriving DecidableEq, Repr

/-- A quota record (R314). -/
structure Quota where
  localMin : Nat
  localMax : Nat
  farMax : Nat
  hostMax : Nat
  hostSpill : Bool
  deriving DecidableEq, Repr

/-- The default record: no floor and no cap. -/
def Quota.reset : Quota := ⟨0, 0, 0, 0, false⟩

/-- A lender window (R326). -/
structure Lent where
  size : Nat
  part : Nat
  frames : List Nat
  /-- Herd positions that have used the window. -/
  borrowers : NSet
  reclaim : Bool
  /-- Borrowers whose reclaim-done is outstanding. -/
  waiting : NSet
  deriving DecidableEq, Repr

/-- A window in a borrower's list (R328). -/
structure FarWin where
  pos : Nat
  window : Nat
  size : Nat
  deriving DecidableEq, Repr

/-- What a transfer between tiers does. -/
inductive XferKind where
  /-- A copy into tier 1 (R323). -/
  | toLocal
  /-- A copy that PAGE_MIGRATE makes between tiers 2 and 3 (R337). -/
  | between
  /-- Bytes of a far page that reads in place have asked for (R321). -/
  | inPlace
  /-- An eviction whose frame is not yet freed (R319, R320). -/
  | evict
  deriving DecidableEq, Repr

/-- A transfer between tiers (R319, R321, R323). -/
structure Xfer where
  kind : XferKind
  /-- The frame that is filled or freed. -/
  frame : Nat
  /-- A write waits, so that no far copy is kept (R323). -/
  forWrite : Bool
  /-- The far block that is read or written. -/
  far : FarRef
  /-- The pieces of R329 that have arrived, and the sectors of the block that came marked bad. -/
  pieces : NSet
  data : Mem
  bad : NSet
  /-- The block that a copy between tiers 2 and 3 fills. -/
  dest : Option FarRef
  deriving DecidableEq, Repr

/-- A reclaim that a borrower works through (R332): when the notice arrived. -/
structure Reclaim where
  startMs : Nat
  deriving DecidableEq, Repr

/-- The page and tier unit. Pages are keyed partition × 2^36 + VA >> 16; windows of others by
position × 2^16 + window. -/
structure Ptu where
  /-- [base, length; R308; none] The table area. -/
  area : Option (Nat × Nat)
  /-- [4 page tables; R305, R307, R309; empty] The pages. -/
  pages : SMap Page
  /-- [4 × 1; R321; 0] VIEW per partition. -/
  view : SMap Nat
  /-- [4 × 40 B; R314; 0] Quotas. -/
  quota : SMap Quota
  /-- [windows; R326; none] Windows that this device lends. -/
  lent : SMap Lent
  /-- [4 × 64; R328; empty] The borrowers' window lists. -/
  lists : SMap (List FarWin)
  /-- [4; R328; 0] The round-robin position in each list. -/
  rr : SMap Nat
  /-- [1,024; R330; none] Host regions. -/
  regions : SMap (List (Nat × Nat))
  /-- [ms; R333; 2,000] RECLAIM_BOUND. -/
  bound : Nat
  /-- [transfers; R309, R323; none] Transfers in progress. -/
  xfers : SMap Xfer
  /-- [blocks; R325, R337; none] Far and host blocks written at least once, keyed by their reference. -/
  written : List FarRef
  /-- [windows; R332; none] Reclaims that this borrower works through. -/
  reclaims : SMap Reclaim
  /-- [packets; R329; empty] Far packets that wait for a link to their lender. -/
  farWait : List Packet
  /-- [positions; R334; none] Lost lenders whose blocks become LOST once the herd has been rewound. -/
  lostLenders : NSet
  /-- [4; R337; none] Pages that a PAGE_MIGRATE in progress moves, by partition. -/
  moves : SMap Nat
  /-- [19 × 48; R338; 0] The PTU counters. -/
  ctrs : Ctrs
  deriving DecidableEq, Repr

/-- The unit after PWR. -/
def Ptu.reset : Ptu where
  area := none
  pages := []
  view := []
  quota := []
  lent := []
  lists := []
  rr := []
  regions := []
  bound := 2000
  xfers := []
  written := []
  reclaims := []
  farWait := []
  lostLenders := []
  moves := []
  ctrs := []

/-- A leaf pool (R183, R185). -/
structure LeafPool where
  part : Nat
  hdCode : Nat
  fmt : Nat
  frames : Nat
  lowWater : Nat
  elemBase : Nat
  scaleBase : Nat
  /-- Frames that hold a leaf. -/
  used : NSet
  deriving DecidableEq, Repr

/-- A leaf table entry (R189); STATE is 0 FREE, 1 FILLING, 2 FULL, 3 RETIRING. -/
structure Leaf where
  frame : Nat
  tier : Nat
  state : Nat
  pin : Bool
  motion : Bool
  farcopy : Bool
  fill : Nat
  lastUse : Nat
  far : Option FarRef
  deriving DecidableEq, Repr

/-- A FREE entry. -/
def Leaf.free : Leaf := ⟨0, 0, 0, false, false, false, 0, 0, none⟩

/-- A ring record (R213). -/
structure Ring where
  ringId : Nat
  nr : Nat
  pos : Nat
  next : Nat
  prev : Nat
  arriveEc : Nat
  sender : Nat
  lbSize : Nat
  lb0 : Nat
  lb1 : Nat
  ob : Nat
  deriving DecidableEq, Repr

/-- One buffer of a slot: LB0, LB1 or OB (R215, R217). -/
structure QBuf where
  /-- The header of the quire it holds. -/
  header : Option (List Byte)
  /-- Tiles that have executed QRELEASE for it. -/
  released : NSet
  /-- QSENDs from it that have issued and not completed. -/
  sending : Nat
  /-- A QSEND from it has completed. -/
  left : Bool
  deriving DecidableEq, Repr

/-- A free buffer. -/
def QBuf.reset : QBuf := ⟨none, [], 0, false⟩

/-- A sequence slot (R186). Tracks are keyed layer × KV_HEADS + head, leaves as R187 numbers them. -/
structure Slot where
  pool : Nat
  spillHost : Bool
  halfSplit : Bool
  layers : Nat
  heads : Nat
  rotDims : Nat
  maxTokens : Nat
  posBase : Nat
  leafTable : Nat
  ropeTable : Nat
  /-- [entries; R187, R189; FREE] The leaf table. -/
  leaves : SMap Leaf
  /-- [per track; R190; 0] Lengths. -/
  lens : SMap Nat
  /-- [per track; R230; 0] Committed lengths. -/
  clens : SMap Nat
  /-- [64 B; R213; none] The ring record in force. -/
  ring : Option Ring
  /-- [64 B; R213; none] A record and the step in which it applies. -/
  ringPend : Option (Ring × Nat)
  /-- [3 buffers; R217; free] LB0, LB1 and OB, keyed 0, 1, 2. -/
  bufs : SMap QBuf
  /-- [32 per element; R209, R217; +0] The gradient section of OB, keyed by `obKey` (51). -/
  ob : SMap (BitVec 32)
  /-- [-; R215; 0] Quires sent, and quires accepted, in the running step. -/
  sent : Nat
  got : Nat
  /-- [12; R213, R232; none] The channels whose ATTN operations use the slot, the last to issue one first. -/
  users : List Nat
  /-- [2; R215; both] Landing buffers of NEXT for which credit is held. -/
  credits : NSet
  /-- [16; R232; 0] The last error. -/
  lastErr : Nat
  /-- [tick, layer, head, length per tile; R226, R227; none] APPENDs that are stalled, and the last exhaustion. -/
  stalls : SMap (Nat × Nat × Nat × Nat)
  exhausted : Option (Nat × Nat × Nat)
  /-- [1; R188; no] Software has written the leaf table's memory: the slot's keys and values are free values. -/
  tainted : Bool
  /-- [-; R334; 0] Leaves lost with their lender. -/
  lostLeaves : Nat
  deriving DecidableEq, Repr

/-- Leaf pools and slots. -/
structure Leafs where
  /-- [8; R183; none] LP0-LP7. -/
  pools : SMap LeafPool
  /-- [16; R186; none] SQ0-SQ15. -/
  slots : SMap Slot
  /-- [leaves; R221, R224; none] Evictions whose frames are not yet freed: slot, table index and the copy's place. -/
  evicting : List (Nat × Nat × FarRef)
  /-- [ticks; R226; 5,000] The stall bound. -/
  bound : Nat
  /-- [13 × 48; R234; 0] The leaf and quire counters. -/
  ctrs : Ctrs
  deriving DecidableEq, Repr

/-- No pool and no slot. -/
def Leafs.reset : Leafs := ⟨[], [], [], 5000, []⟩

end Sys2Proof.Machine
end

