-- ==== Sys2Proof/Machine/StateTile.lean ====
section
/-! DEFINITION. The state of a compute tile and of the work channels. -/

namespace Sys2Proof.Machine

/-- The thread states of R103. -/
inductive ThState where
  | idle
  | ready
  | waitEvent
  | waitQueue
  | waitScore
  | waitTick
  | waitQuota
  | ended
  | faulted
  deriving DecidableEq, Repr

/-- The codes of R103. -/
def ThState.code : ThState → Nat
  | .idle => 0
  | .ready => 1
  | .waitEvent => 2
  | .waitQueue => 3
  | .waitScore => 4
  | .waitTick => 5
  | .waitQuota => 6
  | .ended => 7
  | .faulted => 8

/-- A thread of a tile (R94, R95). -/
structure Thread where
  /-- [4; R103, R132; 0] The state. -/
  st : ThState
  /-- [32; R94, R104; 0 (3)] The program counter, a byte offset into the channel's code. -/
  pc : BitVec 32
  /-- [15 × 64; R94, R135; 0] G1-G15; G0 is never listed. -/
  regs : SMap (BitVec 64)
  /-- [5; R100; 0] The event counter waited on. -/
  waitEc : Nat
  /-- [32; R100; 0] The value waited for. -/
  waitVal : BitVec 32
  /-- [64; R105; 0] The tick waited for. -/
  waitTick : BitVec 64
  /-- [unit; R96; 0] The unit whose queue is waited on. -/
  waitUnit : Nat
  /-- [4 + 4; R98; none] The accumulator tiles that the waiting instruction reads and writes. -/
  needR : NSet
  needW : NSet
  /-- [24; R67; 0] The count of stochastic-rounding sites. -/
  sr : Nat
  /-- [5; R180; 0] VXE.FLAGS_Tn. -/
  flags : BitVec 5
  /-- [14; R103, R356; none] The bank set whose quota holds the thread's context. -/
  hold : Option Nat
  deriving DecidableEq, Repr

/-- A thread after TILE reset. -/
def Thread.reset : Thread := ⟨.idle, 0, [], 0, 0, 0, 0, [], [], 0, 0, none⟩

/-- An instruction in a unit's queue (R96): its thread, code offset and word, the values of the base
registers it names, the accumulator tiles it reads and writes, and the cycles and passes that it takes. -/
structure QInstr where
  id : Nat
  th : Nat
  pc : BitVec 32
  word : BitVec 128
  base : BitVec 64
  extra : BitVec 64
  reads : NSet
  writes : NSet
  passes : Nat
  cycles : Nat
  /-- The instruction's work is done; only its completion is outstanding. -/
  ran : Bool
  /-- The streams of the collective engine that the instruction delivers to (R121, R159). -/
  streams : NSet
  deriving DecidableEq, Repr

/-- A SIGEV that waits for earlier instructions (R101). -/
structure Sig where
  ec : Nat
  waits : NSet
  deriving DecidableEq, Repr

/-- A fetched descriptor (R339) and its progress: whether it has been checked, how many of its requests
have issued, and how many are in flight. -/
structure Desc where
  idx : Nat
  raw : List Byte
  checked : Bool
  issued : Nat
  flight : Nat
  /-- Every request of the descriptor has issued. -/
  allIssued : Bool
  /-- Every receiver of the MCAST has posted its MRECV (R358). -/
  opened : Bool
  /-- The stall cause of R332 under which the descriptor waits, and the page. -/
  wait : Option (Nat × Nat)
  deriving DecidableEq, Repr

/-- A descriptor list of a context (R344, R345). -/
structure DList where
  id : Nat
  pc : BitVec 32
  ec : Nat
  base : Nat
  count : Nat
  /-- Index of the next descriptor to fetch. -/
  next : Nat
  descs : List Desc
  /-- A bad line or a fault ended the list: nothing more of it issues. -/
  stopped : Bool
  deriving DecidableEq, Repr

/-- Where a request's memory side lies. -/
inductive Loc where
  | hbm (pa : Nat)
  | far (pos window off : Nat)
  /-- A host region and an offset in it. -/
  | host (region off : Nat)
  /-- The page is LOST: reads are marked bad. -/
  | lost
  /-- No memory side: a tagless piece on the scratchpad (R343). -/
  | tile (addr : Nat)
  deriving DecidableEq, Repr

/-- A request in flight (R343, R355). -/
structure Req where
  th : Nat
  list : Nat
  idx : Nat
  row : Nat
  /-- Offset of the piece in its row, and its length, on the memory side. -/
  off : Nat
  len : Nat
  loc : Loc
  dst : Loc
  va : Nat
  tag : Bool
  /-- The bank sets that the request goes to (R356). -/
  banks : NSet
  /-- The request has entered its bank set's queue (R297). -/
  granted : Bool
  /-- What the memory side gave when it was served: bytes, and the offsets ÷ 32 of marked sectors. -/
  held : Option (List Byte × List Nat)
  /-- A write to a far tier has been sent (R347). -/
  sent : Bool
  deriving DecidableEq, Repr

/-- A posted MRECV (R358, R359). -/
structure Recv where
  th : Nat
  list : Nat
  idx : Nat
  mtag : Nat
  rows : Nat
  rowBytes : Nat
  laddr : Nat
  lstride : Nat
  left : Nat
  deriving DecidableEq, Repr

/-- A compute tile. -/
structure Tile where
  /-- [12; R140; none] The running channel that holds the tile. -/
  chan : Option Nat
  /-- [8; R135; 0] The tile's rank in that channel. -/
  rank : Nat
  /-- [8 threads; R94; reset] T0-T7. -/
  threads : SMap Thread
  /-- [32 × 32; R100, R135; 0] EC0-EC31. -/
  ecs : SMap (BitVec 32)
  /-- [1 MiB; R90; 0] The scratchpad. -/
  scratch : Mem
  /-- [3; R95; T7] The thread that issued last (159). -/
  lastTh : Nat
  /-- [16,384; R365, R368; clear] Poisoned 64-byte lines of the scratchpad. -/
  poison : NSet
  /-- [65,536 × 32; R235; +0] The weight-gradient buffer's words. -/
  wgb : SMap (BitVec 32)
  /-- [4,096; R236, R237; all clean] Granules that are not clean. -/
  dirty : NSet
  /-- [32 × 128 × 32; R147; +0] V0-V31, keyed 128 × register + lane. -/
  vregs : SMap (BitVec 32)
  /-- [7 × 128; R147; 0] M1-M7; M0 is never listed. -/
  masks : SMap (BitVec 128)
  /-- [4 × 128 × 128 × 32; R89; +0] AC0-AC3, keyed 16,384 × tile + 128 × row + column. -/
  acc : SMap (BitVec 32)
  /-- [4 × 3; R99; free] The owners of accumulator tiles. -/
  owner : SMap Nat
  /-- [4 × 4 instructions; R96; empty] Unit queues: 0 array, 1 vector engine, 2 streamer, 3 fetch engine. -/
  queues : SMap (List QInstr)
  /-- [-; R101; 0] The model's own number for the next queued instruction or list. -/
  nextId : Nat
  /-- [-; R101; none] SIGEVs that wait. -/
  sigs : List Sig
  /-- [64; R131; 0] CT.FAULT_INFO but for its TILE field. -/
  faultInfo : BitVec 64
  /-- [64; R353; 0] TFE.DESC_FAULT. -/
  descFault : BitVec 64
  /-- [52; R354; 0] TFE.DESC_FAULT_VA. -/
  descVa : BitVec 52
  /-- [17; R32, R332; none] The stall cause and the page of a thread's code line (2 × thread), of a context's line of
  descriptors (2 × thread + 1) and of the streamer's operation (16). -/
  lateLines : SMap (Nat × Nat)
  /-- [64 KiB; R134; empty] The instruction cache's words, keyed by code offset ÷ 16. -/
  icache : SMap (BitVec 128)
  /-- [code lines; R134; none] Lines of 256 bytes that read marked bad; a thread that needs one waits. -/
  badLines : NSet
  /-- [8 contexts; R344; empty] The fetch contexts' lists, the running one first. -/
  ctxs : SMap (List DList)
  /-- [512 tags; R355; none] Requests in flight. -/
  reqs : SMap Req
  /-- [-; R358; none] Posted MRECVs. -/
  recvs : List Recv
  /-- [7 × 48; R146; 0] The tile counters. -/
  ctrs : Ctrs
  /-- [6 × 48; R370; 0] The fetch engine counters. -/
  tfeCtrs : Ctrs
  deriving DecidableEq, Repr

/-- A tile as TILE reset leaves it (R141). -/
def Tile.reset : Tile where
  chan := none
  rank := 0
  threads := []
  ecs := []
  scratch := []
  lastTh := 7
  poison := []
  wgb := []
  dirty := []
  vregs := []
  masks := []
  acc := []
  owner := []
  queues := []
  nextId := 0
  sigs := []
  faultInfo := 0
  descFault := 0
  descVa := 0
  lateLines := []
  icache := []
  badLines := []
  ctxs := []
  reqs := []
  recvs := []
  ctrs := []
  tfeCtrs := []

/-- A program header as PROGRAM_LOAD read it (R133). -/
structure Header where
  periodic : Bool
  threads : BitVec 8
  codeOffset : Nat
  codeLength : Nat
  entry : List Nat
  deriving DecidableEq, Repr

/-- A channel table entry (R555) with what the device keeps of the channel's run. -/
structure Chan where
  /-- [1; R33, R555] MODE: relaxed. -/
  relaxed : Bool
  /-- [1; R555] CPL_RECORD. -/
  cplRecord : Bool
  /-- [1; R555] CPL_IRQ. -/
  cplIrq : Bool
  /-- [2; R555] PARTITION. -/
  part : Nat
  /-- [6; R555] CPL_VECTOR. -/
  cplVector : Nat
  /-- [52; R555; 0] PROGRAM. -/
  program : Nat
  /-- [64 B; R133; none] The loaded header. -/
  header : Option Header
  /-- [256; R555] TILES. -/
  tiles : BitVec 256
  /-- [4 × 2 × 64; R555] BOUND. -/
  bounds : List (Nat × Nat)
  /-- [4; R555; 1] RUN_STATE. -/
  runState : Nat
  /-- [1; R36, R555; 0] NONDET. -/
  nondet : Bool
  /-- [1; R36; 0] NONDET was set in the running step. -/
  nondetStep : Bool
  /-- [4; R555; 0] FAULT_KIND. -/
  faultKind : Nat
  /-- [8; R555; 0] FAULT_TILE. -/
  faultTile : Nat
  /-- [3; R555; 0] FAULT_THREAD. -/
  faultThread : Nat
  /-- [32; R555; 0] FAULT_PC. -/
  faultPc : Nat
  /-- [48; R555; 0] LAST_STEP. -/
  lastStep : Nat
  /-- [16; R555; 0] LAST_STATUS. -/
  lastStatus : Nat
  /-- [64; R664; 0] START_STEP of a channel that is armed but has not started. -/
  startStep : Nat
  /-- [1; R136, R137; no] The channel's threads have been started for the running step or run. -/
  started : Bool
  /-- [1; R664; no] The channel has run at least one step since CHANNEL_START. -/
  ran : Bool
  /-- [64; R142, R664; none] The last step that the channel ran. -/
  lastRan : Option Nat
  deriving DecidableEq, Repr

/-- The channels. -/
structure Chans where
  /-- [4,096 × 128 B; R555; empty] The channel table. -/
  table : SMap Chan
  /-- [256; R557; empty] The cached entries, most recently used first. -/
  cached : List Nat
  deriving DecidableEq, Repr

/-- No channel. -/
def Chans.reset : Chans := ⟨[], []⟩

end Sys2Proof.Machine
end

