-- ==== Sys2Proof/Machine/State.lean ====
section
/-! DEFINITION. The state of the block, its faults and refusals, and the state right after reset. -/

namespace Sys2Proof.Machine

/-- The faults of a step. The block has none: an error that the spec describes is an effect on the state
(a status code, a log record, a fault report), so no command stops the machine. -/
inductive Fault where
  deriving DecidableEq, Repr

/-- The refusals of a step. -/
inductive Refusal where
  /-- Raised by `exec` for a command that has no meaning yet; safe, since the machine stops. -/
  | notModelled (mnemonic : String)
  deriving DecidableEq, Repr

/-- The block: the queue of commands that wait, what it has sent out, and every part the spec gives it. -/
structure State where
  /-- [commands; the model's own (1); empty] Commands that wait, first in first out. -/
  pending : List Instr
  /-- [messages; the model's own (7); empty] What the block has sent out, oldest first. -/
  out : List Output
  /-- [number; the model's own (4); 0] How many free values have been drawn. -/
  freeCtr : Nat
  sys : Sys
  hif : Hif
  chans : Chans
  /-- [256; R89-R146; reset] CT000-CT255. -/
  tiles : SMap Tile
  num : Numerics
  mem : Hbm
  ptu : Ptu
  leafs : Leafs
  links : Links
  spine : Spine
  cle : Cle
  ige : Ige
  rse : Rse
  pcm : Pcm
  sec : Sec
  /-- [bytes; R538; 0 (5)] Host memory that the device reaches by bus address. -/
  host : Mem
  /-- [bus addresses ÷ 64; R539, R331; none (5)] Host lines whose reads complete poisoned or with an error. -/
  hostBad : NSet
  /-- [64 MiB; R600; 0 (5)] The flash. -/
  flash : Mem
  deriving DecidableEq, Repr

/-- The block right after PWR: PWR_GOOD high, PERST_N released, the boot ROM at boot step 1 (R619, R620). -/
def State.reset : State where
  pending := []
  out := []
  freeCtr := 0
  sys := Sys.reset
  hif := Hif.reset
  chans := Chans.reset
  tiles := []
  num := Numerics.reset
  mem := Hbm.reset
  ptu := Ptu.reset
  leafs := Leafs.reset
  links := Links.reset
  spine := Spine.reset
  cle := Cle.reset
  ige := Ige.reset
  rse := Rse.reset
  pcm := Pcm.reset
  sec := Sec.reset
  host := []
  hostBad := []
  flash := []

end Sys2Proof.Machine
end

