-- ==== Sys2Proof/Machine/Ops.lean ====
section
/-! DEFINITION. Named operations that every family uses: bytes and memories, counters, access to tiles,
channels and links, interrupts and MSI-X messages, the error log, and packets handed to a link. -/

namespace Sys2Proof.Machine

/-! ### Bytes, bit fields and memories -/

/-- Bits lo to lo + w - 1 of a number. -/
def bits (v lo w : Nat) : Nat := v / 2 ^ lo % 2 ^ w

/-- The field of `n` bytes at byte `o` of a record (R7). -/
def fieldAt (r : List Byte) (o n : Nat) : Nat := leNat ((r.drop o).take n)

/-- The bytes o to o + n - 1 of a record are all 0 (R15). -/
def zeroAt (r : List Byte) (o n : Nat) : Bool := ((r.drop o).take n).all (· == 0)

/-- A record of `n` bytes, cut or padded with zeros. -/
def padTo (n : Nat) (r : List Byte) : List Byte := (r ++ List.replicate (n - r.length) 0).take n

/-- The record with `bs` written at byte `o`. -/
def splice (r : List Byte) (o : Nat) (bs : List Byte) : List Byte :=
  r.take o ++ bs ++ r.drop (o + bs.length)

/-- The byte at an address. -/
def Mem.get (m : Mem) (a : Nat) : Byte := SMap.getD m a 0

/-- Write one byte. -/
def Mem.set (m : Mem) (a : Nat) (b : Byte) : Mem := SMap.setD m 0 a b

/-- Read n bytes. -/
def Mem.readN (m : Mem) (a n : Nat) : List Byte := (List.range n).map fun i => Mem.get m (a + i)

/-- Write bytes from an address on. -/
def Mem.writeN (m : Mem) (a : Nat) : List Byte → Mem
  | [] => m
  | b :: bs => Mem.writeN (Mem.set m a b) (a + 1) bs

/-- Make n bytes 0. -/
def Mem.zero (m : Mem) (a n : Nat) : Mem := m.filter fun p => decide (p.1 < a ∨ a + n ≤ p.1)

/-- Keep the entries outside [a, a + n). -/
def SMap.cut {α : Type} (m : SMap α) (a n : Nat) : SMap α :=
  m.filter fun p => decide (p.1 < a ∨ a + n ≤ p.1)

/-- Keep the numbers outside [a, a + n). -/
def NSet.cut (s : NSet) (a n : Nat) : NSet := s.filter fun k => decide (k < a ∨ a + n ≤ k)

/-- Insert or remove. -/
def NSet.setTo (s : NSet) (k : Nat) (b : Bool) : NSet := if b then NSet.insert s k else NSet.erase s k

/-- The union of a set and a list. -/
def NSet.addAll (s : NSet) (l : List Nat) : NSet := l.foldl NSet.insert s

/-- Bits set in a number below 2^n, ascending. -/
def bitsOf (n v : Nat) : List Nat := (List.range n).filter fun i => v.testBit i

/-- The number with the listed bits set. -/
def ofBits (l : List Nat) : Nat := l.foldl (fun a i => a ||| 2 ^ i) 0

/-- A Boolean as a bit. -/
def bit (b : Bool) (i : Nat) : Nat := if b then 2 ^ i else 0

/-- Round up to a multiple. -/
def roundUp (n k : Nat) : Nat := (n + k - 1) / k * k

/-- The value as an unsigned number of w bits, two's complement. -/
def twos (w : Nat) (z : Int) : Nat := (z % (2 ^ w : Nat)).toNat

/-- The signed value of a w-bit number. -/
def signedOf (w v : Nat) : Int := if v % 2 ^ w < 2 ^ (w - 1) then (v % 2 ^ w : Nat) else ((v % 2 ^ w : Nat) : Int) - (2 ^ w : Nat)

/-- Insert into a list at an index, moving the rest. -/
def setAt {α : Type} (l : List α) (i : Nat) (v : α) : List α := l.set i v

/-! ### Counters (R16, R18) -/

/-- The largest value of a 48-bit counter. -/
def ctrMax : Nat := 2 ^ 48 - 1

/-- The value of a counter. -/
def Ctrs.get (c : Ctrs) (i : Nat) : Nat := SMap.getD c i 0

/-- Add to a counter that saturates. -/
def Ctrs.sat (c : Ctrs) (i k : Nat) : Ctrs := SMap.updD c 0 i fun v => min (v + k) ctrMax

/-- Add to a counter that wraps. -/
def Ctrs.wrap (c : Ctrs) (i k : Nat) : Ctrs := SMap.updD c 0 i fun v => (v + k) % 2 ^ 48

/-- Clear the counters whose mask bit is set (R18). -/
def Ctrs.clear (c : Ctrs) (mask : Nat) : Ctrs := c.filter fun p => !mask.testBit p.1

/-- The first n counters as 8-byte fields, in mask-bit order (R17). -/
def Ctrs.bytes (c : Ctrs) (n : Nat) : List Byte :=
  (List.range n).flatMap fun i => natLe 8 (Ctrs.get c i)

/-! ### Parts of the state -/

/-- Send something out of the block. -/
def State.emit (s : State) (o : Output) : State := { s with out := s.out ++ [o] }

/-- Draw a free value: its number, and the state with the draw counted (4). -/
def State.draw (s : State) : Nat × State := (s.freeCtr, { s with freeCtr := s.freeCtr + 1 })

/-- A tile. -/
def State.tile (s : State) (t : Nat) : Tile := SMap.getD s.tiles t Tile.reset

/-- Replace a tile. -/
def State.setTile (s : State) (t : Nat) (v : Tile) : State :=
  { s with tiles := SMap.setD s.tiles Tile.reset t v }

/-- Change a tile. -/
def State.modTile (s : State) (t : Nat) (f : Tile → Tile) : State := s.setTile t (f (s.tile t))

/-- A thread of a tile. -/
def Tile.thread (t : Tile) (n : Nat) : Thread := SMap.getD t.threads n Thread.reset

/-- Change a thread of a tile. -/
def Tile.modThread (t : Tile) (n : Nat) (f : Thread → Thread) : Tile :=
  { t with threads := SMap.updD t.threads Thread.reset n f }

/-- A general register; G0 reads 0 (R94). -/
def Thread.reg (t : Thread) (r : Nat) : BitVec 64 := if r = 0 then 0 else SMap.getD t.regs r 0

/-- Write a general register; writes to G0 are discarded (R94). -/
def Thread.setReg (t : Thread) (r : Nat) (v : BitVec 64) : Thread :=
  if r = 0 then t else { t with regs := SMap.setD t.regs 0 r v }

/-- A channel table entry. -/
def State.chan (s : State) (c : Nat) : Option Chan := SMap.lookup s.chans.table c

/-- Replace a channel table entry. -/
def State.setChan (s : State) (c : Nat) (v : Chan) : State :=
  { s with chans := { s.chans with table := SMap.put s.chans.table c v } }

/-- Change a channel table entry that exists. -/
def State.modChan (s : State) (c : Nat) (f : Chan → Chan) : State :=
  { s with chans := { s.chans with table := SMap.upd s.chans.table c f } }

/-- A channel is running or stopping (R144, R555). -/
def Chan.running (c : Chan) : Bool := c.runState == 3 || c.runState == 4

/-- The tiles of a channel, ascending. -/
def Chan.tileList (c : Chan) : List Nat := bitsOf 256 c.tiles.toNat

/-- The numbers of the running channels, ascending. -/
def State.runningChans (s : State) : List Nat :=
  (s.chans.table.filter fun p => p.2.running).map (·.1)

/-- A link. -/
def State.link (s : State) (l : Nat) : Link := SMap.getD s.links.links l Link.reset

/-- Change a link. -/
def State.modLink (s : State) (l : Nat) (f : Link → Link) : State :=
  { s with links := { s.links with links := SMap.updD s.links.links Link.reset l f } }

/-- Change the counters of a tile. -/
def State.tileCtr (s : State) (t : Nat) (f : Ctrs → Ctrs) : State :=
  s.modTile t fun x => { x with ctrs := f x.ctrs }

/-- Change the fetch engine counters of a tile. -/
def State.tfeCtr (s : State) (t : Nat) (f : Ctrs → Ctrs) : State :=
  s.modTile t fun x => { x with tfeCtrs := f x.tfeCtrs }

/-- Change the memory counters (R303). -/
def State.memCtr (s : State) (f : Ctrs → Ctrs) : State :=
  { s with mem := { s.mem with ctrs := f s.mem.ctrs } }

/-- Change the resilience counters (R535). -/
def State.rseCtr (s : State) (f : Ctrs → Ctrs) : State :=
  { s with rse := { s.rse with ctrs := f s.rse.ctrs } }

/-- Change the collective and Spine counters (R462). -/
def State.cleCtr (s : State) (f : Ctrs → Ctrs) : State :=
  { s with cle := { s.cle with ctrs := f s.cle.ctrs } }

/-- Change the host interface counters (R568). -/
def State.hifCtr (s : State) (f : Ctrs → Ctrs) : State :=
  { s with hif := { s.hif with ctrs := f s.hif.ctrs } }

/-- Change the PTU counters (R338). -/
def State.ptuCtr (s : State) (f : Ctrs → Ctrs) : State :=
  { s with ptu := { s.ptu with ctrs := f s.ptu.ctrs } }

/-- Change the leaf and quire counters (R234). -/
def State.leafCtr (s : State) (f : Ctrs → Ctrs) : State :=
  { s with leafs := { s.leafs with ctrs := f s.leafs.ctrs } }

/-- Change the ingest counters (R491). -/
def State.igeCtr (s : State) (f : Ctrs → Ctrs) : State :=
  { s with ige := { s.ige with ctrs := f s.ige.ctrs } }

/-- Change the numerics counters (R88). -/
def State.numCtr (s : State) (f : Ctrs → Ctrs) : State :=
  { s with num := { s.num with ctrs := f s.num.ctrs } }

/-- Change the weight-gradient counters (R261). -/
def State.wgbCtr (s : State) (f : Ctrs → Ctrs) : State :=
  { s with num := { s.num with wgbCtrs := f s.num.wgbCtrs } }

/-- Change the power counters (R595). -/
def State.pcmCtr (s : State) (f : Ctrs → Ctrs) : State :=
  { s with pcm := { s.pcm with ctrs := f s.pcm.ctrs } }

/-- Change a link's counters (R409). -/
def State.linkCtr (s : State) (l : Nat) (f : Ctrs → Ctrs) : State :=
  s.modLink l fun x => { x with ctrs := f x.ctrs }

/-! ### Configuration registers, MSI-X and interrupt causes (R561-R564) -/

/-- A configuration dword. -/
def State.cfgDword (s : State) (n : Nat) : BitVec 32 := SMap.getD s.hif.cfg n (Config.cfgReset n)

/-- MSI-X is enabled and the function mask is 0; both bits are 0 and the function is not enabled until
the host has written message control (17). -/
def State.msixOn (s : State) : Bool :=
  let c := SMap.getD s.hif.cfg Config.cfgMsix 0
  c.getLsbD 31 && !c.getLsbD 30

/-- An 8-byte word of the MSI-X table; every vector is masked after reset (17). -/
def State.msixWord (s : State) (n : Nat) : BitVec 64 :=
  SMap.getD s.hif.msixTable n (if n % 2 = 1 then 0x100000000 else 0)

/-- A vector may send: MSI-X is on and the vector is not masked. -/
def State.vectorOpen (s : State) (v : Nat) : Bool := s.msixOn && !(s.msixWord (2 * v + 1)).getLsbD 32

/-- Send a vector's message, or keep it pending while it is masked (R564). -/
def sendVector (v : Nat) (s : State) : State :=
  if s.vectorOpen v then s.emit (.msix v)
  else { s with hif := { s.hif with msixPba := s.hif.msixPba ||| BitVec.ofNat 64 (2 ^ v) } }

/-- Send the pending vectors that may now send, and clear their pending bits. -/
def sendPending (s : State) : State :=
  (List.range 64).foldl (fun s v =>
    if s.hif.msixPba.getLsbD v && s.vectorOpen v then
      State.emit { s with hif := { s.hif with msixPba := s.hif.msixPba &&& ~~~(BitVec.ofNat 64 (2 ^ v)) } } (.msix v)
    else s) s

/-- The vector of a cause (R562, R563). -/
def State.causeVector (s : State) (c : Nat) : Nat := SMap.getD s.hif.route c (16 + c)

/-- Set a bit of INT_CAUSE; its message goes out when it rises unmasked (R564). -/
def raiseCause (c : Nat) (s : State) : State :=
  if s.hif.intCause.getLsbD c then s
  else
    let s1 := { s with hif := { s.hif with intCause := s.hif.intCause ||| BitVec.ofNat 15 (2 ^ c) } }
    if s.hif.intMask.getLsbD c then s1 else sendVector (s.causeVector c) s1

namespace Cause
abbrev completion : Nat := 0
abbrev recovery : Nat := 1
abbrev replayLimit : Nat := 2
abbrev tileFault : Nat := 3
abbrev leafExhausted : Nat := 4
abbrev collMismatch : Nat := 5
abbrev ingest : Nat := 6
abbrev errorLog : Nat := 7
abbrev linkEvent : Nat := 8
abbrev herdEvent : Nat := 9
abbrev power : Nat := 10
abbrev thermal : Nat := 11
abbrev colophon : Nat := 12
abbrev security : Nat := 13
abbrev ready : Nat := 14
end Cause

/-! ### The error log (R492, R496-R498) -/

/-- The class of a cause (R492). -/
def causeClass (c : Nat) : Nat :=
  if c = 0x00 ∨ c = 0x40 then 4
  else if c < 0x10 then 0
  else if c < 0x20 then 1
  else if c < 0x30 then 2
  else if c < 0x40 then 3
  else 4

/-- A log record with nothing filled in: SOURCE, CAUSE, STATUS and INSTANCE given, no channel. -/
def LogRec.make (source cause status unit : Nat) : LogRec :=
  ⟨0, 0, status, source, cause, causeClass cause, 0, unit, 0xFFFF, 0, 0, 0, 0, 0, 0, 0, 0⟩

/-- A record's PA with PA_VALID. -/
def LogRec.atPa (r : LogRec) (pa : Nat) : LogRec := { r with pa := pa, flags := r.flags ||| 4 }

/-- A record's VA and partition with VA_VALID. -/
def LogRec.atVa (r : LogRec) (part va : Nat) : LogRec :=
  { r with va := va + part * 2 ^ 52, flags := r.flags ||| 8 }

/-- A record of an injected error (R525). -/
def LogRec.injected (r : LogRec) (b : Bool) : LogRec :=
  if b then { r with flags := r.flags ||| 2 } else r

/-- The 64 bytes of a record (R497). -/
def LogRec.bytes (r : LogRec) : List Byte :=
  natLe 8 r.seq ++ natLe 6 r.tick ++ natLe 2 r.status ++ natLe 1 r.source ++ natLe 1 r.cause ++ natLe 1 r.cls
    ++ natLe 1 r.flags ++ natLe 2 r.unit ++ natLe 2 r.chan ++ natLe 8 r.pa ++ natLe 8 r.va ++ natLe 8 r.step
    ++ natLe 8 r.detail ++ natLe 2 r.bankId ++ natLe 2 r.row ++ natLe 1 r.mch ++ natLe 3 0

/-- The counter that a class adds to (R535). -/
def classCtr (cls : Nat) : Option Nat :=
  match cls with
  | 0 => some 2
  | 2 => some 4
  | 3 => some 5
  | _ => none

/-- Write a record: stamp it, keep the last 4,096, count it. -/
def writeRecord (r : LogRec) (s : State) : State :=
  let r := { r with seq := s.rse.nextSeq, tick := s.spine.tick, step := s.spine.step }
  let log := s.rse.log ++ [r]
  let s := { s with rse := { s.rse with
    log := log.drop (log.length - 4096), nextSeq := (s.rse.nextSeq + 1) % 2 ^ 64 } }
  s.rseCtr fun c => Ctrs.wrap c 0 1

/-- Log an error of class 4, within 64 in any one second, or of any other class (R496, R498). -/
def logError (r : LogRec) (s : State) : State :=
  if r.cls = 4 then
    if r.cause = 0x40 then writeRecord r s
    else
      let last := s.rse.recent.filter fun t => decide (s.pcm.us < t + 1000000)
      if last.length < 64 then
        writeRecord r { s with rse := { s.rse with recent := s.pcm.us :: last } }
      else s.rseCtr fun c => Ctrs.sat c 1 1
  else
    let s := writeRecord r s
    let s := match classCtr r.cls with
      | some i => s.rseCtr fun c => Ctrs.sat c i 1
      | none => s
    raiseCause Cause.errorLog s

/-! ### Positions, link sets and packets (R381, R382, R398) -/

/-- The device's herd position; 0xFFFF when no table is loaded. -/
def State.myPos (s : State) : Nat := (s.links.table.map (·.myPos)).getD 0xFFFF

/-- HERD_SIZE; 0 when no table is loaded. -/
def State.herdSize (s : State) : Nat := (s.links.table.map (·.size)).getD 0

/-- The entry of a link in the position table. -/
def State.posEntry (s : State) (l : Nat) : Option PosEntry :=
  s.links.table.bind fun t => t.entries[l]?

/-- The positions that a link serves: PEER_POS, unless that position was rebound away, and STANDS_FOR after a rebind
that names it (R398, R402). -/
def servesPos (rebinds : List (Nat × Nat)) (e : PosEntry) (p : Nat) : Bool :=
  e.enable &&
    ((e.peerPos == p && !(rebinds.any fun r => r.1 == p))
      || (e.standby && e.standsFor == p && rebinds.any fun r => r.1 == p && r.2 == e.peerPos))

/-- The links that the table assigns to a position, whatever their state, ascending. -/
def State.assigned (s : State) (p : Nat) : List Nat :=
  (List.range 32).filter fun l =>
    match s.posEntry l with
    | some e => servesPos s.links.rebinds e p
    | none => false

/-- The link set of a position (R391, R398). -/
def State.linkSet (s : State) (p : Nat) : List Nat :=
  (s.assigned p).filter fun l => (s.link l).st == 3 && (s.link l).joined

/-- The position at the far end of a link, as this device treats it. -/
def State.peerOf (s : State) (l : Nat) : Nat :=
  match s.posEntry l with
  | some e =>
    if e.standby && s.links.rebinds.any fun r => r.1 == e.standsFor && r.2 == e.peerPos then e.standsFor
    else e.peerPos
  | none => 0xFFFF

/-- Hand a packet to a link; an isolated device sends none (R401). -/
def sendOn (l : Nat) (p : Packet) (s : State) : State :=
  if s.links.isolated || (s.link l).st != 3 then s
  else s.modLink l fun x => { x with queues := SMap.updD x.queues [] p.vc (· ++ [p]) }

/-- Hand a packet to the lowest link of the receiver's set. -/
def sendTo (p : Packet) (s : State) : State :=
  match s.linkSet p.dstPos with
  | l :: _ => sendOn l p s
  | [] => s

/-- A Spine packet's CLASS_WORD (R419). -/
def spineWord (skind hops cand tick : Nat) : List Byte :=
  natLe 1 skind ++ natLe 1 (hops % 16 + 16 * (cand % 4)) ++ natLe 6 tick

/-- A Spine packet to a position. -/
def spinePacket (s : State) (skind dst : Nat) (data : List Byte) : Packet :=
  ⟨1, 0, s.myPos, dst, spineWord skind s.spine.hops s.spine.cand s.spine.tick, padTo (roundUp data.length 16) data⟩

/-- The links that are Active, ascending. -/
def State.activeLinks (s : State) : List Nat :=
  (List.range 32).filter fun l => (s.link l).st == 3

/-- Send a Spine packet on every Active link but one. -/
def flood (skind : Nat) (data : List Byte) (but : Option Nat) (s : State) : State :=
  s.activeLinks.foldl (fun s l =>
    if some l = but then s else sendOn l (spinePacket s skind (s.peerOf l) data) s) s

/-- Write a link event (R407). -/
def linkEvent (l ev status pos reason : Nat) (s : State) : State :=
  let e : LinkEvent := ⟨s.spine.tick, l, ev, status, pos, reason, (s.link l).st⟩
  { s with links := { s.links with events := (e :: s.links.events).take 64 } }

end Sys2Proof.Machine
end

