-- ==== Sys2Proof/Machine/Flit.lean ====
section
/-! DEFINITION. The flit (R376 to R380) and the lane coding below it (R373, R374): the Reed-Solomon code, the
CRC, the layout, and a packet's header slot (R381). -/

namespace Sys2Proof.Machine

/-! ### GF(2^8) (R377) -/

/-- Multiplication by x modulo x^8 + x^4 + x^3 + x^2 + 1. -/
def gfX (a : Byte) : Byte := if a.msb then (a <<< 1) ^^^ 0x1D else a <<< 1

/-- The product of the bits of `b` from bit `n - 1` down. -/
def gfMulBits (a b : Byte) : Nat → Byte
  | 0 => 0
  | n + 1 => gfX (gfMulBits a (b >>> 1) n) ^^^ (if b.getLsbD 0 then a else 0)

/-- The product of two field elements. -/
def gfMul (a b : Byte) : Byte := gfMulBits a b 8

/-- α^n, with α = 0x02. -/
def gfPow : Nat → Byte
  | 0 => 1
  | n + 1 => gfX (gfPow n)

/-- a^n. -/
def gfExp (a : Byte) : Nat → Byte
  | 0 => 1
  | n + 1 => gfMul a (gfExp a n)

/-- The inverse, a^254. -/
def gfInv (a : Byte) : Byte := gfExp a 254

/-- The value of a polynomial, highest coefficient first. -/
def gfEval (p : List Byte) (x : Byte) : Byte := p.foldl (fun v c => gfMul v x ^^^ c) 0

/-! ### RS(224,208) (R377) -/

/-- The generator's coefficients from x^15 down to x^0; that of x^16 is 1. -/
def rsGen : List Byte :=
  ((List.range 16).foldl (fun (g : List Byte) i =>
    List.zipWith (· ^^^ ·) (g ++ [0]) (0 :: g.map (gfMul (gfPow i)))) [1]).drop 1

/-- The 16 parity bytes of 208 bytes. -/
def rsParity (data : List Byte) : List Byte :=
  data.foldl (fun (r : List Byte) d =>
    let f := d ^^^ r.headD 0
    List.zipWith (· ^^^ ·) (r.drop 1 ++ [0]) (rsGen.map (gfMul f))) (List.replicate 16 0)

/-- The sixteen syndromes of a codeword. -/
def rsSyndromes (w : List Byte) : List Byte := (List.range 16).map fun i => gfEval w (gfPow i)

/-- Add two polynomials, lowest coefficient first. -/
def polyAdd : List Byte → List Byte → List Byte
  | [], q => q
  | p, [] => p
  | a :: p, b :: q => (a ^^^ b) :: polyAdd p q

/-- The error locator, lowest coefficient first, and its degree (Berlekamp and Massey). The state is the
locator, the earlier one shifted, its discrepancy, and the degree. -/
def rsLocator (syn : List Byte) : List Byte × Nat :=
  let r := (List.range 16).foldl (fun (a : List Byte × List Byte × Byte × Nat) n =>
    let lam := a.1
    let prev := 0 :: a.2.1
    let d := (List.range (a.2.2.2 + 1)).foldl (fun v i => v ^^^ gfMul (lam.getD i 0) (syn.getD (n - i) 0)) 0
    if d = 0 then (lam, prev, a.2.2.1, a.2.2.2)
    else
      let next := polyAdd lam (prev.map (gfMul (gfMul d (gfInv a.2.2.1))))
      if 2 * a.2.2.2 ≤ n then (next, lam, d, n + 1 - a.2.2.2) else (next, prev, a.2.2.1, a.2.2.2))
    (([1] : List Byte), ([1] : List Byte), (1 : Byte), 0)
  (r.1, r.2.2.2)

/-- The value of a polynomial, lowest coefficient first. -/
def polyEval (p : List Byte) (x : Byte) : Byte := gfEval p.reverse x

/-- Correct a codeword of 224 bytes: the corrected bytes and how many were wrong; none when it does not
decode. -/
def rsDecode (w : List Byte) : Option (List Byte × Nat) :=
  let syn := rsSyndromes w
  if syn.all (· == 0) then some (w, 0)
  else
    let loc := rsLocator syn
    if 8 < loc.2 then none
    else
      let om := (List.range 16).map fun i =>
        (List.range (i + 1)).foldl (fun v j => v ^^^ gfMul (loc.1.getD j 0) (syn.getD (i - j) 0)) 0
      let der := (List.range loc.1.length).map fun i => if i % 2 = 0 then loc.1.getD (i + 1) 0 else 0
      let fix := (List.range 224).map fun k =>
        let x := gfPow (223 - k)
        let y := gfInv x
        if polyEval loc.1 y = 0 then gfMul x (gfMul (polyEval om y) (gfInv (polyEval der y))) else 0
      let n := (fix.filter (· != 0)).length
      let v := List.zipWith (· ^^^ ·) w fix
      if n = loc.2 && (rsSyndromes v).all (· == 0) then some (v, n) else none

/-! ### CRC-64 (R379) -/

/-- One bit of the CRC. -/
def crc64Bit (c : BitVec 64) : BitVec 64 :=
  if c.msb then (c <<< 1) ^^^ 0x42F0E1EBA9EA3693 else c <<< 1

/-- The CRC of some bytes. -/
def crc64 (bs : List Byte) : BitVec 64 :=
  bs.foldl (fun c b =>
    (List.range 8).foldl (fun c _ => crc64Bit c) (c ^^^ (BitVec.setWidth 64 b <<< 56))) (BitVec.allOnes 64)
  ^^^ BitVec.allOnes 64

/-! ### The flit (R376, R378, R380) -/

/-- The header's fields. -/
structure FlitHead where
  type : Nat
  seq : Nat
  ack : Nat
  ackv : Bool
  nak : Bool
  cvc : Nat
  credits : Nat
  first : Nat
  deriving DecidableEq, Repr

/-- The eight bytes of a header. -/
def FlitHead.bytes (h : FlitHead) : List Byte :=
  natLe 8 (h.type + h.seq * 2 ^ 2 + h.ack * 2 ^ 14 + (if h.ackv then 2 ^ 26 else 0) + (if h.nak then 2 ^ 27 else 0)
    + h.cvc * 2 ^ 28 + h.credits * 2 ^ 30 + h.first * 2 ^ 42)

/-- The fields of a header. -/
def FlitHead.of (b : List Byte) : FlitHead :=
  let v := leNat (b.take 8)
  ⟨bits v 0 2, bits v 2 12, bits v 14 12, v.testBit 26, v.testBit 27, bits v 28 2, bits v 30 12, bits v 42 5⟩

/-- The 448 bytes of a flit from its header and its payload of 400 bytes. -/
def flitBytes (h : FlitHead) (payload : List Byte) : List Byte :=
  let body := h.bytes ++ padTo 400 payload
  let content := body ++ natLe 8 (crc64 body).toNat
  let c0 := content.take 208
  let c1 := content.drop 208
  let w0 := c0 ++ rsParity c0
  let w1 := c1 ++ rsParity c1
  (List.range 448).map fun i =>
    let j := i / 16 * 8 + i % 8
    (if i / 8 % 2 = 0 then w0 else w1).getD j 0

/-- What a receiver makes of a flit. -/
inductive FlitIn where
  /-- A codeword does not decode. -/
  | uncorrectable
  /-- The CRC does not match; with the number of corrected bytes. -/
  | badCrc (fixed : Nat)
  | good (h : FlitHead) (payload : List Byte) (fixed : Nat)
  deriving DecidableEq, Repr

/-- Decode a flit. -/
def flitDecode (f : List Byte) : FlitIn :=
  let word (c : Nat) : List Byte := (List.range 224).map fun j => f.getD (16 * (j / 8) + 8 * c + j % 8) 0
  match rsDecode (word 0), rsDecode (word 1) with
  | some a, some b =>
    let content := a.1.take 208 ++ b.1.take 208
    let body := content.take 408
    if fieldAt content 408 8 = (crc64 body).toNat then .good (FlitHead.of body) (body.drop 8) (a.2 + b.2)
    else .badCrc (a.2 + b.2)
  | _, _ => .uncorrectable

/-! ### Lane coding (R373, R374) -/

/-- The level of a PAM4 symbol, from its two bits (R373). -/
def pamLevel (b : BitVec 2) : Int :=
  if b = 0 then -3 else if b = 1 then -1 else if b = 3 then 1 else 3

/-- One bit of the lane scrambler's PRBS31 and the register after it. -/
def laneStep (v : Nat) : Bool × Nat :=
  let b := v.testBit 30 != v.testBit 27
  (b, (2 * v + (if b then 1 else 0)) % 2 ^ 31)

/-- The first n bits of the scrambler of a lane. -/
def laneBits : Nat → Nat → List Bool
  | 0, _ => []
  | n + 1, v => (laneStep v).1 :: laneBits n (laneStep v).2

/-- What lane l sends for a flit: its 56 bytes, bit 7 first, XOR the scrambler (R374, R376). -/
def laneSent (l : Nat) (flit : List Byte) : List Bool :=
  let mine := (List.range 56).flatMap fun k =>
    let b := flit.getD (8 * k + l) 0
    (List.range 8).map fun i => b.getLsbD (7 - i)
  List.zipWith (· != ·) mine (laneBits 448 ((l + 1) * 0x0F0F0F0F % 2 ^ 31))

/-! ### Packets as slots (R381) -/

/-- The sixteen bytes of a packet's header slot. -/
def packetHead (p : Packet) : List Byte :=
  natLe 1 (p.cls % 16 + 16 * (p.vc % 4)) ++ natLe 1 0 ++ natLe 2 (p.data.length / 16) ++ natLe 2 p.srcPos
    ++ natLe 2 p.dstPos ++ padTo 8 p.cword

/-- A packet's slots. -/
def packetSlots (p : Packet) : List Byte := packetHead p ++ p.data

/-- LEN of a header slot. -/
def headLen (h : List Byte) : Nat := fieldAt h 2 2 % 4096

/-- The packet whose slots these are. -/
def packetOf (b : List Byte) : Packet :=
  ⟨fieldAt b 0 1 % 16, fieldAt b 0 1 / 16 % 4, fieldAt b 4 2 % 1024, fieldAt b 6 2 % 1024, (b.drop 8).take 8, b.drop 16⟩

/-- The virtual channel of a class; none for a reserved class (R382). -/
def classVc (c : Nat) : Option Nat :=
  match c with
  | 1 => some 0
  | 2 => some 1
  | 3 => some 1
  | 4 => some 2
  | 5 => some 3
  | 6 => some 3
  | 7 => some 0
  | 8 => some 3
  | _ => none

end Sys2Proof.Machine
end

