-- ==== Sys2Proof/Machine/HbmOps.lean ====
section
/-! DEFINITION. Device memory as the controllers and the shared cache serve it: the interleave (R268), the
check scheme and marked data (R273, R274), unwritten shares (R276 to R278), the shared cache (R281 to R283),
the memory-side adders (R286 to R291) and injection at these sites (R525). -/

namespace Sys2Proof.Machine

/-! ### Addresses (R267-R269) -/

/-- The first address above device memory. -/
def hbmEnd : Nat := 0xF000000000
/-- The base of the firmware reserve. -/
def reserveBase : Nat := 0xEFF0000000

/-- The place of a physical address (R268). -/
structure HbmLoc where
  stack : Nat
  octet : Nat
  channel : Nat
  pc : Nat
  bank : Nat
  row : Nat
  col : Nat
  byte : Nat
  deriving DecidableEq, Repr

/-- The interleave of R268. -/
def hbmMap (pa : Nat) : HbmLoc :=
  let g := pa / 2 ^ 16
  let i := pa / 2 ^ 8 % 256
  let j := pa / 2 ^ 5 % 8
  let x := g / 5
  let k := (256 * (g % 5) + i) / 160
  let u := (256 * (g % 5) + i) % 160
  let slot := (u + 53 * x + x / 2 ^ 5) % 160
  let w := 8 * j + slot / 20
  let q := 8 * x + k
  let row := q / 2 ^ 11
  ⟨slot % 20, slot / 20, w / 2, w % 2, (q / 2 ^ 5 % 64) ^^^ (row % 64), row, q % 32, pa % 32⟩

/-- The BANK_ID of a line (R269). -/
def bankId (pa : Nat) : Nat :=
  let l := hbmMap pa
  (8 * l.stack + l.octet) * 64 + l.bank

/-- The stack of a line. -/
def stackOf (pa : Nat) : Nat := (hbmMap pa).stack

/-- The bank number of a granule (R528). -/
def granuleBank (g : Nat) : Nat := (g / 5 / 4 ^^^ g / 5 / 256) % 64

/-- A controller's share of a granule. -/
def shareOf (pa : Nat) : Nat := pa / 2 ^ 16 * 20 + stackOf pa

/-! ### The bank sets' queues (R270, R271) -/

/-- Put a ticket into its controller's ingress queue. -/
def Hbm.ingest (m : Hbm) (k : Ticket) : Hbm :=
  { m with ingress := SMap.updD m.ingress [] (4 * (k.bank / 512) + k.part) (· ++ [k]) }

/-- Read entries that a controller has admitted for a bank set. -/
def Hbm.admitted (m : Hbm) (bank : Nat) : Nat :=
  ((((List.range 4).flatMap fun p => SMap.getD m.ingress (4 * (bank / 512) + p) []) ++ SMap.getD m.bankQ bank []).filter
    fun k => k.bank == bank && k.kind == .read).length

/-- What waits in the request path of a bank set goes on as far as the controller admits it (R271). -/
def refillPath (bank : Nat) : Nat → Hbm → Hbm
  | 0, m => m
  | n + 1, m =>
    match SMap.getD m.pathQ bank [] with
    | [] => m
    | k :: ks =>
      if k.kind == .read && decide (1024 ≤ m.admitted bank) then m
      else refillPath bank n (Hbm.ingest { m with pathQ := SMap.setD m.pathQ [] bank ks } k)

/-- Refill from the request path of a bank set. -/
def Hbm.refill (bank : Nat) (m : Hbm) : Hbm := refillPath bank (SMap.getD m.pathQ bank []).length m

/-- Writes at the front of a bank set's queue have been served and leave it. -/
def dropServed (l : List Ticket) : List Ticket := l.dropWhile fun k => k.kind != .read

/-! ### Injection (R525) -/

/-- Let the armed slots that match an event act on it: their masks, with their counts lowered. -/
def injTake (p : Inj → Bool) (s : State) : List (BitVec 64) × State :=
  let hits := s.rse.inj.filter fun e => p e.2 && decide (e.2.after ≤ s.spine.tick)
  let inj := hits.foldl (fun m e =>
    if e.2.count ≤ 1 then SMap.del m e.1 else SMap.put m e.1 { e.2 with count := e.2.count - 1 }) s.rse.inj
  (hits.map (·.2.mask),
    if hits.isEmpty then s
    else ({ s with rse := { s.rse with inj := inj } } : State).rseCtr fun c => Ctrs.sat c 10 hits.length)

/-- The XOR of the masks that act on an event. -/
def injMask (p : Inj → Bool) (s : State) : BitVec 64 × Bool × State :=
  let r := injTake p s
  (r.1.foldl (· ^^^ ·) 0, !r.1.isEmpty, r.2)

/-! ### Shares and the bitmap (R276-R278) -/

/-- The share of an address has been written. -/
def Hbm.shareWritten (m : Hbm) (pa : Nat) : Bool := m.written.contains (shareOf pa)

/-- Both bitmap copies of the share have failed. -/
def Hbm.shareBad (m : Hbm) (pa : Nat) : Bool := SMap.getD m.bitmapBad (shareOf pa) 0 == 3

/-- A log record of a controller for an address (R497). -/
def ctrlRecord (cause status pa : Nat) : LogRec :=
  let l := hbmMap pa
  { LogRec.atPa (LogRec.make 3 cause status l.stack) pa with
    bankId := bankId pa, row := l.row, mch := l.channel + 32 * l.pc }

/-- A lookup of the bit of a share: injected parity failures are repaired from the other copy, or make the
share poisoned when both copies fail (R276). -/
def bitmapLookup (pa : Nat) (s : State) : State :=
  let r := injMask (fun e => e.site == 8 && e.loc == stackOf pa && e.loc2 == pa / 2 ^ 16) s
  let n := r.1.toNat % 4
  if n = 0 then r.2.2
  else
    let s := (r.2.2).memCtr fun c => Ctrs.sat c 10 (if n = 3 then 2 else 1)
    let s := logError ((ctrlRecord 0 St.ok pa).injected true) s
    if n = 3 then { s with mem := { s.mem with bitmapBad := SMap.put s.mem.bitmapBad (shareOf pa) 3 } } else s

/-- The first write of a share fills the rest of it with zero and sets its bit (R277). -/
def touchShare (pa : Nat) (s : State) : State :=
  if s.mem.shareWritten pa then s
  else
    let s := s.memCtr fun c => Ctrs.sat c 4 1
    { s with mem := { s.mem with written := NSet.insert s.mem.written (shareOf pa) } }

/-- Mark whole granules unwritten (R48, R279): their bytes, marks and cached lines are dropped (15). -/
def markUnwritten (g n : Nat) (s : State) : State :=
  { s with mem := { s.mem with
    written := NSet.cut s.mem.written (g * 20) (n * 20)
    bitmapBad := SMap.cut s.mem.bitmapBad (g * 20) (n * 20)
    bytes := Mem.zero s.mem.bytes (g * 2 ^ 16) (n * 2 ^ 16)
    poison := NSet.cut s.mem.poison (g * 2 ^ 11) (n * 2 ^ 11)
    damage := SMap.cut s.mem.damage (g * 2 ^ 11) (n * 2 ^ 11)
    shc := SMap.cut s.mem.shc (g * 2 ^ 8) (n * 2 ^ 8) } }

/-! ### Sectors (R273, R274) -/

/-- How many bytes of a sector and of its check field an error touches. -/
def bytesHit (d : BitVec 64) (c : BitVec 16) : Nat :=
  (((natLe 8 d.toNat).filter (· != 0)).length) + (((natLe 2 c.toNat).filter (· != 0)).length)

/-- Bytes with a mask XORed into the first eight. -/
def xorHead (bs : List Byte) (d : BitVec 64) : List Byte :=
  (List.zipWith (· ^^^ ·) bs (natLe 8 d.toNat)) ++ bs.drop 8

/-- A sector is returned marked bad: counted and logged with cause 0x40 (R274). -/
def markBad (pa status : Nat) (poisoned inj : Bool) (s : State) : State :=
  let s := s.memCtr fun c => Ctrs.sat c 7 1
  let r := (ctrlRecord 0x40 status pa).injected inj
  logError (if poisoned then { r with flags := r.flags ||| 32 } else r) s

/-- The damage that a read of sector `k` meets: masks over bytes 0-7 and over the check field, whether an
injection made it, and the effects (R525). -/
def sectorDamage (k : Nat) (s : State) : BitVec 64 × BitVec 16 × Bool × State :=
  let r1 := injMask (fun e => e.site == 1 && !e.store && e.loc / 32 == k) s
  let r2 := injMask (fun e => e.site == 2 && !e.store && e.loc / 32 == k) r1.2.2
  let d := SMap.getD s.mem.damage k ⟨0, 0⟩
  (d.data ^^^ r1.1, d.check ^^^ BitVec.setWidth 16 r2.1, r1.2.1 || r2.2.1 || d != ⟨0, 0⟩, r2.2.2)

/-- What the controller code makes of a sector's damage: its bytes, whether it is marked bad, and the
effects (R273, R274). -/
def sectorJudge (k : Nat) (d : BitVec 64 × BitVec 16 × Bool × State) : List Byte × Bool × State :=
  let pa := 32 * k
  let s := d.2.2.2
  let data := Mem.readN s.mem.bytes pa 32
  match bytesHit d.1 d.2.1 with
  | 0 => (data, false, s)
  | 1 =>
    let s := s.memCtr fun c => Ctrs.sat c 5 1
    (data, false, logError ((ctrlRecord 0 St.ok pa).injected d.2.2.1) s)
  | _ => (xorHead data d.1, true, markBad pa St.uncorrectable false d.2.2.1 s)

/-- Read sector `k` (PA ÷ 32) from its stack: its bytes, whether it is marked bad, and the effects. -/
def sectorRead (k : Nat) (s : State) : List Byte × Bool × State :=
  let pa := 32 * k
  if s.mem.poison.contains k || s.mem.shareBad pa then
    (Mem.readN s.mem.bytes pa 32, true, markBad pa St.poison true false s)
  else sectorJudge k (sectorDamage k s)

/-- Whole-sector write at a controller: the damage of a STORE injection replaces what was there (R525). -/
def sectorStored (k : Nat) (bad : Bool) (s : State) : State :=
  let r1 := injMask (fun e => e.site == 1 && e.store && e.loc / 32 == k) s
  let r2 := injMask (fun e => e.site == 2 && e.store && e.loc / 32 == k) r1.2.2
  let s := r2.2.2
  { s with mem := { s.mem with
    poison := NSet.setTo s.mem.poison k bad
    damage := SMap.setD s.mem.damage ⟨0, 0⟩ k ⟨r1.1, BitVec.setWidth 16 r2.1⟩ } }

/-- The sectors that a byte range touches. -/
def sectorsOf (pa len : Nat) : List Nat :=
  if len = 0 then [] else (List.range ((pa + len - 1) / 32 - pa / 32 + 1)).map (· + pa / 32)

/-- Read a range of one line from its stack. -/
def stackRead (pa len : Nat) (s : State) : List Byte × List Nat × State :=
  let s := bitmapLookup pa s
  let secs := sectorsOf pa len
  if !s.mem.shareWritten pa && !s.mem.shareBad pa then
    (Mem.readN s.mem.bytes pa len, [], s.memCtr fun c => Ctrs.wrap c 3 secs.length)
  else
    let s := s.memCtr fun c => Ctrs.wrap c 0 1
    let r := secs.foldl (fun (a : List Byte × List Nat × State) k =>
      let x := sectorRead k a.2.2
      (a.1 ++ x.1, (if x.2.1 then a.2.1 ++ [k] else a.2.1), x.2.2)) ([], [], s)
    ((r.1.drop (pa % 32)).take len, r.2.1, r.2.2)

/-- Write a range of one line to its stack: whole sectors are written, parts are merged, and the sectors in `bad`
are marked (R274). -/
def stackWrite (pa : Nat) (data : List Byte) (bad : List Nat) (s : State) : State :=
  let s := touchShare pa (bitmapLookup pa s)
  let s := s.memCtr fun c => Ctrs.wrap c 1 1
  (sectorsOf pa data.length).foldl (fun s k =>
    let a := max pa (32 * k)
    let e := min (pa + data.length) (32 * k + 32)
    let part := (data.drop (a - pa)).take (e - a)
    let old : Bool × State := if part.length = 32 then (false, s) else
      let x := sectorRead k s
      (x.2.1, x.2.2)
    let s := old.2
    sectorStored k (bad.contains k || old.1) { s with mem := { s.mem with bytes := Mem.writeN s.mem.bytes a part } }) s

/-! ### The shared cache (R281-R283) -/

/-- The parity of some byte of a damage mask fails: an odd number of its bits is flipped (R273). -/
def parityFails (mask : BitVec 64) : Bool :=
  (natLe 8 mask.toNat).any fun b => (List.range 8).foldl (fun o i => o != b.getLsbD i) false

/-- Take a line out of the cache, writing it back when it is dirty; damaged dirty lines are written back
poisoned (R273). -/
def shcEvict (line : Nat) (s : State) : State :=
  match SMap.lookup s.mem.shc line with
  | none => s
  | some e =>
    let s := { s with mem := { s.mem with shc := SMap.del s.mem.shc line } }
    if !e.dirty then s
    else
      let pa := 256 * line
      let s := touchShare pa (bitmapLookup pa s)
      let s := s.memCtr fun c => Ctrs.wrap c 1 1
      let s := if parityFails e.mask then
        logError ((LogRec.atPa (LogRec.make 4 0x40 St.uncorrectable (stackOf pa / 5)) pa).injected true)
          ((s.memCtr fun c => Ctrs.sat c 14 1).memCtr fun c => Ctrs.sat c 7 1)
        else { s with mem := { s.mem with
          bytes := Mem.writeN s.mem.bytes pa (xorHead (Mem.readN s.mem.bytes pa 8) e.mask) } }
      (List.range 8).foldl (fun s j =>
        let k := 8 * line + j
        sectorStored k (parityFails e.mask || s.mem.poison.contains k) s) s

/-- Make a line the most recently used. -/
def shcTouch (line : Nat) (f : ShcLine → ShcLine) (s : State) : State :=
  { s with mem := { s.mem with
    shcClock := s.mem.shcClock + 1
    shc := SMap.upd s.mem.shc line fun e => { f e with stamp := s.mem.shcClock } } }

/-- The lines that share a line's set in its home slice. -/
def shcPeers (s : State) (line : Nat) : List (Nat × ShcLine) :=
  s.mem.shc.filter fun p =>
    stackOf (256 * p.1) / 5 == stackOf (256 * line) / 5 && Config.shcSet p.1 == Config.shcSet line

/-- The least recently used of some lines. -/
def shcOldest : List (Nat × ShcLine) → Option Nat
  | [] => none
  | p :: ps =>
    some ((ps.foldl (fun (b : Nat × ShcLine) q => if q.2.stamp < b.2.stamp then q else b) p).1)

/-- Allocate a line that missed: the oldest of 16 ways leaves, and the stack fills the line. A sector read
bad is held as poisoned (24). -/
def shcFill (line part : Nat) (s : State) : State :=
  let s := s.memCtr fun c => Ctrs.wrap c 12 1
  let peers := shcPeers s line
  let s := if peers.length < 16 then s else match shcOldest peers with
    | some v => shcEvict v s
    | none => s
  let r := stackRead (256 * line) 256 s
  let s := r.2.2
  let s := { s with mem := { s.mem with
    poison := NSet.addAll s.mem.poison r.2.1, shc := SMap.put s.mem.shc line ⟨false, part, 0, 0⟩ } }
  shcTouch line id s

/-- A line is read in its slice: what is injected there damages the stored line (R525). When the read looks at bytes 0-7
and meets damage (R273), a clean line is fetched again and a dirty one is written back poisoned. Answers the state in
which the read goes on, at the stack when the line has left. -/
def shcParity (line : Nat) (look : Bool) (s : State) : State :=
  let pa := 256 * line
  match SMap.lookup s.mem.shc line with
  | none => s
  | some e =>
    let r := injMask (fun x => x.site == 7 && x.loc / 256 == line) s
    let s := r.2.2
    let mask := e.mask ^^^ r.1
    if !look || !parityFails mask then
      { s with mem := { s.mem with shc := SMap.put s.mem.shc line { e with mask := mask } } }
    else if e.dirty then
      shcEvict line { s with mem := { s.mem with shc := SMap.put s.mem.shc line { e with mask := mask } } }
    else
      let s := { s with mem := { s.mem with shc := SMap.del s.mem.shc line } }
      let s := s.memCtr fun c => Ctrs.sat c 14 1
      let s := logError ((LogRec.atPa (LogRec.make 4 0 St.ok (stackOf pa / 5)) pa).injected true) s
      shcFill line e.part s

/-! ### Requests of one line and of a range -/

/-- Read a range of one line through its home slice (R282): bytes, sectors marked bad, effects. -/
def lineRead (pa len : Nat) (s : State) : List Byte × List Nat × State :=
  let line := pa / 256
  let s := if 0 < len then shcParity line (decide (pa % 256 < 8)) s else s
  match SMap.lookup s.mem.shc line with
  | some e =>
    let s := shcTouch line id (s.memCtr fun c => Ctrs.wrap c 11 1)
    let bad := (sectorsOf pa len).filter fun k => s.mem.poison.contains k
    let data := xorHead (Mem.readN s.mem.bytes (256 * line) 256) e.mask
    ((data.drop (pa % 256)).take len, bad, bad.foldl (fun s k => markBad (32 * k) St.poison true false s) s)
  | none => stackRead pa len s

/-- The damage mask of a resident line that a write of some of bytes 0-7 leaves. -/
def maskAfter (mask : BitVec 64) (pa len : Nat) : BitVec 64 :=
  BitVec.ofNat 64 (leNat (((natLe 8 mask.toNat).zip (List.range 8)).map fun p =>
    if pa % 256 ≤ p.2 ∧ p.2 < pa % 256 + len then 0 else p.1))

/-- Write a range of a resident line; the sectors in `bad` are marked. -/
def shcWrite (pa : Nat) (data : List Byte) (bad : List Nat) (s : State) : State :=
  let s := shcTouch (pa / 256) (fun e => { e with dirty := true, mask := maskAfter e.mask pa data.length }) s
  let good := (sectorsOf pa data.length).filter fun k =>
    !bad.contains k && decide (pa ≤ 32 * k ∧ 32 * k + 32 ≤ pa + data.length)
  { s with mem := { s.mem with
    bytes := Mem.writeN s.mem.bytes pa data
    poison := NSet.addAll (s.mem.poison.filter fun k => !good.contains k) bad } }

/-- Write a range of one line through its home slice; the sectors in `bad` are marked. -/
def lineWrite (pa : Nat) (data : List Byte) (bad : List Nat) (s : State) : State :=
  if (SMap.lookup s.mem.shc (pa / 256)).isSome then shcWrite pa data bad (s.memCtr fun c => Ctrs.wrap c 11 1)
  else stackWrite pa data bad s

/-- Write a range of one line; with the cache hint a line that misses is allocated first (R282). -/
def writeHinted (hint : Bool) (part pa : Nat) (data : List Byte) (bad : List Nat) (s : State) : State :=
  if hint && (SMap.lookup s.mem.shc (pa / 256)).isNone then shcWrite pa data bad (shcFill (pa / 256) part s)
  else lineWrite pa data bad s

/-- Read a range of one line; with the cache hint a line that misses is allocated first (R282). -/
def readHinted (hint : Bool) (part pa len : Nat) (s : State) : List Byte × List Nat × State :=
  if hint && (SMap.lookup s.mem.shc (pa / 256)).isNone then
    let s := shcFill (pa / 256) part s
    (Mem.readN s.mem.bytes pa len, (sectorsOf pa len).filter fun k => s.mem.poison.contains k, s)
  else lineRead pa len s

/-- Read a range of one line for a fetch engine: the whole line is read, and the part is what returns (R343). -/
def wholeRead (hint : Bool) (part pa len : Nat) (s : State) : List Byte × List Nat × State :=
  let r := readHinted hint part (pa / 256 * 256) 256 s
  ((r.1.drop (pa % 256)).take len, r.2.1.filter fun k => (sectorsOf pa len).contains k, r.2.2)

/-- The lines that a byte range touches, with the part of the range in each: address and length. -/
def linePieces (pa len : Nat) : List (Nat × Nat) :=
  if len = 0 then []
  else (List.range ((pa + len - 1) / 256 - pa / 256 + 1)).map fun i =>
    let b := (pa / 256 + i) * 256
    (max pa b, min (pa + len) (b + 256) - max pa b)

/-- Read a range of device memory: bytes, sectors marked bad, effects. -/
def hbmRead (pa len : Nat) (s : State) : List Byte × List Nat × State :=
  (linePieces pa len).foldl (fun (a : List Byte × List Nat × State) p =>
    let r := lineRead p.1 p.2 a.2.2
    (a.1 ++ r.1, a.2.1 ++ r.2.1, r.2.2)) ([], [], s)

/-- Write a range of device memory line by line; `bad` lists the offsets ÷ 32 of the sectors that are marked. -/
def hbmWriteHinted (hint : Bool) (part pa : Nat) (data : List Byte) (bad : List Nat) (s : State) : State :=
  (linePieces pa data.length).foldl (fun s p =>
    writeHinted hint part p.1 ((data.drop (p.1 - pa)).take p.2)
      ((sectorsOf p.1 p.2).filter fun k => bad.contains (k - pa / 32)) s) s

/-- Write a range of device memory whose sectors are marked one by one. -/
def hbmWriteMarked (pa : Nat) (data : List Byte) (bad : List Nat) (s : State) : State :=
  hbmWriteHinted false 0 pa data bad s

/-- Write a range of device memory with data that is marked bad as a whole, or not at all. -/
def hbmWrite (pa : Nat) (data : List Byte) (bad : Bool) (s : State) : State :=
  hbmWriteMarked pa data (if bad then List.range ((data.length + 62) / 32) else []) s

/-! ### Memory-side adders (R283, R286-R291) -/

/-- Apply word updates to one line in its controller: a resident line leaves the cache first (R283); the
words are read, updated and written (R290). A sector whose read is bad stays poisoned (R274). Each update
is an address, a width in bytes and a function of the old word. -/
def adderLine (pa : Nat) (upds : List (Nat × Nat × (Nat → Nat))) (s : State) : State :=
  let line := pa / 256
  let s := if (SMap.lookup s.mem.shc line).isSome then
      shcEvict line (s.memCtr fun c => Ctrs.sat c 13 1)
    else s
  let s := touchShare pa (bitmapLookup pa s)
  let s := s.memCtr fun c => Ctrs.wrap c 2 1
  let secs := (List.range 8).filter fun j => upds.any fun u => u.1 / 32 == 8 * line + j
  secs.foldl (fun s j =>
    let k := 8 * line + j
    let r := sectorRead k s
    let s := r.2.2
    let mine := upds.filter fun u => u.1 / 32 == k
    let bytes := mine.foldl (fun m u => Mem.writeN m u.1 (natLe u.2.1 (u.2.2 (leNat (Mem.readN m u.1 u.2.1)))))
      s.mem.bytes
    sectorStored k r.2.1 { s with mem := { s.mem with bytes := bytes } }) s

/-- The NaN code of R74. -/
def fxNan : Nat := 2 ^ 63

/-- A contribution as a fixed-point word at exponent E, and whether FXSAT is raised (R74). -/
def fxWord (e : Int) (x : Num) : Nat × Bool :=
  match x with
  | .nan => (fxNan, false)
  | .inf n => (twos 64 (if n then -(2 ^ 53 - 1) else 2 ^ 53 - 1), true)
  | .fin n m ex =>
    let i := (roundMag m (ex + 52 - e) 0 .rne).1
    let sat := i > 2 ^ 53 - 1
    let i := if sat then 2 ^ 53 - 1 else i
    (twos 64 (if n then -(i : Int) else i), sat)

/-- The sum of two fixed-point words (R75). -/
def fxAdd (a b : Nat) : Nat := if a = fxNan ∨ b = fxNan then fxNan else (a + b) % 2 ^ 64

/-- The region and block of a granule (R288). -/
def Hbm.fxFind (m : Hbm) (g : Nat) : Option (Nat × Nat) :=
  m.fx.findSome? fun p => (p.2.frames.findIdx? (· == g)).map fun i => (p.1, i)

/-- A block of a region. -/
def Hbm.fxBlock (m : Hbm) (r i : Nat) : FxBlock :=
  match SMap.lookup m.fx r with
  | some x => SMap.getD x.blocks i FxBlock.reset
  | none => FxBlock.reset

/-- Change a block. -/
def Hbm.modFx (m : Hbm) (r i : Nat) (f : FxBlock → FxBlock) : Hbm :=
  { m with fx := SMap.upd m.fx r fun x => { x with blocks := SMap.updD x.blocks FxBlock.reset i f } }

/-- Count one contribution's statistics in its block (R81, R88). -/
def fxCount (r i : Nat) (x : Num) (sat : Bool) (s : State) : State :=
  let s := if sat then s.numCtr fun c => Ctrs.sat c 2 1 else s
  let s := if numIsNaN x then s.numCtr fun c => Ctrs.sat c 3 1 else s
  { s with mem := s.mem.modFx r i fun b => { b with
    satU := b.satU || sat
    amaxU := if numIsFin x then max32 b.amaxU (round32 (numAbs x)).1 else b.amaxU } }

/-- Add up to 32 contributions to the words from `pa` on, at 8 bytes each (R289). -/
def fxAddLine (pa : Nat) (xs : List Num) (s : State) : State :=
  match s.mem.fxFind (pa / 2 ^ 16) with
  | none => s
  | some (r, i) =>
    let e := (s.mem.fxBlock r i).e
    let ws := xs.map (fxWord e)
    let s := (xs.zip ws).foldl (fun s p => fxCount r i p.1 p.2.2 s) s
    adderLine pa (((List.range xs.length).zip ws).map fun p => (pa + 8 * p.1, 8, fxAdd p.2.1)) s

/-- The elements of a line of FP32 or BF16 contributions. -/
def contributions (wide : Bool) (data : List Byte) : List Num :=
  if wide then (List.range (data.length / 4)).map fun i => decodeFp fp32 (fieldAt data (4 * i) 4)
  else (List.range (data.length / 2)).map fun i => decodeFp bf16 (fieldAt data (2 * i) 2)

/-- A relaxed float add into one word, rounded once (R78, R286). -/
def relaxedAdd (wide : Bool) (x old : Nat) : Nat :=
  if wide then (add32 (BitVec.ofNat 32 old) (BitVec.ofNat 32 x)).1.toNat
  else
    let v := numAdd (decodeFp bf16 old) (decodeFp bf16 x)
    (convertFp bf16 false .rne v).1

/-- Apply a memory operation with data to one line's words (R286): 1 IADD32, 2 IADD64, 3 FMAX32, 4 FADD32,
5 FADDBF16. -/
def memOpLine (op : Nat) (relaxed : Bool) (pa : Nat) (data : List Byte) (s : State) : State :=
  let words (w : Nat) (f : Nat → Nat → Nat) : State :=
    adderLine pa ((List.range (data.length / w)).map fun i => (pa + w * i, w, f (fieldAt data (w * i) w))) s
  match op with
  | 1 => words 4 fun x o => (o + x) % 2 ^ 32
  | 2 => words 8 fun x o => (o + x) % 2 ^ 64
  | 3 => words 4 fun x o => (max32 (BitVec.ofNat 32 o) (BitVec.ofNat 32 x)).toNat
  | 4 => if relaxed then words 4 (relaxedAdd true) else fxAddLine pa (contributions true data) s
  | 5 => if relaxed then words 2 (relaxedAdd false) else fxAddLine pa (contributions false data) s
  | _ => lineWrite pa data [] s

/-- A word finalised to FP32 or BF16 (R77): its bytes and whether FXSAT is raised. -/
def fxFinal (wide : Bool) (e : Int) (w : Nat) : List Byte × Bool :=
  let f := if wide then fp32 else bf16
  let n := if wide then 4 else 2
  if w = fxNan then (natLe n (f.nanCode.getD 0), false)
  else
    let z := signedOf 64 w
    let r := convertFp f true .rne (.fin (decide (z < 0)) z.natAbs (e - 52))
    (natLe n r.1, r.2.ovf)

/-- Finalise the 32 words of one line: values, sectors marked bad, effects (R77, R291). -/
def finalLine (wide : Bool) (pa : Nat) (s : State) : List Byte × List Nat × State :=
  let e := match s.mem.fxFind (pa / 2 ^ 16) with
    | some (r, i) => (s.mem.fxBlock r i).e
    | none => 0
  let r := lineRead pa 256 s
  let vs := (List.range 32).map fun i => fxFinal wide e (fieldAt r.1 (8 * i) 8)
  let n := (vs.filter (·.2)).length
  (vs.flatMap (·.1), r.2.1, (r.2.2).numCtr fun c => if n = 0 then c else Ctrs.sat c 2 n)

/-! ### Lines charged to a partition (R296, R297) -/

/-- A partition's regulator record. -/
def Hbm.reg (m : Hbm) (p : Nat) : RegRec := SMap.getD m.regs p RegRec.reset

/-- A line that no ticket waits for is charged to a partition at its controller, when a grant's rules would let it go (R297):
by its floor bucket, by its ceiling bucket, without a cap, or by borrowing. -/
def chargeLine (part c : Nat) (m : Hbm) : Option Hbm :=
  let i := 4 * c + part
  let r := m.reg part
  if 256 ≤ SMap.getD m.floorB i 0 ∨ r.ceil = 0 ∨ 256 ≤ SMap.getD m.ceilB i 0 ∨ r.borrow then
    some { m with
      floorB := SMap.updD m.floorB 0 i (· - 256), ceilB := SMap.updD m.ceilB 0 i (· - 256)
      prg := Ctrs.wrap m.prg (3 * part) 1 }
  else none

/-- The lines of a range are charged to a partition (R326, R543); none when one of them must wait. -/
def chargeLines (part pa len : Nat) (m : Hbm) : Option Hbm :=
  (linePieces pa len).foldl (fun (m : Option Hbm) p => m.bind (chargeLine part (stackOf p.1))) (some m)

/-! ### Fabric transfers (R25, R26) and retained state (R494) -/

/-- The die that holds the stack of an address: stack s on die s div 5 (00_scope.md). -/
def stackDie (pa : Nat) : Nat := stackOf pa / 5

/-- The dies whose fabric a transfer between two dies enters, the receiver last: between D0 and D3, and between D1 and
D2, bit 16 of the address names the die that it passes through (R24). -/
def fabricPath (a b pa : Nat) : List Nat :=
  if a = b then [a]
  else if a + b = 3 then
    let lo := if a = 0 ∨ b = 0 then 1 else 0
    [a, if pa / 2 ^ 16 % 2 = 0 then lo else 3 - lo, b]
  else [a, b]

/-- How many consecutive transfers of one word fail parity: an injected mask with an odd number of flipped
bits in the word fails, and each failed transfer is replayed as a transfer of its own (25). Answers the
number of failures, up to five, and the damage that passed undetected. -/
def fabricTry (die : Nat) : Nat → State → Nat × BitVec 64 × State
  | 0, s => (0, 0, s)
  | n + 1, s =>
    let r := injMask (fun e => e.site == 5 && e.loc == die) s
    let w := BitVec.setWidth 32 r.1
    let odd := (List.range 32).foldl (fun b i => b != w.getLsbD i) false
    if odd then
      let x := fabricTry die n r.2.2
      (x.1 + 1, x.2.1, x.2.2)
    else (0, BitVec.setWidth 64 w, r.2.2)

/-- Pass a transfer through the fabrics of the dies on its path, counting its replays (R25): the die in which it
failed five times (R26), else the damage to its first 32-bit word that passed undetected. -/
def fabricCross : List Nat → State → Option Nat × BitVec 64 × State
  | [], s => (none, 0, s)
  | d :: ds, s =>
    let x := fabricTry d 5 s
    let s : State := { x.2.2 with rse := { x.2.2.rse with odfReplay := min (x.2.2.rse.odfReplay + min x.1 4) ctrMax } }
    if x.1 = 5 then (some d, 0, s)
    else
      let r := fabricCross ds s
      (r.1, x.2.1 ^^^ r.2.1, r.2.2)

/-- The granule backs a page of a partition whose VA lies in [va, va + len). -/
def State.paInVa (s : State) (part va len pa : Nat) : Bool :=
  s.ptu.pages.any fun p =>
    p.1 / 2 ^ 36 == part && p.2.tier == 1
      && p.2.frame ≤ pa / 2 ^ 16 && pa / 2 ^ 16 < p.2.frame + (if p.2.big then 32 else 1)
      && (let a := p.1 % 2 ^ 36 * 2 ^ 16 + (pa - p.2.frame * 2 ^ 16)
          decide (va ≤ a ∧ a < va + len))

/-- The bytes of a bank of n elements (R506). -/
def bankBytes (n : Nat) : Nat := 6 * n + n / 16

/-- The index of the current bank: that of the last committed step. -/
def State.curBank (s : State) : Nat := (s.spine.committed.getD 0) % 2

/-- The address lies in the current bank or the current mirror bank (R494). -/
def State.retained (s : State) (pa : Nat) : Bool :=
  let m := s.rse.mirror
  (m.n != 0 && s.paInVa m.part (if s.curBank = 0 then m.bank0 else m.bank1) (bankBytes m.n) pa)
    || (m.mirrorOf != 0xFFFF && m.mn != 0
      && s.paInVa m.part (if s.curBank = 0 then m.mbank0 else m.mbank1) (bankBytes m.mn) pa)

end Sys2Proof.Machine
end

