-- ==== Sys2Proof/Machine/LinkTx.lean ====
section
/-! DEFINITION. A Tawa Link's transmitter (R384 to R388, R395, R396, R406). -/

namespace Sys2Proof.Machine

/-! ### Training begins (R390, R395) -/

/-- A link starts training at step 1 with nothing kept of what it carried: sequence numbers, buffers and credits begin
again (R390). What is known of the partner's signal stays while the receivers listen (R395). -/
def Link.fresh (x : Link) (st : Nat) : Link :=
  { Link.reset with
    st := st, step := 1, refusal := x.refusal, refused := x.refused, outSince := x.outSince, dropped := x.dropped
    ctrs := x.ctrs, testBits := x.testBits, testErrs := x.testErrs
    latency := x.latency, cls := x.cls, signal := x.signal && (st == 1 || st == 4) }

/-- The link trains: at first, or again after a retrain. -/
def Link.training (x : Link) : Bool := (x.st == 1 || x.st == 4) && !x.dropped

/-- A link starts training: the pattern goes out on every lane (R395 step 1), unless an injection holds the link in
electrical idle (R525). -/
def beginTraining (l st : Nat) (s : State) : State :=
  let s := s.modLink l fun x => x.fresh st
  if (s.link l).dropped then s else s.emit (.pattern l)

/-- Links leave the electrical idle of an injection: those that train send the pattern again. -/
def endDrop (links : List Nat) (s : State) : State :=
  links.foldl (fun s l => if (s.link l).dropped then
    let s := s.modLink l fun x => { x with dropped := false }
    if (s.link l).training then s.emit (.pattern l) else s else s) s

/-! ### The transmitter (R384 to R388) -/

/-- The last data flit accepted in order. -/
def Link.rxAck (x : Link) : Nat := (x.rxNext + 4095) % 4096

/-- The header of a flit that a link sends next; the VCs of CREDITS take turns (R384, R387). -/
def Link.head (x : Link) (type seq first : Nat) (nak : Bool) : FlitHead :=
  ⟨type, seq, x.rxAck, true, nak, x.cvc, SMap.getD x.freed x.cvc 0 % 4096, first⟩

/-- Bytes with a mask XORed into the eight at an offset. -/
def xorAt (bs : List Byte) (o : Nat) (m : BitVec 64) : List Byte :=
  (splice bs o (List.zipWith (· ^^^ ·) ((bs.drop o).take 8) (natLe 8 m.toNat))).take bs.length

/-- A data flit leaves on a link: armed slots of site 6 damage eight of its bytes (R525). -/
def putDataFlit (l : Nat) (bytes : List Byte) (s : State) : State :=
  let hit (e : Inj) : Bool := e.site == 6 && e.loc == l
  let acts := s.rse.inj.filter fun e => hit e.2 && decide (e.2.after ≤ s.spine.tick)
  (injTake hit s).2.emit (.flit l (acts.foldl (fun b e => xorAt b e.2.loc2 e.2.mask) bytes))

/-- Slots of a VC beyond its reserve of 1,024, with `n` more on VC `v` (R384). -/
def Link.shared (x : Link) (v n : Nat) : Nat :=
  ((List.range 4).map fun c =>
    SMap.getD x.sentSlots c 0 + (if c = v then n else 0) - SMap.getD x.freedSeen c 0 - 1024).foldl (· + ·) 0

/-- Slots of a packet. -/
def slotsOf (p : Packet) : Nat := 1 + p.data.length / 16

/-- The waiting packet of a VC, when credit is held for all of it: the reserve and 36,864 shared slots. -/
def Link.ready (x : Link) (v : Nat) : Option Packet :=
  match SMap.getD x.queues v [] with
  | p :: _ => if x.shared v (slotsOf p) ≤ 36864 then some p else none
  | [] => none

/-- A packet waits for credit (R385). -/
def Link.starved (x : Link) : Bool := (List.range 4).any fun v => !(SMap.getD x.queues v []).isEmpty && (x.ready v).isNone

/-- A link has sent a flit: the next VC takes its turn, and a packet without credit has waited for one flit time (R384,
R385). -/
def Link.sent (x : Link) : Link :=
  { x with cvc := (x.cvc + 1) % 4, ctrs := if x.starved then Ctrs.sat x.ctrs 10 1 else x.ctrs }

/-- Send a data flit that the replay buffer keeps. -/
def sendFlit (l : Nat) (first : Nat) (payload : List Byte) (s : State) : State :=
  let x := s.link l
  let s := putDataFlit l (flitBytes (x.head 1 x.txSeq first false) payload) s
  s.modLink l fun x => ({ x with
    txSeq := (x.txSeq + 1) % 4096
    replay := x.replay ++ [(x.txSeq, first, payload)]
    ctrs := Ctrs.wrap x.ctrs 0 1 } : Link).sent

/-- Send a data flit of the replay buffer again. -/
def resendFlit (l : Nat) (r : Nat × Nat × List Byte) (s : State) : State :=
  (putDataFlit l (flitBytes ((s.link l).head 1 r.1 r.2.1 false) r.2.2) s).modLink l Link.sent

/-- Send an idle flit, with NAK when the last one is to be named again. -/
def sendIdle (l : Nat) (nak : Bool) (s : State) : State :=
  (s.emit (.flit l (flitBytes ((s.link l).head 0 0 31 nak) []))).modLink l Link.sent

/-- Send a control flit, with its message in slots 0 and 1 (R396). -/
def sendControl (l : Nat) (m : List Byte) (s : State) : State :=
  (s.emit (.flit l (flitBytes ((s.link l).head 2 0 31 false) m))).modLink l Link.sent

/-- The packet that goes next: VC0 first, then VC1 to VC3 in turn (R385). -/
def Link.choose (x : Link) : Option (Nat × Packet) :=
  match x.ready 0 with
  | some p => some (0, p)
  | none => ([0, 1, 2].map fun i => (x.rr - 1 + i) % 3 + 1).findSome? fun v => (x.ready v).map fun p => (v, p)

/-- Every place of the replay buffer holds a flit that is not acknowledged (R386). -/
def Link.full (x : Link) : Bool := decide (2048 ≤ x.replay.length)

/-- Send the whole flits that the waiting slots fill, while the replay buffer has room; `flush` also sends a part of one. -/
def pushSlots (l : Nat) (flush : Bool) : Nat → State → State
  | 0, s => s
  | n + 1, s =>
    let x := s.link l
    if x.txSlots.isEmpty || (x.txSlots.length < 400 && !flush) || x.full then s
    else
      let s := sendFlit l x.txFirst (x.txSlots.take 400) s
      pushSlots l flush n (s.modLink l fun y => { y with txSlots := x.txSlots.drop 400, txFirst := 31 })

/-- A packet as it leaves: a SYNC is stamped with the Spine time at which its flit departs (R411, R412). -/
def stamped (p : Packet) (s : State) : Packet :=
  if p.cls = 1 ∧ fieldAt p.cword 0 1 = 1 then
    { p with
      cword := p.cword.take 2 ++ natLe 6 s.spine.tick
      data := natLe 2 s.spine.phase ++ p.data.drop 2 }
  else p

/-- A packet that was chosen starts: its slots follow those of the packet before it (R381, R385). -/
def startPacket (l v : Nat) (p : Packet) (s : State) : State :=
  let at_ := (s.link l).txSlots.length / 16
  s.modLink l fun x => { x with
    queues := SMap.updD x.queues [] v (·.drop 1)
    sentSlots := SMap.updD x.sentSlots 0 v (· + slotsOf p)
    rr := if v = 0 then x.rr else v % 3 + 1
    txFirst := if x.txFirst = 31 then at_ else x.txFirst
    txSlots := x.txSlots ++ packetSlots (stamped p s) }

/-- Send the VC0 packets that wait on a link, so that a FAULT leaves before the device isolates itself (R401, R530,
R627, 142). -/
def sendUrgent (l : Nat) : Nat → State → State
  | 0, s => s
  | n + 1, s =>
    match (s.link l).ready 0 with
    | some p =>
      if (s.link l).full || decide (400 ≤ (s.link l).txSlots.length) then s
      else sendUrgent l n (pushSlots l true 166 (startPacket l 0 p s))
    | none => s

/-! ### Discarding what stopped channels had to send (R406) -/

/-- The packet carries a channel's traffic: collective data, a pipeline transfer or a quire (R382). -/
def ofChannel (cls : Nat) : Bool := cls == 2 || cls == 3 || cls == 4

/-- The packets that wait in slots which no flit has taken. -/
def splitSlots : Nat → List Byte → List (List Byte)
  | 0, _ => []
  | n + 1, b => if b.isEmpty then [] else
    let k := 16 * (1 + headLen b)
    b.take k :: splitSlots n (b.drop k)

/-- The traffic of stopped channels that a link has not begun to send is discarded (R406). -/
def Link.dropTraffic (x : Link) : Link :=
  let begun := if x.txFirst = 31 then x.txSlots else x.txSlots.take (16 * x.txFirst)
  let all := splitSlots 25 (x.txSlots.drop begun.length)
  let keep := all.filter fun b => !ofChannel (packetOf b).cls
  let gone := (all.filter fun b => ofChannel (packetOf b).cls).map packetOf
  { x with
    queues := x.queues.map fun q => (q.1, q.2.filter fun p => !ofChannel p.cls)
    txSlots := begun ++ keep.flatten
    txFirst := if keep.isEmpty then 31 else x.txFirst
    sentSlots := gone.foldl (fun m p => SMap.updD m 0 p.vc (· - slotsOf p)) x.sentSlots }

end Sys2Proof.Machine
end

