-- ==== Sys2Proof/Machine/PageOps.lean ====
section
/-! DEFINITION. Pages, frames and tiers: translation (R304 to R313), the capacity pool (R314 to R318), far and
host placement (R328 to R331), and the start of migrations and evictions (R319, R323). -/

namespace Sys2Proof.Machine

/-! ### Pages -/

/-- Bytes of a small page. -/
abbrev pageSize : Nat := 65536

/-- The key of a page: partition and VA ÷ 64 KiB. -/
def pageKey (part va : Nat) : Nat := part * 2 ^ 36 + va / pageSize

/-- The page that maps a VA, with its key: a 64 KiB page, or the 2 MiB page around it; none beyond 2^52 (R304). -/
def State.pageAt (s : State) (part va : Nat) : Option (Nat × Page) :=
  let k := pageKey part va
  if 2 ^ 52 ≤ va then none
  else match SMap.lookup s.ptu.pages k with
  | some p => some (k, p)
  | none =>
    match SMap.lookup s.ptu.pages (k / 32 * 32) with
    | some p => if p.big then some (k / 32 * 32, p) else none
    | none => none

/-- Change a page. -/
def State.modPage (s : State) (k : Nat) (f : Page → Page) : State :=
  { s with ptu := { s.ptu with pages := SMap.upd s.ptu.pages k f } }

/-- Frames that a page takes. -/
def Page.frames (p : Page) : Nat := if p.big then 32 else 1

/-- The first VA of a page. -/
def keyVa (k : Nat) : Nat := k % 2 ^ 36 * pageSize

/-- The partition of a page. -/
def keyPart (k : Nat) : Nat := k / 2 ^ 36

/-- The physical address behind a VA of a tier 1 page. -/
def Page.pa (p : Page) (k va : Nat) : Nat := p.frame * pageSize + (va - keyVa k)

/-- The VAs of a range, cut at 64 KiB: address and length of each part. -/
def pagePieces (va len : Nat) : List (Nat × Nat) :=
  if len = 0 then []
  else (List.range ((va + len - 1) / pageSize - va / pageSize + 1)).map fun i =>
    let b := (va / pageSize + i) * pageSize
    (max va b, min (va + len) (b + pageSize) - max va b)

/-- Every byte of a range is mapped. -/
def State.mapped (s : State) (part va len : Nat) : Bool :=
  (pagePieces va len).all fun p => (s.pageAt part p.1).isSome

/-- The pages of a range, ascending, each once. -/
def State.pagesIn (s : State) (part va len : Nat) : List (Nat × Page) :=
  s.ptu.pages.filter fun p =>
    keyPart p.1 == part && decide (keyVa p.1 < va + len ∧ va < keyVa p.1 + p.2.frames * pageSize)

/-- The index that ages pages and leaves: the running step, or the step after the last commit (R313). -/
def State.useStep (s : State) : Nat :=
  (if s.spine.running then s.spine.step
    else match s.spine.committed with
      | some n => n + 1
      | none => 0) % 2 ^ 22

/-- Set LASTUSE of a page (R313). -/
def touchPage (k : Nat) (s : State) : State := s.modPage k fun p => { p with lastUse := s.useStep }

/-! ### Frames and the pool (R314-R318) -/

/-- The lowest offset, a multiple of `align`, at which `n` fit below `limit` beside the taken intervals
(first, length). -/
def gapFrom (ivs : List (Nat × Nat)) (limit n align : Nat) : Nat → Nat → Option Nat
  | 0, _ => none
  | fuel + 1, c =>
    match ivs.find? fun v => decide (v.1 < c + n ∧ c < v.1 + v.2) with
    | some v => gapFrom ivs limit n align fuel (roundUp (v.1 + v.2) align)
    | none => if c + n ≤ limit then some c else none

/-- The lowest free place. -/
def lowestGap (ivs : List (Nat × Nat)) (limit n align : Nat) : Option Nat :=
  gapFrom (ivs.filter fun v => v.2 != 0) limit n align (ivs.length + 1) 0

/-- Frames that channels can reach (R267). -/
def poolLimit : Nat := reserveBase / pageSize

/-- The frames in use, as intervals: the table area, pages, transfers into tier 1, lent windows and retired
granules. -/
def State.takenFrames (s : State) : List (Nat × Nat) :=
  (match s.ptu.area with
    | some a => [(a.1 / pageSize, a.2 / pageSize)]
    | none => [])
  ++ (s.ptu.pages.filter fun p => p.2.tier == 1).map (fun p => (p.2.frame, p.2.frames))
  ++ (s.ptu.xfers.filter fun x => x.2.kind == .toLocal).map (fun x => (x.2.frame, 1))
  ++ s.ptu.lent.flatMap (fun w => w.2.frames.map fun f => (f, 1))
  ++ s.rse.retired.map fun f => (f, 1)

/-- The granules of one bank number in all of device memory (R528). -/
def bankGranules : Nat := 245760

/-- The granule is retired with its bank number, and is not in use any more (R527, R528). -/
def State.bankOut (s : State) (g : Nat) : Bool := s.rse.banks.contains (granuleBank g) && !s.rse.retirePend.contains g

/-- The granule is retired. -/
def State.isRetired (s : State) (g : Nat) : Bool := s.rse.retired.contains g || s.bankOut g

/-- Granules of the pool that are retired with their bank number only: all granules of the bank numbers, less those in
the reserve, in use, or retired on their own. -/
def State.banksOut (s : State) : Nat :=
  let bad (g : Nat) : Bool := s.rse.banks.contains (granuleBank g)
  s.rse.banks.length * bankGranules - ((List.range (hbmEnd / pageSize - poolLimit)).filter fun i => bad (poolLimit + i)).length
    - (s.rse.retirePend.filter bad).length - (s.rse.retired.filter bad).length

/-- Frames of the pool: all that channels can reach, less the table area and retired granules. -/
def State.poolFrames (s : State) : Nat :=
  poolLimit - (match s.ptu.area with | some a => a.2 / pageSize | none => 0) - s.rse.retired.length - s.banksOut

/-- Free frames. -/
def State.freeFrames (s : State) : Nat :=
  poolLimit - (s.takenFrames.map (·.2)).foldl (· + ·) 0 - s.banksOut

/-- The lowest free run of n frames, aligned to n, from a frame on, none of them of a retired bank number. -/
def freeRun (s : State) (n : Nat) : Nat → Nat → Option Nat
  | 0, _ => none
  | fuel + 1, c =>
    match gapFrom (s.takenFrames.filter fun v => v.2 != 0) poolLimit n n (s.takenFrames.length + 1) c with
    | none => none
    | some f => if (List.range n).any fun i => s.bankOut (f + i) then freeRun s n fuel (f + n) else some f

/-- A partition's local frames (R316). -/
def State.localUse (s : State) (part : Nat) : Nat :=
  ((s.ptu.pages.filter fun p => keyPart p.1 == part && p.2.tier == 1).map (·.2.frames)).foldl (· + ·) 0
    + (s.ptu.xfers.filter fun x => keyPart x.1 == part && x.2.kind == .toLocal).length

/-- A partition's quota (R314). -/
def State.quotaOf (s : State) (part : Nat) : Quota := SMap.getD s.ptu.quota part Quota.reset

/-- Frames that must stay free for the other partitions' LOCAL_MIN. -/
def State.keepFor (s : State) (part : Nat) : Nat :=
  ((List.range 4).map fun q =>
    if q = part then 0 else (s.quotaOf q).localMin / pageSize - s.localUse q).foldl (· + ·) 0

/-- The partition stays within LOCAL_MAX with n more frames. -/
def State.belowMax (s : State) (part n : Nat) : Bool :=
  let m := (s.quotaOf part).localMax
  m == 0 || decide ((s.localUse part + n) * pageSize ≤ m)

/-- Row 1 of R317 for n frames: 1, or an aligned run of 32. -/
def State.takeFrame (s : State) (part n : Nat) : Option Nat :=
  if s.belowMax part n && decide (n + s.keepFor part ≤ s.freeFrames) then
    freeRun s n poolLimit 0
  else none

/-- The frame is free in the pool. -/
def State.frameFree (s : State) (f n : Nat) : Bool :=
  decide (f + n ≤ poolLimit) &&
    !(s.takenFrames.any fun v => decide (v.1 < f + n ∧ f < v.1 + v.2)) && !((List.range n).any fun i => s.bankOut (f + i))

/-- A frame leaves its page: when it waits to be retired it leaves the pool (R527); one of a retired bank number counts
with that. -/
def releaseFrames (f n : Nat) (s : State) : State :=
  let gone := s.rse.retirePend.filter fun g => decide (f ≤ g ∧ g < f + n)
  if gone.isEmpty then s
  else { s with rse := { s.rse with
    retired := NSet.addAll s.rse.retired (gone.filter fun g => !s.rse.banks.contains (granuleBank g))
    retirePend := NSet.cut s.rse.retirePend f n } }

/-- A request in flight touches a frame. -/
def State.frameBusy (s : State) (f : Nat) : Bool :=
  s.tiles.any fun t => t.2.reqs.any fun r =>
    (match r.2.loc with | .hbm pa => pa / pageSize == f | _ => false)
      || (match r.2.dst with | .hbm pa => pa / pageSize == f | _ => false)

/-- A VA of the partition lies in a leaf pool (R318, R336). -/
def State.inPool (s : State) (part va : Nat) : Bool :=
  s.leafs.pools.any fun p =>
    p.2.part == part &&
      (let hd := 64 * 2 ^ p.2.hdCode
       let eb := if p.2.fmt = 5 then 32 * hd else 16 * hd
       let sb := if p.2.fmt = 5 then hd else 4 * hd
       decide (p.2.elemBase ≤ va ∧ va < roundUp (p.2.elemBase + p.2.frames * eb) pageSize)
        || decide (p.2.scaleBase ≤ va ∧ va < roundUp (p.2.scaleBase + p.2.frames * sb) pageSize))

/-- A VA of the partition lies in a fixed-point region. -/
def State.inFx (s : State) (part va : Nat) : Bool :=
  s.mem.fx.any fun r =>
    r.2.part == part && decide (r.2.base ≤ va ∧ va < r.2.base + r.2.frames.length * pageSize)


/-- The age of a page (R318). -/
def State.age (s : State) (lastUse : Nat) : Nat := (s.useStep + 2 ^ 22 - lastUse % 2 ^ 22) % 2 ^ 22

/-- The oldest page of a list; ties go to the first. -/
def State.oldest (s : State) : List (Nat × Page) → Option (Nat × Page)
  | [] => none
  | p :: ps => some (ps.foldl (fun b q => if s.age b.2.lastUse < s.age q.2.lastUse then q else b) p)


/-! ### Far and host placement (R310, R328-R331) -/

/-- The 64-bit form of a far reference (R310). -/
def FarRef.word (r : FarRef) : Nat :=
  (if r.host then 3 else 2) * 2 ^ 62 + r.who % 1024 * 2 ^ 52 + r.off % 2 ^ 48

/-- Bytes that a leaf takes in a far or host tier: its element and scale frames (R183). -/
def LeafPool.leafBytes (p : LeafPool) : Nat :=
  let hd := 64 * 2 ^ p.hdCode
  if p.fmt = 5 then 32 * hd + hd else 16 * hd + 4 * hd

/-- Every far and host copy: its reference, its length and the partition it is charged to. -/
def State.copies (s : State) : List (FarRef × Nat × Nat) :=
  s.ptu.pages.filterMap (fun p => p.2.far.map fun r => (r, p.2.frames * pageSize, keyPart p.1))
  ++ (s.leafs.slots.flatMap fun q =>
      match SMap.lookup s.leafs.pools q.2.pool with
      | some p => q.2.leaves.filterMap fun l => l.2.far.map fun r => (r, p.leafBytes, p.part)
      | none => [])
  ++ (s.ptu.xfers.filterMap fun x => x.2.dest.map fun r => (r, pageSize, keyPart x.1))
  ++ s.leafs.evicting.filterMap fun e =>
      ((SMap.lookup s.leafs.slots e.1).bind fun q => SMap.lookup s.leafs.pools q.pool).map fun p =>
        (e.2.2, p.leafBytes, p.part)

/-- A partition's use of the far tier or of the host tier in bytes (R316). -/
def State.tierUse (s : State) (host : Bool) (part : Nat) : Nat :=
  ((s.copies.filter fun c => c.1.host == host && c.2.2 == part).map (·.2.1)).foldl (· + ·) 0

/-- The taken intervals of a lender's window, or of a host region. -/
def State.copyIvs (s : State) (host : Bool) (who window : Nat) : List (Nat × Nat) :=
  (s.copies.filter fun c => c.1.host == host && c.1.who == who && (host || c.1.window == window)).map
    fun c => (c.1.off, c.2.1)

/-- The window is being reclaimed. -/
def State.reclaiming (s : State) (pos window : Nat) : Bool :=
  (SMap.lookup s.ptu.reclaims (pos * 2 ^ 16 + window)).isSome

/-- The position that far traffic for a lender goes to: a Fawn that took a position over answers under the
position it took (R403). -/
def State.lenderPos (s : State) (p : Nat) : Nat :=
  match s.links.standIns.find? fun r => r.2 == p with
  | some r => r.1
  | none => p

/-- The window of the list, from index i on in rotation, that has room: its index and the offset. -/
def State.farRoom (s : State) (wins : List FarWin) (n align : Nat) : Nat → Nat → Option (Nat × FarRef)
  | 0, _ => none
  | fuel + 1, i =>
    match wins[i % wins.length]? with
    | none => none
    | some w =>
      if s.reclaiming w.pos w.window then s.farRoom wins n align fuel (i + 1)
      else match lowestGap (s.copyIvs false w.pos w.window) w.size n align with
        | some o => some (i % wins.length, ⟨false, w.pos, w.window, o⟩)
        | none => s.farRoom wins n align fuel (i + 1)

/-- Place a far block of n bytes for a partition: the next window of its list with room, within FAR_MAX
(R328). The state has its round-robin position moved on. -/
def placeFar (part n align : Nat) (s : State) : Option (FarRef × State) :=
  let wins := SMap.getD s.ptu.lists part []
  let m := (s.quotaOf part).farMax
  if m != 0 && decide (m < s.tierUse false part + n) then none
  else match s.farRoom wins n align wins.length (SMap.getD s.ptu.rr part 0) with
    | some (i, r) =>
      some (r, { s with ptu := { s.ptu with rr := SMap.setD s.ptu.rr 0 part ((i + 1) % wins.length) } })
    | none => none

/-- Bytes of a host region. -/
def regionSize (r : List (Nat × Nat)) : Nat := (r.map (·.2)).foldl (· + ·) 0

/-- Place a host block for a partition: the lowest region with room, within HOST_MAX (30). -/
def State.placeHost (s : State) (part n align : Nat) : Option FarRef :=
  let m := (s.quotaOf part).hostMax
  if m != 0 && decide (m < s.tierUse true part + n) then none
  else s.ptu.regions.findSome? fun r =>
    (lowestGap (s.copyIvs true r.1 0) (regionSize r.2) n align).map fun o => ⟨true, r.1, 0, o⟩

/-- The bus address of an offset in a region's ranges. -/
def busAddr : List (Nat × Nat) → Nat → Option Nat
  | [], _ => none
  | (a, n) :: rs, o => if o < n then some (a + o) else busAddr rs (o - n)

/-- The bus address behind a host reference. -/
def State.hostAddr (s : State) (r : FarRef) (o : Nat) : Option Nat :=
  (SMap.lookup s.ptu.regions r.who).bind fun l => busAddr l (r.off + o)

/-- Read host memory: bytes, and whether a completion was poisoned or in error. -/
def State.hostRead (s : State) (a n : Nat) : List Byte × Bool :=
  (Mem.readN s.host a n, n != 0 && s.hostBad.any fun l => decide (a / 64 ≤ l ∧ l ≤ (a + n - 1) / 64))

/-- Write host memory; lines written whole with good data are good again. -/
def hostWrite (a : Nat) (data : List Byte) (s : State) : State :=
  { s with
    host := Mem.writeN s.host a data
    hostBad := s.hostBad.filter fun l => !decide (a ≤ 64 * l ∧ 64 * l + 64 ≤ a + data.length) }

/-- Lines of host memory that take sectors marked bad are poisoned (R367); `bad` lists their offsets ÷ 32. -/
def hostMark (a : Nat) (bad : List Nat) (s : State) : State :=
  { s with hostBad := NSet.addAll s.hostBad (bad.map fun i => (a + 32 * i) / 64) }

/-- A packet of class 0x5 to 0x7. The spec gives these classes no CLASS_WORD, so its bytes are free values (28), which
may show the sectors of its data that are marked (65). -/
def farPacket (cls pos : Nat) (data : List Byte) (bad : List Nat) (s : State) : Packet × State :=
  let d := s.draw
  (⟨cls, if cls = 7 then 0 else 3, s.myPos, pos, (List.range 8).map (Config.farWord d.1 bad),
    padTo (roundUp data.length 16) data⟩, d.2)

/-- Hand a packet to link n of its receiver's set, in turn; it waits for a link while none is up (R329). -/
def farSend (n : Nat) (p : Packet) (s : State) : State :=
  let ls := s.linkSet p.dstPos
  match ls[n % ls.length]? with
  | some l => sendOn l p s
  | none => { s with ptu := { s.ptu with farWait := s.ptu.farWait ++ [p] } }

/-- Send a far packet over link n of the lender's set. -/
def sendFar (cls pos n : Nat) (data : List Byte) (bad : List Nat) (s : State) : State :=
  let x := farPacket cls pos data bad s
  farSend n x.1 x.2

/-- Far packets that waited for a link to a position go on once it has one (R329). -/
def sendWaiting (pos : Nat) (s : State) : State :=
  if (s.linkSet pos).isEmpty then s
  else
    let mine := s.ptu.farWait.filter fun p => p.dstPos == pos
    ((List.range mine.length).zip mine).foldl (fun s p => farSend p.1 p.2 s)
      { s with ptu := { s.ptu with farWait := s.ptu.farWait.filter fun p => p.dstPos != pos } }

/-- Every far packet that waited goes on where its receiver can be reached. -/
def resendFar (s : State) : State :=
  (NSet.addAll [] (s.ptu.farWait.map (·.dstPos))).foldl (fun s p => sendWaiting p s) s

/-- The sixteen pieces of a block travel over the lender's links in turn (R329): their data and the offsets ÷ 32 of
its marked sectors, or requests for them. -/
def sendPieces (cls : Nat) (r : FarRef) (data : Option (List Byte × List Nat)) (s : State) : State :=
  let pos := s.lenderPos r.who
  (List.range 16).foldl (fun s n =>
    match data with
    | some d => sendFar cls pos n ((d.1.drop (4096 * n)).take 4096)
        ((d.2.filter fun i => i / 128 == n).map (· % 128)) s
    | none => sendFar cls pos n [] [] s) s

/-! ### Migration and eviction (R319-R325) -/

/-- The far block has been written at least once (R325). -/
def State.farWritten (s : State) (r : FarRef) : Bool := s.ptu.written.contains r

/-- Note that a far or host block has been written. -/
def noteWritten (r : FarRef) (s : State) : State :=
  if s.farWritten r then s else { s with ptu := { s.ptu with written := s.ptu.written ++ [r] } }

/-- Two ranges of the same window or region overlap. -/
def FarRef.meets (a : FarRef) (n : Nat) (b : FarRef) (m : Nat) : Bool :=
  a.host == b.host && a.who == b.who && (a.host || a.window == b.window) && decide (a.off < b.off + m ∧ b.off < a.off + n)

/-- Blocks of a copy of n bytes that is released, or that a new page takes, read 0 again (R325), but for those that
another copy uses. -/
def forgetCopy (r : FarRef) (n : Nat) (s : State) : State :=
  let keep (b : FarRef) : Bool := !b.meets pageSize r n || s.copies.any fun c => c.1.meets c.2.1 b pageSize
  { s with ptu := { s.ptu with written := s.ptu.written.filter keep } }

/-- Block i of a copy. -/
def FarRef.block (r : FarRef) (i : Nat) : FarRef := { r with off := r.off + i * pageSize }

/-- Some block of a page's copy has been written. -/
def State.copyWritten (s : State) (r : FarRef) (n : Nat) : Bool := (List.range n).any fun i => s.farWritten (r.block i)

/-- The 64 KiB block of a region that holds an offset. -/
def hostBlock (region off : Nat) : FarRef := ⟨true, region, 0, off / pageSize * pageSize⟩

/-- Read a block of a host region: it reads 0 until it is first written (R325). -/
def State.regionRead (s : State) (region off n : Nat) : List Byte × Bool :=
  if s.farWritten (hostBlock region off) then
    match s.hostAddr ⟨true, region, 0, 0⟩ off with
    | some a => s.hostRead a n
    | none => (List.replicate n 0, true)
  else (List.replicate n 0, false)

/-- A host-tier read that came back with an error is logged (R331). -/
def hostErr (bad : Bool) (s : State) : State :=
  if bad then logError (LogRec.make 9 0x40 St.uncorrectable 0) s else s

/-- Write part of a block of a host region; its first write makes the rest of it 0 (R325). Sectors in `bad` come marked
(R367). -/
def regionWrite (region off : Nat) (data : List Byte) (bad : List Nat) (s : State) : State :=
  let b := hostBlock region off
  let s := if s.farWritten b then s
    else match s.hostAddr ⟨true, region, 0, 0⟩ b.off with
      | some a => noteWritten b { s with host := Mem.zero s.host a pageSize }
      | none => s
  match s.hostAddr ⟨true, region, 0, 0⟩ off with
  | some a => hostMark a bad (hostWrite a data s)
  | none => s

/-- The 64 KiB block of a far window that holds an offset. -/
def farBlock (pos window off : Nat) : FarRef := ⟨false, pos, window, off / pageSize * pageSize⟩

/-- Write part of a far block in place; its first write makes the rest of it 0 (R325). Sectors in `bad` are marked
(R367). -/
def farWrite (pos window off : Nat) (data : List Byte) (bad : List Nat) (s : State) : State :=
  let b := farBlock pos window off
  let s := if s.farWritten b then s
    else sendPieces 6 b (some (List.replicate pageSize 0, [])) (noteWritten b s)
  sendFar 6 (s.lenderPos pos) 0 data bad s

/-- The 4 KiB pieces of a block that a range of it touches. -/
def piecesOf (off len : Nat) : List Nat :=
  if len = 0 then []
  else (List.range ((off % pageSize + len - 1) / 4096 - off % pageSize / 4096 + 1)).map (· + off % pageSize / 4096)

/-- Ask a lender for the bytes of a range that is read in place (R321, R329); a block that was never written is not
asked for, since it reads 0 (R325). -/
def askFar (key pos window off len : Nat) (s : State) : State :=
  let b := farBlock pos window off
  if !s.farWritten b then s
  else
    let x : Xfer := match SMap.lookup s.ptu.xfers key with
      | some x => { x with pieces := x.pieces.filter fun p => !(piecesOf off len).contains p }
      | none => ⟨.inPlace, 0, false, b, [], [], [], none⟩
    sendFar 5 (s.lenderPos pos) 0 [] [] { s with ptu := { s.ptu with xfers := SMap.put s.ptu.xfers key x } }

/-- The bytes of a range that is read in place have come. -/
def State.farReady (s : State) (key pos window off len : Nat) : Bool :=
  !s.farWritten (farBlock pos window off) ||
    match SMap.lookup s.ptu.xfers key with
    | some x => (piecesOf off len).all fun p => x.pieces.contains p
    | none => false

/-- Bytes of a far block that have come for a page, and the offsets ÷ 32 of those marked; a block that was never written
reads 0. -/
def State.farRead (s : State) (key off len : Nat) : List Byte × List Nat :=
  match SMap.lookup s.ptu.xfers key with
  | some x =>
    let o := off - x.far.off
    (Mem.readN x.data o len, (List.range ((len + 31) / 32)).filter fun i => x.bad.contains (o / 32 + i))
  | none => (List.replicate len 0, [])

/-- Drop the bytes of a page read in place once no request waits for them. -/
def dropInPlace (key : Nat) (s : State) : State :=
  match SMap.lookup s.ptu.xfers key with
  | some x =>
    let used := s.tiles.any fun t => t.2.reqs.any fun r =>
      (match r.2.loc with | .far .. => true | _ => false)
        && pageKey (((t.2.chan.bind s.chan).map (·.part)).getD 0) r.2.va == key
    if x.kind == .inPlace && !used then { s with ptu := { s.ptu with xfers := SMap.del s.ptu.xfers key } } else s
  | none => s

/-- A write to a page in tier 1 makes the copy that stands elsewhere stale: it is released (R309). -/
def staleCopy (k : Nat) (s : State) : State :=
  match SMap.lookup s.ptu.pages k with
  | some p =>
    match p.farcopy, p.far with
    | true, some r => forgetCopy r (p.frames * pageSize) (s.modPage k fun g => { g with farcopy := false, far := none })
    | _, _ => s
  | none => s

/-- Start the migration of a page in tier 2 or 3 to tier 1: a frame under R317 row 1, MOTION, and the
requests for its bytes (R323). None when no frame can be taken. -/
def startMigration (k : Nat) (forWrite : Bool) (s : State) : Option State :=
  match SMap.lookup s.ptu.pages k with
  | none => none
  | some p =>
    match p.far, s.takeFrame (keyPart k) 1 with
    | some r, some f =>
      let full := !s.farWritten r
      let x : Xfer := ⟨.toLocal, f, forWrite, r, if full then List.range 16 else [], [], [], none⟩
      let s := s.modPage k fun p => { p with motion := true }
      let s := { s with ptu := { s.ptu with xfers := SMap.put s.ptu.xfers k x } }
      some (if full || r.host then s else sendPieces 5 r none s)
    | _, _ => none

/-- The page's eviction is in progress. -/
def State.leaving (s : State) (k : Nat) : Bool := ((SMap.lookup s.ptu.xfers k).map (·.kind)) == some .evict

/-- An eviction ends before its copy is made: the frame stays. -/
def endEvictPage (k : Nat) (s : State) : State :=
  ({ s with ptu := { s.ptu with xfers := SMap.del s.ptu.xfers k } } : State).modPage k fun p => { p with motion := false }

/-- An eviction in progress is cancelled: the copy made so far is discarded and the frame stays (R320). -/
def cancelEvict (k : Nat) (s : State) : State :=
  if s.leaving k then (endEvictPage k s).ptuCtr fun c => Ctrs.sat c 16 1 else s

/-- A write waits for a page that is being copied to tier 1: no far copy is kept (R323). -/
def noteWrite (k : Nat) (write : Bool) (s : State) : State :=
  if write then { s with ptu := { s.ptu with xfers := SMap.upd s.ptu.xfers k fun x => { x with forWrite := true } } } else s

/-- Free a page's frame after its copy stands elsewhere (R319): its granule reads as zero again when it is
mapped next. -/
def freeEvicted (k : Nat) (r : FarRef) (s : State) : State :=
  match SMap.lookup s.ptu.pages k with
  | none => s
  | some p =>
    let f := p.frame
    let s := s.modPage k fun p =>
      { p with tier := if r.host then 3 else 2, far := some r, farcopy := false, motion := false, frame := 0 }
    (releaseFrames f 1 s).ptuCtr fun c => Ctrs.sat c 15 1

/-- The causes of R332, by index. -/
abbrev StallCause := Nat

namespace Stall
abbrev frame : StallCause := 0
abbrev motion : StallCause := 1
abbrev migrate : StallCause := 2
abbrev far : StallCause := 3
abbrev host : StallCause := 4
abbrev reclaim : StallCause := 5
abbrev lost : StallCause := 6
end Stall

/-- No link reaches a lender, or the lender was lost and the herd has not been rewound since (R334). -/
def State.lenderGone (s : State) (r : FarRef) : Bool :=
  !r.host && ((s.linkSet (s.lenderPos r.who)).isEmpty || s.ptu.lostLenders.contains r.who)

/-- How an access to a VA is served. -/
inductive Access where
  | go (l : Loc)
  | wait (c : StallCause)
  | unmapped
  deriving DecidableEq, Repr

/-- The cause under which a page in MOTION, or its transfer, holds an access: its own when the access started the
transfer (R324, R332). -/
def State.motionCause (s : State) (k : Nat) (p : Page) (own : Bool) : StallCause :=
  match p.far with
  | some r =>
    if !r.host && s.reclaiming r.who r.window then Stall.reclaim
    else if !own then Stall.motion
    else if r.host then (if s.hif.pcieWidth = 0 then Stall.host else Stall.migrate)
    else
      if s.lenderGone r then Stall.lost
      else if (s.linkSet (s.lenderPos r.who)).any fun l => !(SMap.getD (s.link l).queues 3 []).isEmpty then Stall.far
      else if (SMap.lookup s.ptu.xfers k).isSome then Stall.migrate
      else Stall.motion
  | none => Stall.motion

/-- Serve an access to a VA of a mapped page (R312, R320 to R324): the place of its bytes, or the cause under
which it waits. A migration that the access needs is started; `write` also covers memory operations, and `mine` names
the page whose migration the access has started. -/
def accessPage (mine : Option Nat) (part va : Nat) (write : Bool) (s : State) : Access × State :=
  match s.pageAt part va with
  | none => (.unmapped, s)
  | some (k, q) =>
    let s := cancelEvict k s
    let p := (SMap.lookup s.ptu.pages k).getD q
    if p.lost then (.go .lost, s)
    else if p.motion then (.wait (s.motionCause k p (mine == some k)), noteWrite k write s)
      else if p.tier = 1 then (.go (.hbm (p.pa k va)), if write then staleCopy k s else s)
      else
        let o := va - keyVa k
        match p.far with
        | none => (.unmapped, s)
        | some r =>
          if SMap.getD s.ptu.view part 0 = 0 && !p.fixed then
            if s.lenderGone r then (.wait Stall.lost, s)
            else match startMigration k write s with
              | some s' => (.wait (s'.motionCause k p true), s')
              | none => (.wait Stall.frame, s)
          else if r.host then
            if s.hif.pcieWidth = 0 then (.wait Stall.host, s) else (.go (.host r.who (r.off + o)), s)
          else if s.lenderGone r then (.wait Stall.lost, s)
          else (.go (.far r.who r.window (r.off + o)), s)

/-- The page that an access which waits under a cause has a migration of its own for. -/
def ownPage (w : Option (Nat × Nat)) : Option Nat :=
  w.bind fun w => if Stall.migrate ≤ w.1 ∧ w.1 ≤ Stall.host then some w.2 else none

/-! ### Plain access by an engine or by Camlo -/

/-- The pages of a virtual range can be accessed now; those that cannot begin to come (R312, R321 to R324, R332).
Answers the cause and the page that the access waits for. An unmapped page holds nothing up. -/
def vaReady (mine : Option Nat) (part va len : Nat) (write : Bool) (s : State) : Option (Nat × Nat) × State :=
  (pagePieces va len).foldl (fun (a : Option (Nat × Nat) × State) p =>
    if a.1.isSome then a
    else
      let k := ((a.2.pageAt part p.1).map (·.1)).getD 0
      match accessPage mine part p.1 write a.2 with
      | (.wait c, s) => (some (c, k), s)
      | (.go (.far w i o), s) =>
        if write || s.farReady k w i o p.2 then (none, s)
        else (some (Stall.far, k), if (SMap.lookup s.ptu.xfers k).isSome then s else askFar k w i o p.2 s)
      | (_, s) => (none, s)) (none, s)

/-- The sectors of n bytes, all marked. -/
def allMarks (n : Nat) : List Nat := List.range ((n + 31) / 32)

/-- Offsets ÷ 32 of marked sectors, from a set of sector numbers (PA ÷ 32) and the address read from. -/
def markOffsets (pa : Nat) (secs : List Nat) : List Nat := secs.map fun k => k - pa / 32

/-- Read bytes that a page maps, in its tier; those of a page that is LOST read 0 and marked bad. Answers bytes, the
offsets ÷ 32 of marked sectors, and the effects. -/
def pageRead (k : Nat) (g : Page) (va len : Nat) (s : State) : List Byte × List Nat × State :=
  if g.lost then (List.replicate len 0, allMarks len, s)
  else if g.tier = 1 then
    let r := hbmRead (g.pa k va) len s
    (r.1, markOffsets (g.pa k va) r.2.1, touchPage k r.2.2)
  else match g.far with
    | none => (List.replicate len 0, allMarks len, s)
    | some f =>
      let o := f.off + (va - keyVa k)
      if f.host then
        let r := s.regionRead f.who o len
        (r.1, if r.2 then allMarks len else [], touchPage k (hostErr r.2 s))
      else
        let r := s.farRead k o len
        (r.1, r.2, dropInPlace k (touchPage k s))

/-- Write bytes that a page maps, in its tier. -/
def pageWrite (k : Nat) (g : Page) (va : Nat) (data : List Byte) (bad : List Nat) (s : State) : State :=
  if g.tier = 1 then touchPage k (hbmWriteMarked (g.pa k va) data bad (staleCopy k s))
  else match g.far with
    | some f =>
      let o := f.off + (va - keyVa k)
      touchPage k (if f.host then regionWrite f.who o data bad s else farWrite f.who f.window o data bad s)
    | none => s

/-- Read a virtual range whose pages can be accessed; bytes of no page read 0 and marked bad. Answers bytes, the offsets
÷ 32 of marked sectors, and the effects. -/
def vaReadMarks (part va len : Nat) (s : State) : List Byte × List Nat × State :=
  (pagePieces va len).foldl (fun (a : List Byte × List Nat × State) p =>
    let r := match a.2.2.pageAt part p.1 with
      | some (k, g) => pageRead k g p.1 p.2 a.2.2
      | none => (List.replicate p.2 0, allMarks p.2, a.2.2)
    (a.1 ++ r.1, a.2.1 ++ r.2.1.map (· + (p.1 / 32 - va / 32)), r.2.2)) ([], [], s)

/-- Read a virtual range, noting only whether any of it is marked. -/
def vaRead (part va len : Nat) (s : State) : List Byte × Bool × State :=
  let r := vaReadMarks part va len s
  (r.1, !r.2.1.isEmpty, r.2.2)

/-- Write a virtual range whose pages can be accessed; `bad` lists the offsets ÷ 32 of marked sectors. -/
def vaWriteMarks (part va : Nat) (data : List Byte) (bad : List Nat) (s : State) : State :=
  (pagePieces va data.length).foldl (fun s p =>
    let o := p.1 / 32 - va / 32
    let marks := (bad.filter fun i => decide (o ≤ i ∧ i < o + (p.2 + 31) / 32)).map (· - o)
    match s.pageAt part p.1 with
    | some (k, g) => pageWrite k g p.1 ((data.drop (p.1 - va)).take p.2) marks s
    | none => s) s

/-- Bytes of a slot's leaf table (R187). -/
def Slot.tableBytes (x : Slot) : Nat := x.layers * x.heads * x.maxTokens

/-- A range of a partition meets the ingest workspace. -/
def IgeSetup.meets (u : IgeSetup) (part va len : Nat) : Bool :=
  u.part == part && decide (u.workspace < va + len ∧ va < u.workspace + u.workspaceSize)

/-- Software writes a virtual range: slots whose leaf tables it meets hold unspecified keys and values from then on
(R188), and an ingest workspace that it meets gives unspecified tokens (R464). -/
def taintVa (part va len : Nat) (s : State) : State :=
  let s := if (s.ige.setup.map (·.meets part va len)).getD false then { s with ige := { s.ige with touched := true } } else s
  if s.leafs.slots.isEmpty then s
  else { s with leafs := { s.leafs with slots := s.leafs.slots.map fun q =>
    (q.1, if (SMap.lookup s.leafs.pools q.2.pool).map (·.part) = some part
        ∧ q.2.leafTable < va + len ∧ va < q.2.leafTable + q.2.tableBytes then { q.2 with tainted := true } else q.2) } }

/-- Software writes a physical range (R188, R464). -/
def taintPa (pa len : Nat) (s : State) : State :=
  if s.leafs.slots.isEmpty && s.ige.setup.isNone then s
  else (s.ptu.pages.filter fun p => p.2.tier == 1 && decide (p.2.frame * pageSize < pa + len
      ∧ pa < (p.2.frame + p.2.frames) * pageSize)).foldl (fun s p =>
    let a := max pa (p.2.frame * pageSize)
    taintVa (keyPart p.1) (keyVa p.1 + (a - p.2.frame * pageSize))
      (min (pa + len) ((p.2.frame + p.2.frames) * pageSize) - a) s) s

/-- Write a virtual range with good data, on behalf of software. -/
def vaWrite (part va : Nat) (data : List Byte) (s : State) : State :=
  taintVa part va data.length (vaWriteMarks part va data [] s)

/-- The physical address behind a VA in tier 1. -/
def State.vaPa (s : State) (part va : Nat) : Option Nat :=
  match s.pageAt part va with
  | some (k, p) => if p.tier = 1 then some (p.pa k va) else none
  | none => none

/-- The sixteen bytes of a page's entry (R309). -/
def Page.entry (p : Page) : List Byte :=
  let b (x : Bool) (i : Nat) : Nat := if x then 2 ^ i else 0
  natLe 8 (1 + 2 + 4 * p.tier + b p.write 4 + b p.pin 5 + b p.motion 6 + b p.farcopy 7 + b p.lost 8
      + p.slot % 16 * 2 ^ 9 + b p.slotAcct 13 + (if p.tier = 1 then p.frame % 2 ^ 24 * 2 ^ 16 else 0)
      + p.lastUse % 2 ^ 22 * 2 ^ 42)
    ++ natLe 8 (match p.far with | some r => r.word | none => 0)

/-! ### The page tables in the table area (R307 to R309)

The spec leaves the places of the nodes in the area to the PTU. The model lays them out by level and then by partition
and VA (27). -/

/-- The nodes of a level below the root, as the VAs they cover (with the partition) in units of what they cover. -/
def State.tableNodes (s : State) (level : Nat) : List Nat :=
  let small := s.ptu.pages.filter fun p => !p.2.big
  match level with
  | 1 => NSet.addAll [] (s.ptu.pages.map fun p => p.1 / 2 ^ 23)
  | 2 => NSet.addAll [] (s.ptu.pages.map fun p => p.1 / 2 ^ 14)
  | _ => NSet.addAll [] (small.map fun p => p.1 / 2 ^ 5)

/-- Where the nodes of a level begin in the table area, and the size of one. -/
def State.tableLevel (s : State) (level : Nat) : Nat × Nat :=
  let root := 4 * 2 ^ 17
  let l2 := root + 2 ^ 13 * (s.tableNodes 1).length
  match level with
  | 0 => (0, 2 ^ 17)
  | 1 => (root, 2 ^ 13)
  | 2 => (l2, 2 ^ 13)
  | _ => (l2 + 2 ^ 13 * (s.tableNodes 2).length, 2 ^ 9)

/-- A pointer entry to a node of a level (R309); none when there is no such node. -/
def State.tablePointer (s : State) (base level node : Nat) : Option (List Byte) :=
  ((s.tableNodes level).findIdx? (· == node)).map fun i =>
    natLe 8 1 ++ natLe 8 (base + (s.tableLevel level).1 + (s.tableLevel level).2 * i)

/-- Entry e of a node of a level. -/
def State.tableEntry (s : State) (base level node e : Nat) : List Byte :=
  let page (k : Nat) : List Byte := ((SMap.lookup s.ptu.pages k).map Page.entry).getD (List.replicate 16 0)
  let child := node * (if level = 0 then 2 ^ 13 else if level = 3 then 32 else 512) + e
  if level = 3 then page child
  else ((s.tablePointer base (level + 1) child).getD (if level = 2 then page (child * 32) else List.replicate 16 0))

/-- The sixteen bytes of the table area at an offset in it. -/
def State.tableWords (s : State) (base off : Nat) : List Byte :=
  let inLevel (l : Nat) : Option (List Byte) :=
    let x := s.tableLevel l
    let i := (off - x.1) / x.2
    if off < x.1 then none
    else (if l = 0 then (if i < 4 then some i else none) else (s.tableNodes l)[i]?).map fun n =>
      s.tableEntry base l n ((off - x.1) % x.2 / 16)
  ([3, 2, 1, 0].findSome? inLevel).getD (List.replicate 16 0)

/-- Bytes read from a physical address as a requester sees them: those of the table area are the tables'. -/
def State.withTables (s : State) (pa : Nat) (data : List Byte) : List Byte :=
  match s.ptu.area with
  | none => data
  | some (b, n) =>
    if decide (b < pa + data.length ∧ pa < b + n) then
      ((List.range data.length).zip data).map fun x =>
        let a := pa + x.1
        if b ≤ a ∧ a < b + n then (s.tableWords b ((a - b) / 16 * 16)).getD (a % 16) 0 else x.2
    else data

end Sys2Proof.Machine
end

