-- ==== Sys2Proof/Machine/FaultOps.lean ====
section
/-! DEFINITION. Reporting an error of class 0 to 3 (R41, R419, R492 to R495, R504): the log record, the stamp,
and the FAULT that goes to the Stag or is held for an answer. -/

namespace Sys2Proof.Machine

/-- A FAULT packet's data (R419). -/
def faultBytes (f : FaultRec) (status : Nat) : List Byte :=
  natLe 6 f.stamp ++ natLe 2 f.pos ++ natLe 1 f.cls ++ natLe 1 f.cause ++ natLe 2 status

/-- Hold a FAULT for the answer of this device, the acting Stag, or of the class 3 rule of R495. -/
def holdFault (f : FaultRec) (s : State) : State :=
  { s with spine := { s.spine with faults := s.spine.faults ++ [f] } }

/-- Send a FAULT towards the Stag, or hold it when this device is the acting Stag (R420). -/
def passFault (f : FaultRec) (status : Nat) (s : State) : State :=
  if s.spine.stag then holdFault f s
  else match s.spine.parent with
    | some p => sendTo (spinePacket s 6 p (faultBytes f status)) s
    | none => s

/-- The interrupt cause that a FAULT's cause stands for (R562). -/
def faultIrq (cause : Nat) : Option Nat :=
  match cause with
  | 0x30 => some Cause.tileFault
  | 0x31 => some Cause.leafExhausted
  | 0x32 => some Cause.collMismatch
  | 0x33 => some Cause.ingest
  | _ => none

/-- Report an error about a position, stamped with a tick: it is logged; while a schedule runs a class 0 to
3 error is stamped and sent as a FAULT, with its interrupt cause (R31, R562), and with no schedule a class 3 error
is held for R495. -/
def reportAt (pos stamp : Nat) (r : LogRec) (s : State) : State :=
  let s := logError r s
  if r.cls = 4 then s
  else
    let f : FaultRec := ⟨pos, r.cls, r.cause, stamp, r.chan⟩
    if s.spine.running then
      let s := match faultIrq r.cause with
        | some c => raiseCause c s
        | none => s
      passFault f r.status { s with
        spine := { s.spine with stamps := s.spine.stamps ++ [stamp] }
        rse := { s.rse with detected := s.rse.detected || decide (r.cls < 3) } }
    else if r.cls = 3 then holdFault f s else s

/-- Report an error detected now. -/
def reportFault (r : LogRec) (s : State) : State := reportAt s.myPos s.spine.tick r s

/-- A record that concerns a channel. -/
def LogRec.ofChan (r : LogRec) (c : Option Nat) : LogRec := { r with chan := c.getD 0xFFFF }

/-! ### Bad data and retained state (R365, R494, R513) -/

/-- The VA behind a physical address in a partition's pages of tier 1. -/
def State.vaOfPa (s : State) (part pa : Nat) : Option Nat :=
  s.ptu.pages.findSome? fun p =>
    if keyPart p.1 = part ∧ p.2.tier = 1 ∧ p.2.frame ≤ pa / pageSize
        ∧ pa / pageSize < p.2.frame + p.2.frames then
      some (keyVa p.1 + (pa - p.2.frame * pageSize))
    else none

/-- The element of a bank of n elements that byte `o` belongs to (R506). -/
def bankElem (n o : Nat) : Nat :=
  if o < 4 * n then o / 4
  else if o < 5 * n then o - 4 * n
  else if o < 5 * n + n / 32 then (o - 5 * n) * 32
  else if o < 6 * n + n / 32 then o - 5 * n - n / 32
  else (o - 6 * n - n / 32) * 32

/-- The mirror block of retained state that holds an address: whether it lies in the mirror bank, and the
block (R513). -/
def State.retainedBlock (s : State) (pa : Nat) : Option (Bool × Nat) :=
  let m := s.rse.mirror
  (s.vaOfPa m.part pa).bind fun va =>
    let own := if s.curBank = 0 then m.bank0 else m.bank1
    let mir := if s.curBank = 0 then m.mbank0 else m.mbank1
    if m.n ≠ 0 ∧ own ≤ va ∧ va < own + bankBytes m.n then some (false, bankElem m.n (va - own) / 8192)
    else if m.mirrorOf ≠ 0xFFFF ∧ m.mn ≠ 0 ∧ mir ≤ va ∧ va < mir + bankBytes m.mn then
      some (true, bankElem m.mn (va - mir) / 8192)
    else none

/-- A bad-data event of a record whose addresses are `pas`: cause 0x10 when any of them lies in retained
state, and then its blocks wait for repair; cause 0x03 otherwise (R494). -/
def badData (r : LogRec) (pas : List Nat) (s : State) : State :=
  let blocks := pas.filterMap s.retainedBlock
  let kept := !blocks.isEmpty
  let c := if kept then 0x10 else 0x03
  let r := { r with cause := c, cls := causeClass c, flags := if kept then r.flags ||| 1 else r.flags }
  let s := if kept && s.spine.running then
      { s with rse := { s.rse with repairs := blocks.foldl (fun l b => if l.contains b then l else l ++ [b]) s.rse.repairs } }
    else s
  reportFault r s

/-- A tile's bad-data record: tile, channel, and the descriptor or thread in DETAIL. -/
def tileRecord (cause status t detail : Nat) (s : State) : LogRec :=
  { (LogRec.make 1 cause status t).ofChan (s.tile t).chan with detail := detail }

/-! ### The tile's SRAMs as an instruction reads them (R93, R365, R366, R493, R525) -/

/-- What an instruction finds in what it reads: good words, a poisoned line, or a parity error. -/
inductive Found where
  | good
  | poisoned
  | parity
  deriving DecidableEq, Repr

/-- A mask over a word and its parity bit flips an odd number of bits. -/
def oddFlip (m : BitVec 64) : Bool := (List.range 33).foldl (fun o i => o != m.getLsbD i) false

/-- XOR damage into the word at a tile-local address. -/
def Tile.xorWord (t : Tile) (a : Nat) (m : BitVec 32) : Tile :=
  if a < 0x100000 then
    let b := a / 4 * 4
    { t with scratch := Mem.writeN t.scratch b (natLe 4 (leNat (Mem.readN t.scratch b 4) ^^^ m.toNat)) }
  else if a < 0x140000 then { t with wgb := SMap.updD t.wgb 0 ((a - 0x100000) / 4) (· ^^^ m) }
  else if a < 0x144000 then { t with vregs := SMap.updD t.vregs 0 ((a - 0x140000) / 4) (· ^^^ m) }
  else t

/-- The tile as one instruction reads byte ranges of it: armed injections at the words read act once each;
damage that parity does not show alters this read only (36). -/
def sramRead (t : Nat) (rs : List (Nat × Nat)) (s : State) : Found × Tile × State :=
  let tile := s.tile t
  let pois := rs.any fun r => r.2 != 0 && tile.poison.any fun l =>
    decide (r.1 / 64 ≤ l ∧ l ≤ (r.1 + r.2 - 1) / 64 ∧ r.1 < 0x100000)
  let hit (e : Inj) : Bool := e.site == 3 && e.loc == t &&
    rs.any fun r => decide (e.loc2 / 4 * 4 < r.1 + r.2 ∧ r.1 < e.loc2 / 4 * 4 + 4)
  let slots := s.rse.inj.filter fun e => hit e.2 && decide (e.2.after ≤ s.spine.tick)
  let inj := slots.foldl (fun m e =>
    if e.2.count ≤ 1 then SMap.del m e.1 else SMap.put m e.1 { e.2 with count := e.2.count - 1 }) s.rse.inj
  let s' := if slots.isEmpty then s
    else ({ s with rse := { s.rse with inj := inj } } : State).rseCtr fun c => Ctrs.sat c 10 slots.length
  let flips (a : Nat) : BitVec 64 := (slots.filter fun e => e.2.loc2 / 4 == a).foldl (fun m e => m ^^^ e.2.mask) 0
  if slots.any fun e => oddFlip (flips (e.2.loc2 / 4)) then (.parity, tile, s')
  else if pois then (.poisoned, tile, s')
  else (.good, slots.foldl (fun x e => x.xorWord e.2.loc2 (BitVec.setWidth 32 e.2.mask)) tile, s')

/-- The accumulator tiles as one instruction reads ranges of their words (first, count), keyed as `Tile.acc` is. -/
def accRead (t : Nat) (rs : List (Nat × Nat)) (s : State) : Found × SMap (BitVec 32) × State :=
  let acc := (s.tile t).acc
  let slots := s.rse.inj.filter fun e =>
    e.2.site == 4 && e.2.loc == t && rs.any (fun r => decide (r.1 ≤ e.2.loc2 ∧ e.2.loc2 < r.1 + r.2)) && decide (e.2.after ≤ s.spine.tick)
  let inj := slots.foldl (fun m e =>
    if e.2.count ≤ 1 then SMap.del m e.1 else SMap.put m e.1 { e.2 with count := e.2.count - 1 }) s.rse.inj
  let s' := if slots.isEmpty then s
    else ({ s with rse := { s.rse with inj := inj } } : State).rseCtr fun c => Ctrs.sat c 10 slots.length
  let flips (a : Nat) : BitVec 64 := (slots.filter fun e => e.2.loc2 == a).foldl (fun m e => m ^^^ e.2.mask) 0
  if slots.any fun e => oddFlip (flips e.2.loc2) then (.parity, acc, s')
  else (.good, slots.foldl (fun m e => SMap.updD m 0 e.2.loc2 (· ^^^ BitVec.setWidth 32 e.2.mask)) acc, s')

/-- Report what a read of a tile's words met: a bad-data event or a parity error (R93, R366, R493). -/
def reportFound (t detail : Nat) (acc : Bool) (f : Found) (s : State) : State :=
  match f with
  | .good => s
  | .poisoned => badData (tileRecord 0x03 St.poison t detail s) [] s
  | .parity => reportFault ((tileRecord (if acc then 0x0B else 0x02) St.uncorrectable t detail s).injected true) s

/-- A tile program fault (R127 to R131): the thread is Faulted, the first fault of the tile in the step is
recorded, the channel's entry takes it, and it is reported. -/
def tileFault (t th kind : Nat) (pc : BitVec 32) (op status : Nat) (s : State) : State :=
  let tile := s.tile t
  let info := BitVec.ofNat 64 (kind + th * 2 ^ 4 + 2 ^ 7 + pc.toNat * 2 ^ 8 + op * 2 ^ 40)
  let s := s.modTile t fun x =>
    { (x.modThread th fun h => { h with st := .faulted }) with
      faultInfo := if x.faultInfo.getLsbD 7 then x.faultInfo else info
      ctrs := Ctrs.sat x.ctrs 1 1 }
  let s := match tile.chan with
    | some c => s.modChan c fun x =>
        if x.faultKind = 0 then
          { x with faultKind := kind, faultTile := t, faultThread := th, faultPc := pc.toNat, lastStatus := status }
        else x
    | none => s
  reportFault (tileRecord 0x30 status t kind s) s

end Sys2Proof.Machine
end

