-- ==== Sys2Proof/Machine/TileOps.lean ====
section
/-! DEFINITION. What every tile family uses: event counters, unit queues and the scoreboard (R95 to R103),
starting and halting threads (R135 to R139), and the channels' bookkeeping. -/

namespace Sys2Proof.Machine

/-! ### Event counters and waiting threads -/

/-- An event counter. -/
def Tile.ec (t : Tile) (n : Nat) : BitVec 32 := SMap.getD t.ecs n 0

/-- The wait of R100 is over: the difference, taken as signed, is 0 or more. -/
def evReached (c v : BitVec 32) : Bool := !(c - v).msb

/-- Threads that wait on an event counter which has reached their value become ready. -/
def Tile.wakeEvents (t : Tile) : Tile :=
  (List.range 8).foldl (fun t n =>
    let h := t.thread n
    if h.st == .waitEvent && evReached (t.ec h.waitEc) h.waitVal then
      t.modThread n fun h => { h with st := .ready }
    else t) t

/-- Increment an event counter (R101, R102). -/
def Tile.bumpEc (t : Tile) (n : Nat) : Tile :=
  Tile.wakeEvents { t with ecs := SMap.updD t.ecs 0 n (· + 1) }

/-! ### Unit queues and the scoreboard -/

/-- A unit's queue: 0 array, 1 vector engine, 2 streamer, 3 fetch engine. -/
def Tile.queue (t : Tile) (u : Nat) : List QInstr := SMap.getD t.queues u []

/-- Replace a unit's queue. -/
def Tile.setQueue (t : Tile) (u : Nat) (q : List QInstr) : Tile :=
  { t with queues := SMap.setD t.queues [] u q }

/-- Every instruction that has issued and not completed. -/
def Tile.inUnits (t : Tile) : List QInstr := t.queues.flatMap (·.2)

/-- The scoreboard allows an instruction that reads and writes these accumulator tiles (R98). -/
def Tile.scoreFree (t : Tile) (rd wr : List Nat) : Bool :=
  t.inUnits.all fun q =>
    !(q.writes.any fun a => rd.contains a || wr.contains a) && !(q.reads.any fun a => wr.contains a)

/-- The queue of a unit has room (R96, R344). -/
def Tile.room (t : Tile) (u th : Nat) : Bool :=
  if u = 3 then decide ((SMap.getD t.ctxs th []).length < 2) else decide ((t.queue u).length < 4)

/-- Threads that wait on a queue or on the scoreboard, and need not any more, become ready. -/
def Tile.wakeUnits (t : Tile) : Tile :=
  (List.range 8).foldl (fun t n =>
    let h := t.thread n
    if (h.st == .waitQueue && t.room h.waitUnit n) || (h.st == .waitScore && t.scoreFree h.needR h.needW) then
      t.modThread n fun h => { h with st := .ready }
    else t) t

/-- Numbers that a SIGEV of a thread waits for: what the thread has issued to the units and has not
completed (R101). -/
def Tile.outstanding (t : Tile) (th units : Nat) : NSet :=
  NSet.addAll [] (
    (([0, 1, 2].filter fun u => units.testBit u).flatMap fun u => ((t.queue u).filter (·.th == th)).map (·.id))
    ++ (if units.testBit 3 then (SMap.getD t.ctxs th []).map (·.id) else []))

/-- An instruction or list has completed: SIGEVs that waited for it last now signal. -/
def Tile.settle (t : Tile) (id : Nat) : Tile :=
  let sigs := t.sigs.map fun g => { g with waits := NSet.erase g.waits id }
  (sigs.filter fun g => g.waits.isEmpty).foldl (fun t g => t.bumpEc g.ec)
    { t with sigs := sigs.filter fun g => !g.waits.isEmpty }

/-! ### Starting and halting (R135 to R139, R141, R147, R237, R369) -/

/-- Every granule of the weight-gradient buffer becomes clean (R237). -/
def Tile.clean (t : Tile) : Tile := { t with wgb := [], dirty := [] }

/-- Clear the fault records (R131, R353). -/
def Tile.clearFault (t : Tile) : Tile := { t with faultInfo := 0, descFault := 0, descVa := 0 }

/-- The registers of a thread that starts (R135). -/
def startRegs (tile rank chan : Nat) (step : Nat) : SMap (BitVec 64) :=
  [(1, tile), (2, rank), (3, chan), (4, step)].filterMap fun p =>
    if p.2 = 0 then none else some (p.1, BitVec.ofNat 64 p.2)

/-- Start a channel's threads on a tile at their entries (R135, R136): event counters 0, records, flags and
clean bits as at a step's first tick. -/
def Tile.start (t : Tile) (tile rank chan step : Nat) (h : Header) : Tile :=
  { t.clean.clearFault with
    ecs := []
    sigs := []
    badLines := []
    threads := ((List.range 8).filter fun n => h.threads.getLsbD n).map fun n =>
      (n, { Thread.reset with
        st := .ready
        pc := BitVec.ofNat 32 (h.entry.getD n 0)
        regs := startRegs tile rank chan step }) }

/-- What a channel start adds: accumulators free, vector and mask registers 0, no code line held (R99, R134,
R147). -/
def Tile.fresh (t : Tile) : Tile := { t with owner := [], vregs := [], masks := [], icache := [] }

/-- Halt a tile's threads and empty its queues and contexts; every tag returns (R144, R369). -/
def Tile.halt (t : Tile) : Tile :=
  { t with
    threads := (t.threads.map fun p => (p.1, { p.2 with st := .idle, hold := none })).filter fun p => p.2 != Thread.reset
    lateLines := []
    queues := []
    sigs := []
    ctxs := []
    reqs := []
    recvs := [] }

/-- Discard a tile's SRAM and accumulators, as a replay does (R139, R258): they read 0 (33). -/
def Tile.discard (t : Tile) : Tile :=
  { t.clean with scratch := [], poison := [], vregs := [], masks := [], acc := [], owner := [], ecs := [] }

/-- Queues without a tile's requests. -/
def withoutTile (t : Nat) (m : SMap (List Ticket)) : SMap (List Ticket) :=
  (m.map fun q => (q.1, q.2.filter (·.tile != t))).filter fun q => !q.2.isEmpty

/-- Take a tile's requests out of the regulators', the bank sets' and the request paths' queues. -/
def dropTickets (t : Nat) (s : State) : State :=
  let m : Hbm := { s.mem with
    ingress := withoutTile t s.mem.ingress
    bankQ := ((withoutTile t s.mem.bankQ).map fun q => (q.1, dropServed q.2)).filter fun q => !q.2.isEmpty
    pathQ := withoutTile t s.mem.pathQ }
  { s with mem := m.pathQ.foldl (fun m q => m.refill q.1) m }

/-- The rank of a tile in a channel's set (R135). -/
def Chan.rankOf (c : Chan) (t : Nat) : Nat := (c.tileList.filter (· < t)).length

/-- Start a channel's threads for a step (R136, R137): a channel that has not run since CHANNEL_START also
gets fresh registers. -/
def startThreads (c step : Nat) (s : State) : State :=
  match s.chan c with
  | none => s
  | some x =>
    match x.header with
    | none => s
    | some h =>
      let s := x.tileList.foldl (fun s t =>
        s.modTile t fun y =>
          let y := if x.started then y else y.fresh
          { y.start t (x.rankOf t) c step h with chan := some c, rank := x.rankOf t }) s
      s.modChan c fun x => { x with started := true, ran := true }

/-- Every thread that runs has ended, and everything it issued has completed, on one tile (R136). -/
def Tile.quiet (t : Tile) (h : Header) : Bool :=
  ((List.range 8).all fun n => !h.threads.getLsbD n || (t.thread n).st == .ended)
    && t.inUnits.isEmpty && t.ctxs.all (fun p => p.2.isEmpty)

/-- The channel's step, or its run, is complete on the device (R136, R137). -/
def State.chanDone (s : State) (x : Chan) : Bool :=
  match x.header with
  | some h => x.started && (h.threads == 0 || x.tileList.all fun t => (s.tile t).quiet h)
  | none => false

/-- Free a channel's tiles. -/
def freeTiles (x : Chan) (s : State) : State :=
  x.tileList.foldl (fun s t => s.modTile t fun y => { y with chan := none, rank := 0 }) s

/-- A channel performed an operation that makes its step nondeterministic (R36). -/
def setNondet (c : Option Nat) (s : State) : State :=
  match c with
  | some c => s.modChan c fun x => { x with nondet := true, nondetStep := true }
  | none => s

/-- Note the use of a channel's entry (R557): running entries stay cached, and the least recently used of
the others leaves. -/
def cacheEntry (c : Nat) (s : State) : State :=
  let l := c :: s.chans.cached.erase c
  let l := if l.length ≤ 256 then l
    else match l.reverse.find? fun k => !((s.chan k).map (·.running)).getD false with
      | some k => l.erase k
      | none => l.take 256
  { s with chans := { s.chans with cached := l } }

end Sys2Proof.Machine
end

