-- ==== Sys2Proof/Machine/TfeOps.lean ====
section
/-! DEFINITION. The fetch engine: descriptors (R339 to R342), their requests (R343, R355, R356), what each
request moves (R347, R365 to R368), and the completion of descriptors and lists (R102, R347). -/

namespace Sys2Proof.Machine

/-! ### Descriptor fields (R339) -/

namespace DescF
abbrev kind (r : List Byte) : Nat := fieldAt r 0 1 % 16
abbrev cache (r : List Byte) : Bool := (fieldAt r 0 1).testBit 4
abbrev clear (r : List Byte) : Bool := (fieldAt r 0 1).testBit 5
abbrev mem (r : List Byte) : Bool := (fieldAt r 0 1).testBit 6
abbrev memop (r : List Byte) : Nat := fieldAt r 1 1 % 16
abbrev operand (r : List Byte) : Nat := fieldAt r 2 1
abbrev rows (r : List Byte) : Nat := fieldAt r 4 2 + 1
abbrev rowBytes (r : List Byte) : Nat := fieldAt r 8 4 % 2 ^ 21
abbrev laddr (r : List Byte) : Nat := fieldAt r 12 4 % 2 ^ 21
abbrev lstride (r : List Byte) : Nat := fieldAt r 16 4 % 2 ^ 21
abbrev saddr (r : List Byte) : Nat := fieldAt r 20 4 % 2 ^ 21
abbrev maddr (r : List Byte) : Nat := fieldAt r 24 8
abbrev mstride (r : List Byte) : Nat := fieldAt r 32 8 % 2 ^ 40
abbrev daddr (r : List Byte) : Nat := fieldAt r 40 8
abbrev dstride (r : List Byte) : Nat := fieldAt r 48 8 % 2 ^ 40
abbrev mtag (r : List Byte) : Nat := fieldAt r 56 2
abbrev firstRank (r : List Byte) : Nat := fieldAt r 58 1
abbrev rankCount (r : List Byte) : Nat := fieldAt r 59 1 + 1
abbrev rankStride (r : List Byte) : Nat := fieldAt r 60 1
/-- The width of an ATOMIC's words in bytes. -/
abbrev width (r : List Byte) : Nat := if (operand r).testBit 0 then 8 else 4
end DescF

/-- How many memory-side bytes each tile-side byte takes (R341). -/
def memScale (relaxed : Bool) (r : List Byte) : Nat :=
  match DescF.kind r, DescF.memop r with
  | 2, 4 => if relaxed then 1 else 2
  | 2, 5 => if relaxed then 1 else 4
  | 1, 8 => 2
  | 1, 9 => 4
  | _, _ => 1

/-- Bytes of a memory-side row. -/
def memRow (relaxed : Bool) (r : List Byte) : Nat :=
  if DescF.kind r = 8 then DescF.width r else DescF.rowBytes r * memScale relaxed r

/-- The descriptor has a memory side; the WGB kinds with MEM 0 have none (R343). -/
def hasMemory (r : List Byte) : Bool := !((DescF.kind r == 6 || DescF.kind r == 7) && !DescF.mem r)

/-- Where row k of the side that cuts requests begins: the memory side, or the scratchpad side of a WGB kind
with MEM 0 (R343). -/
def cutBase (r : List Byte) (k : Nat) : Nat :=
  (if hasMemory r then DescF.maddr r else DescF.saddr r) + DescF.mstride r * k

/-- The pieces of one row: offset and length. -/
def rowPieces (relaxed : Bool) (r : List Byte) (k : Nat) : List (Nat × Nat) :=
  (linePieces (cutBase r k) (memRow relaxed r)).map fun p => (p.1 - cutBase r k, p.2)

/-- The requests of a descriptor in order: row, offset in the row, length (R343). -/
def descPieces (relaxed : Bool) (r : List Byte) : List (Nat × Nat × Nat) :=
  if DescF.kind r = 5 then []
  else (List.range (DescF.rows r)).flatMap fun k => (rowPieces relaxed r k).map fun p => (k, p.1, p.2)

/-- The tile-side address of a piece. -/
def tileSide (relaxed : Bool) (r : List Byte) (k off : Nat) : Nat :=
  if DescF.kind r = 8 then DescF.laddr r + DescF.width r * k
  else DescF.laddr r + DescF.lstride r * k + off / memScale relaxed r

/-- The tile's channel runs in relaxed mode. -/
def State.tileRelaxed (s : State) (t : Nat) : Bool :=
  (((s.tile t).chan.bind s.chan).map (·.relaxed)).getD false

/-- The partition that a tile's requests are charged to. -/
def State.tilePart (s : State) (t : Nat) : Nat :=
  (((s.tile t).chan.bind s.chan).map (·.part)).getD 0

/-! ### Lists and contexts -/

/-- The lists of a thread's context, the running one first. -/
def Tile.lists (t : Tile) (th : Nat) : List DList := SMap.getD t.ctxs th []

/-- Replace them. -/
def Tile.setLists (t : Tile) (th : Nat) (l : List DList) : Tile :=
  { t with ctxs := SMap.setD t.ctxs [] th l }

/-- Change one list of a context. -/
def Tile.modList (t : Tile) (th id : Nat) (f : DList → DList) : Tile :=
  t.setLists th ((t.lists th).map fun l => if l.id = id then f l else l)

/-- Change one descriptor of a list. -/
def DList.modDesc (l : DList) (idx : Nat) (f : Desc → Desc) : DList :=
  { l with descs := l.descs.map fun d => if d.idx = idx then f d else d }

/-- A descriptor of a context. -/
def Tile.desc (t : Tile) (th id idx : Nat) : Option Desc :=
  ((t.lists th).find? (·.id == id)).bind fun l => l.descs.find? (·.idx == idx)

/-- The running list of a context: the first that has a descriptor to fetch or to issue (R344, R346). -/
def Tile.runList (t : Tile) (th : Nat) : Option DList :=
  (t.lists th).find? fun l => (!l.stopped && decide (l.next < l.count)) || l.descs.any fun d => !d.allIssued

/-- Its next descriptor that has not issued all its requests (R346). -/
def Tile.headDesc (t : Tile) (th : Nat) : Option (DList × Desc) :=
  (t.runList th).bind fun l => (l.descs.find? fun d => !d.allIssued).map fun d => (l, d)

/-- A tag on a bank set returns: the contexts that its quota holds go on (R103, R356). -/
def Tile.wakeQuota (t : Tile) (banks : NSet) : Tile :=
  { t with threads := (t.threads.map fun p =>
      (p.1, { p.2 with hold := p.2.hold.filter fun b => !banks.contains b })).filter fun p => p.2 != Thread.reset }

/-- Retire the completed lists at the front of a context: the event counter of each rises (R102). -/
def Tile.retireLists (t : Tile) (th : Nat) : Nat → Tile
  | 0 => t
  | n + 1 =>
    match t.lists th with
    | l :: ls =>
      if l.descs.isEmpty && l.next == l.count && !l.stopped then
        (((t.setLists th ls).bumpEc l.ec).settle l.id).wakeUnits.retireLists th n
      else t
    | [] => t

/-- Complete a descriptor when all its requests have (R347): it is counted, a finalise leaves its granules
unwritten (R77, R291), and a list with nothing left completes. -/
def finishDesc (t th id idx : Nat) (s : State) : State :=
  match (s.tile t).desc th id idx with
  | none => s
  | some d =>
    if d.allIssued && d.flight == 0 && !((s.tile t).recvs.any fun r => r.th == th && r.list == id && r.idx == idx)
    then
      let s := (s.modTile t fun x =>
        (x.modList th id fun l => { l with descs := l.descs.filter (·.idx != idx) }).retireLists th 2).tfeCtr t
          fun c => Ctrs.sat c 0 1
      let k := DescF.memop d.raw
      if DescF.kind d.raw = 1 ∧ (k = 8 ∨ k = 9) then
        (List.range (DescF.rows d.raw)).foldl (fun s r =>
          (pagePieces (DescF.maddr d.raw + DescF.mstride d.raw * r)
              (DescF.rowBytes d.raw * (if k = 8 then 2 else 4))).foldl (fun s p =>
            match s.vaPa (s.tilePart t) p.1 with
            | some pa => markUnwritten (pa / pageSize) 1 s
            | none => s) s) s
      else s
    else s

/-- A descriptor waits under a cause for a page; it is counted when it begins to wait under the cause (R332). -/
def beginWait (t th id idx : Nat) (w : StallCause × Nat) (s : State) : State :=
  match (s.tile t).desc th id idx with
  | some d =>
    let s := s.modTile t fun x => x.modList th id fun l => l.modDesc idx fun d => { d with wait := some w }
    if d.wait.map (·.1) = some w.1 then s else s.ptuCtr fun k => Ctrs.sat k (2 * w.1) 1
  | none => s

/-- A descriptor no longer waits. -/
def endWait (t th id idx : Nat) (s : State) : State :=
  s.modTile t fun x => x.modList th id fun l => l.modDesc idx fun d => { d with wait := none }

/-! ### The memory side of a request (R321, R329) -/

/-- Read `len` bytes of a request's memory side at `loc`: bytes, offsets ÷ 32 marked bad, effects. A far
read in place takes the bytes that have come for its page (R329). -/
def locRead (hint : Bool) (part key : Nat) (l : Loc) (len : Nat) (s : State) : List Byte × List Nat × State :=
  match l with
  | .hbm pa =>
    let r := wholeRead hint part pa len s
    (r.1, markOffsets pa r.2.1, r.2.2)
  | .host g o =>
    let r := s.regionRead g o len
    (r.1, if r.2 then List.range ((len + 31) / 32) else [], hostErr r.2 s)
  | .far _ _ off =>
    let r := s.farRead key off len
    (r.1, r.2, s)
  | .lost => (List.replicate len 0, List.range ((len + 31) / 32), s)
  | .tile _ => (List.replicate len 0, [], s)

/-- Write a request's memory side. -/
def locWrite (hint : Bool) (part : Nat) (l : Loc) (data : List Byte) (bad : List Nat) (s : State) : State :=
  match l with
  | .hbm pa =>
    hbmWriteHinted hint part pa data bad s
  | .host g o => regionWrite g o data bad s
  | .far pos window off => farWrite pos window off data bad s
  | _ => s

/-- The physical addresses of marked sectors. -/
def badPas (l : Loc) (bad : List Nat) : List Nat :=
  match l with
  | .hbm pa => bad.map fun i => (pa / 32 + i) * 32
  | _ => []

/-- Write bytes that return to a tile's scratchpad: a 64-byte line that takes a marked sector is poisoned,
one written whole with good data is good again (R365, R368). -/
def landScratch (t a : Nat) (data : List Byte) (bad : Nat → Bool) (s : State) : State :=
  let lines := if data.isEmpty then [] else
    (List.range ((a + data.length - 1) / 64 - a / 64 + 1)).map (· + a / 64)
  let hit (l : Nat) : Bool :=
    (List.range 64).any fun i => decide (a ≤ 64 * l + i ∧ 64 * l + i < a + data.length) && bad (64 * l + i - a)
  let whole (l : Nat) : Bool := decide (a ≤ 64 * l ∧ 64 * l + 64 ≤ a + data.length)
  let pois := lines.foldl (fun p l =>
    if hit l then NSet.insert p l else if whole l then NSet.erase p l else p) (s.tile t).poison
  let n := (lines.filter hit).length
  (s.modTile t fun x => { x with scratch := Mem.writeN x.scratch a data, poison := pois }).tfeCtr t
    fun c => if n = 0 then c else Ctrs.sat c 5 n

/-- Report bad data that a request met, with its VA and descriptor (R365). -/
def requestBad (t : Nat) (r : Req) (l : Loc) (bad : List Nat) (s : State) : State :=
  if bad.isEmpty then s
  else badData { LogRec.atVa (tileRecord 0x03 St.poison t r.idx s) (s.tilePart t) r.va with thread := r.th } (badPas l bad) s

/-! ### The weight-gradient buffer's transfers (R243, R244) -/

/-- The bytes of granules of the buffer from a byte offset; a clean granule reads +0 (R236). -/
def Tile.wgbBytes (t : Tile) (o n : Nat) : List Byte :=
  (List.range (n / 4)).flatMap fun i => natLe 4 (SMap.getD t.wgb (o / 4 + i) 0).toNat

/-- Make the granules of a byte range clean. -/
def Tile.cleanRange (t : Tile) (o n : Nat) : Tile :=
  { t with wgb := SMap.cut t.wgb (o / 4) (n / 4), dirty := NSet.cut t.dirty (o / 64) (n / 64) }

/-- Write bytes bit for bit and mark the granules not clean. -/
def Tile.wgbLoad (t : Tile) (o : Nat) (data : List Byte) : Tile :=
  { t with
    wgb := (List.range (data.length / 4)).foldl (fun m i =>
      SMap.setD m 0 (o / 4 + i) (BitVec.ofNat 32 (fieldAt data (4 * i) 4))) t.wgb
    dirty := NSet.addAll t.dirty ((List.range (data.length / 64)).map (· + o / 64)) }

/-! ### Legacy atomic operations (R284, R285) -/

/-- The result of a legacy operation on a word of `8 × w` bits. -/
def atomicResult (code sel w : Nat) (old x cmp : Nat) : Nat :=
  let b := 8 * w
  match code with
  | 1 => (old + x) % 2 ^ b
  | 2 => x
  | 3 => if old = cmp then x else old
  | 4 => if sel = 0 then old &&& x else if sel = 1 then old ||| x else old ^^^ x
  | 5 =>
    let lt := decide (signedOf b x < signedOf b old)
    if sel = 0 then (if lt then x else old) else (if lt then old else x)
  | _ => (add32 (BitVec.ofNat 32 old) (BitVec.ofNat 32 x)).1.toNat

/-- Apply a legacy operation to a word in its home slice: the line is allocated on a miss, and read there as any read
is. A word of a marked sector stays marked and is not changed. Answers the old value, whether it was marked, and the
effects. -/
def atomicWord (chan : Option Nat) (part code sel w pa x cmp : Nat) (s : State) : Nat × Bool × State :=
  let line := pa / 256
  let s := if (SMap.lookup s.mem.shc line).isNone then shcFill line part s else shcTouch line id
    (s.memCtr fun c => Ctrs.wrap c 11 1)
  let s := shcParity line (decide (pa % 256 < 8)) s
  let s := if (SMap.lookup s.mem.shc line).isNone then shcFill line part s else s
  let s := setNondet chan (s.memCtr fun c => Ctrs.wrap c 15 1)
  let mask := ((SMap.lookup s.mem.shc line).map (·.mask)).getD 0
  let old := leNat (((xorHead (Mem.readN s.mem.bytes (256 * line) 256) mask).drop (pa % 256)).take w)
  if s.mem.poison.contains (pa / 32) then (old, true, markBad (pa / 32 * 32) St.poison true false s)
  else
    let s := touchShare pa s
    (old, false, shcTouch line (fun e => { e with dirty := true, mask := maskAfter e.mask pa w })
      { s with mem := { s.mem with bytes := Mem.writeN s.mem.bytes pa (natLe w (atomicResult code sel w old x cmp)) } })

/-! ### Lines of code and of descriptors (R134, R350) -/

/-- What reading a line that an engine needs gives. -/
inductive Fetched where
  | data (bytes : List Byte) (bad : Bool) (s : State)
  /-- The line waits for its page or for its far bytes. -/
  | waits (w : StallCause × Nat) (s : State)
  /-- The lowest address that no page maps. -/
  | unmapped (va : Nat)

/-- The lowest address of a range that no page maps. -/
def State.firstUnmapped (s : State) (part va len : Nat) : Option Nat :=
  ((pagePieces va len).find? fun p => (s.pageAt part p.1).isNone).map (·.1)

/-- Read a line of an engine's own; `mine` names the page whose migration the engine has started. -/
def fetchRange (mine : Option Nat) (part va len : Nat) (s : State) : Fetched :=
  match s.firstUnmapped part va len with
  | some a => .unmapped a
  | none =>
    match vaReady mine part va len false s with
    | (some w, s) => .waits w s
    | (none, s) =>
      let r := vaRead part va len s
      .data r.1 r.2.1 r.2.2

/-- The dies on the way of bytes from a page of a partition to a tile, or to a device's links and host interface. -/
def State.linePath (s : State) (part va die : Nat) : List Nat :=
  match s.vaPa part va with
  | some pa => fabricPath (stackDie pa) die pa
  | none => [die]

/-- A transfer whose replays all failed is reported (R26). -/
def fabricFault (d : Nat) (s : State) : State :=
  reportFault ((LogRec.make 2 0x01 St.uncorrectable d).injected true) s

/-- Read a line that a tile needs: what holds it up is noted (R32, R332), and its bytes cross the fabric (R25). -/
def tileLine (t slot part va len : Nat) (s : State) : Fetched :=
  match fetchRange (ownPage (SMap.lookup (s.tile t).lateLines slot)) part va len s with
  | .waits w s => .waits w (s.modTile t fun x => { x with lateLines := SMap.put x.lateLines slot w })
  | .data b bad s =>
    let s := s.modTile t fun x => { x with lateLines := SMap.del x.lateLines slot }
    match fabricCross (s.linePath part va (t / 64)) s with
    | (some d, _, s) => .waits (Stall.motion, 0) (fabricFault d s)
    | (none, dmg, s) => .data (xorHead b dmg) bad s
  | o => o

/-! ### What one request moves

The controllers serve each bank set's requests in arrival order (R270). So a request's memory side is read or written
when it enters its bank set's queue, and what a read gave is held until it returns. -/

/-- The outcome of moving a request's bytes: done, or the list stops there (R93). -/
inductive Moved where
  | done (s : State)
  | halted (s : State)

/-- A read of SRAM met a parity error: it is reported and the list stops (R93, R259). -/
def moveParity (t : Nat) (r : Req) (s : State) : Moved := .halted (reportFound t r.idx false .parity s)

/-- A poisoned operand: no operation is applied, and the bad data is reported (R367). -/
def movePoison (t : Nat) (r : Req) (s : State) : Moved :=
  .done (badData { LogRec.atVa (tileRecord 0x03 St.poison t r.idx s) (s.tilePart t) r.va with thread := r.th } [] s)

/-- A STORE's piece is written (R286, R289, R367); `dmg` is damage that its transfer took. -/
def moveStore (t : Nat) (r : Req) (d : List Byte) (dmg : BitVec 64) (s : State) : Moved :=
  let rel := s.tileRelaxed t
  let a := tileSide rel d r.row r.off
  let n := r.len / memScale rel d
  let x := sramRead t [(a, n)] s
  let data := xorHead (Mem.readN x.2.1.scratch a n) dmg
  match x.1, DescF.memop d with
  | .parity, _ => moveParity t r x.2.2
  | f, 0 =>
    let bad := if f == .good then [] else
      (List.range ((n + 31) / 32)).filter fun i => x.2.1.poison.contains ((a + 32 * i) / 64)
    .done (locWrite (DescF.cache d) (s.tilePart t) r.loc data bad x.2.2)
  | .poisoned, _ => movePoison t r x.2.2
  | .good, op =>
    match r.loc with
    | .hbm pa =>
      let s := memOpLine op rel pa data x.2.2
      .done (if rel && (op == 4 || op == 5) then setNondet (s.tile t).chan s else s)
    | _ => .done x.2.2

/-- The offset in the weight-gradient buffer of a piece. -/
def wgbOffset (r : Req) (d : List Byte) : Nat := DescF.laddr d - 0x100000 + DescF.lstride d * r.row + r.off

/-- A WGB_UNLOAD's piece is written (R243). -/
def moveUnload (t : Nat) (r : Req) (d : List Byte) (dmg : BitVec 64) (s : State) : Moved :=
  let o := wgbOffset r d
  let x := sramRead t [(0x100000 + o, r.len)] s
  if x.1 == .parity then moveParity t r x.2.2
  else
    let data := xorHead (x.2.1.wgbBytes o r.len) dmg
    let s := match r.loc with
      | .tile a => landScratch t a data (fun _ => false) x.2.2
      | l => locWrite false (s.tilePart t) l data [] x.2.2
    let s := if DescF.clear d then s.modTile t fun y => y.cleanRange o r.len else s
    .done (s.wgbCtr fun c => Ctrs.sat c 2 (r.len / 64))

/-- Hold what a request's memory side gave. -/
def holdReq (t n : Nat) (x : List Byte × List Nat × State) : State :=
  x.2.2.modTile t fun y => { y with reqs := SMap.upd y.reqs n fun r => { r with held := some (x.1, x.2.1) } }

/-- The memory side of a request that returns bytes: its words, finalised where the descriptor says so (R77). -/
def memSide (t : Nat) (r : Req) (d : List Byte) (s : State) : List Byte × List Nat × State :=
  let fin (wide : Bool) (pa : Nat) : List Byte × List Nat × State :=
    let x := finalLine wide pa s
    (x.1, markOffsets pa x.2.1, x.2.2)
  match (if DescF.kind d = 1 then DescF.memop d else 0), r.loc with
  | 8, .hbm pa => fin true pa
  | 9, .hbm pa => fin false pa
  | _, l => locRead (DescF.cache d) (s.tilePart t) (pageKey (s.tilePart t) r.va) l r.len s

/-- An ATOMIC is applied in its line's home slice, and the old word is held (R284). -/
def serveAtomic (t n : Nat) (r : Req) (d : List Byte) (dmg : BitVec 64) (s : State) : Moved :=
  let w := DescF.width d
  let a := DescF.laddr d + w * r.row
  let c := DescF.saddr d + w * r.row
  let code := DescF.memop d
  let x := sramRead t (if code = 3 then [(a, w), (c, w)] else [(a, w)]) s
  match x.1, r.loc with
  | .parity, _ => moveParity t r x.2.2
  | .poisoned, _ => movePoison t r x.2.2
  | .good, .hbm pa =>
    let y := atomicWord (s.tile t).chan (s.tilePart t) code (DescF.operand d / 16) w pa
      (leNat (xorHead (Mem.readN x.2.1.scratch a w) dmg)) (leNat (Mem.readN x.2.1.scratch c w)) x.2.2
    .done (holdReq t n (natLe w y.1, if y.2.1 then [0] else [], y.2.2))
  | .good, _ => .done (holdReq t n (List.replicate w 0, [0], x.2.2))

/-- Which of a request's returning bytes are marked, by the marked sectors of its memory side. -/
def markedBytes (r : Req) (d : List Byte) (bad : List Nat) (i : Nat) : Bool :=
  let scale := if DescF.kind d = 1 then memScale false d else 1
  let o := match r.loc with
    | .hbm pa => pa % 32
    | .host _ h => h % 32
    | .far _ _ f => f % 32
    | _ => 0
  bad.contains ((o + scale * i) / 32)

/-- Deliver an MCAST's piece to every receiver's MRECV (R359, R360, R367). -/
def deliverMcast (t : Nat) (r : Req) (d : List Byte) (data : List Byte) (bad : Nat → Bool) (s : State) : State :=
  let rel := s.tileRelaxed t
  let ranks := (List.range (DescF.rankCount d)).map fun i => DescF.firstRank d + DescF.rankStride d * i
  match (s.tile t).chan.bind s.chan with
  | none => s
  | some c =>
    ranks.foldl (fun s k =>
      match c.tileList[k]? with
      | none => s
      | some u =>
        match (s.tile u).recvs.find? fun v => v.mtag == DescF.mtag d with
        | none => s
        | some v =>
          let s := landScratch u (v.laddr + v.lstride * r.row + r.off / memScale rel d) data bad s
          let left := v.left - data.length
          let s := s.modTile u fun x => { x with
            recvs := if left = 0 then x.recvs.filter (· != v)
              else x.recvs.map fun w => if w = v then { v with left := left } else w }
          if left = 0 then finishDesc u v.th v.list v.idx s else s) s

/-- A WGB_LOAD's piece is written, but for granules of poisoned lines or marked sectors (R244, R367). -/
def landWgb (t : Nat) (r : Req) (d : List Byte) (data : List Byte) (bad : Nat → Bool) (s : State) : State :=
  (List.range (r.len / 64)).foldl (fun s i =>
    if bad i then s
    else (s.modTile t fun y => y.wgbLoad (wgbOffset r d + 64 * i) ((data.drop (64 * i)).take 64)).wgbCtr
      fun c => Ctrs.sat c 3 1) s

/-- A WGB_LOAD from the tile's own scratchpad. -/
def moveLoadTile (t : Nat) (r : Req) (d : List Byte) (a : Nat) (s : State) : Moved :=
  let x := sramRead t [(a, r.len)] s
  if x.1 == .parity then moveParity t r x.2.2
  else
    let s := landWgb t r d (Mem.readN x.2.1.scratch a r.len)
      (fun i => x.1 != .good && x.2.1.poison.contains ((a + 64 * i) / 64)) x.2.2
    if x.1 == .good then .done s
    else .done (badData { tileRecord 0x03 St.poison t r.idx s with thread := r.th } [] s)

/-- Bytes that a read returns reach their destination; `dmg` is damage that their transfer took. -/
def landReq (t : Nat) (r : Req) (d : List Byte) (dmg : BitVec 64) (x : List Byte × List Nat) (s : State) : State :=
  let data := xorHead x.1 dmg
  let bad := markedBytes r d x.2
  match DescF.kind d with
  | 1 => requestBad t r r.loc x.2 (landScratch t (tileSide (s.tileRelaxed t) d r.row r.off) data bad s)
  | 4 => requestBad t r r.loc x.2 (deliverMcast t r d data bad s)
  | 7 => requestBad t r r.loc x.2 (landWgb t r d data (fun i => x.2.contains (2 * i) || x.2.contains (2 * i + 1)) s)
  | 8 => requestBad t r r.loc x.2 (landScratch t (DescF.laddr d + DescF.width d * r.row) data (fun _ => !x.2.isEmpty) s)
  | _ => s

/-! ### Requests in the queues -/

/-- The kind of a request's first ticket, and its cost at its controller (R296). -/
def reqTicket (d : List Byte) : TicketKind × Nat :=
  match DescF.kind d with
  | 2 => (.write, if DescF.memop d = 0 then 256 else 512)
  | 6 => (.write, 256)
  | 8 => (.read, 512)
  | _ => (.read, 256)

/-- The physical address of a place in local HBM. -/
def Loc.pa : Loc → Option Nat
  | .hbm pa => some pa
  | _ => none

/-- The bank sets that a request goes to: its memory side's, and a COPY's destination's. -/
def Req.bankSets (r : Req) : NSet := NSet.addAll [] ((r.loc.pa.toList ++ r.dst.pa.toList).map bankId)

/-- Hand a ticket to its controller, or to the die's request path behind what the controller does not admit (R271). -/
def sendTicket (k : Ticket) (s : State) : State :=
  let m := s.mem
  { s with mem :=
      if (SMap.getD m.pathQ k.bank []).isEmpty && !(k.kind == .read && decide (1024 ≤ m.admitted k.bank)) then m.ingest k
      else { m with pathQ := SMap.updD m.pathQ [] k.bank (· ++ [k]) } }

/-- Put a request into its controllers' ingress queues (R297): a COPY's write follows its read. -/
def enqueueReq (t n : Nat) (r : Req) (d : List Byte) (s : State) : State :=
  let part := s.tilePart t
  let k := reqTicket d
  let s := match r.loc.pa with
    | some pa => sendTicket ⟨t, n, k.2, bankId pa, part, k.1, true⟩ s
    | none => s
  match r.dst.pa with
  | some pa => sendTicket ⟨t, n, 256, bankId pa, part, .copyOut, false⟩ s
  | none => s

/-- The request stands first in its memory side's bank set queue (R270). -/
def State.reqServed (s : State) (t n pa : Nat) : Bool :=
  match SMap.getD s.mem.bankQ (bankId pa) [] with
  | k :: _ => k.tile == t && k.req == n
  | [] => false

/-- Take a request out of the queues of the bank sets that it goes to. -/
def leaveQueues (t n : Nat) (r : Req) (s : State) : State :=
  let gone (l : List Ticket) : List Ticket := l.filter fun k => !(k.tile == t && k.req == n)
  r.bankSets.foldl (fun s b =>
    let m := s.mem
    { s with mem := Hbm.refill b { m with
      bankQ := SMap.updD m.bankQ [] b fun l => dropServed (gone l)
      pathQ := SMap.updD m.pathQ [] b gone
      ingress := (List.range 4).foldl (fun q p => SMap.updD q [] (4 * (b / 512) + p) gone) m.ingress } }) s

/-- Take a request out of the queues and out of its tile: its tag returns. -/
def removeReq (t n : Nat) (r : Req) (s : State) : State :=
  (leaveQueues t n r s).modTile t fun x => { x with reqs := SMap.del x.reqs n }

/-- A request has completed: it is counted, its tag returns, its descriptor and list may complete (R347). -/
def retireReq (t n : Nat) (r : Req) (s : State) : State :=
  let s := (removeReq t n r s).tfeCtr t fun c => Ctrs.wrap c 1 1
  finishDesc t r.th r.list r.idx (s.modTile t fun x =>
    (x.modList r.th r.list fun l => l.modDesc r.idx fun d => { d with flight := d.flight - 1 }).wakeQuota r.banks)

/-- A request met a parity error: its list stops there (R93). -/
def haltReq (t n : Nat) (r : Req) (s : State) : State :=
  (removeReq t n r s).modTile t fun x =>
    (x.modList r.th r.list fun l => { l with stopped := true, descs := [] }).wakeQuota r.banks

/-- The outcome of a request whose move was its last. -/
def retireMoved (t n : Nat) (r : Req) : Moved → State
  | .done s => retireReq t n r s
  | .halted s => haltReq t n r s

/-- The fetched words of the descriptor that a request belongs to. -/
def State.reqDesc (s : State) (t : Nat) (r : Req) : Option (List Byte) :=
  ((s.tile t).desc r.th r.list r.idx).map (·.raw)

/-- A controller admits a request to its bank set's queue and serves it in that order: a write completes (R347), and
what a read or an ATOMIC returns is held. -/
def serveTicket (k : Ticket) (r : Req) (d : List Byte) (dmg : BitVec 64) (s : State) : State :=
  let t := k.tile
  let n := k.req
  match k.kind with
  | .write => retireMoved t n r (if DescF.kind d = 2 then moveStore t r d dmg s else moveUnload t r d dmg s)
  | .copyOut =>
    let x := r.held.getD ([], [])
    retireReq t n r (locWrite (DescF.cache d) k.part r.dst (xorHead x.1 dmg) x.2 s)
  | .read =>
    if DescF.kind d = 8 then
      match serveAtomic t n r d dmg s with
      | .done s => s
      | .halted s => haltReq t n r s
    else holdReq t n (memSide t r d s)

/-- A buffer of a slot: 0 LB0, 1 LB1, 2 OB. -/
def Slot.buf (x : Slot) (b : Nat) : QBuf := SMap.getD x.bufs b QBuf.reset

/-- Change a buffer. -/
def Slot.modBuf (x : Slot) (b : Nat) (f : QBuf → QBuf) : Slot := { x with bufs := SMap.updD x.bufs QBuf.reset b f }

/-- The buffer that SRC names. -/
def bufOf (src : Nat) : Nat := if src = 0 then 2 else src - 1

/-- Bits lo to lo + n - 1 of an instruction. -/
abbrev insBits (w : BitVec 128) (lo n : Nat) : Nat := (w.extractLsb' lo n).toNat

/-- A QSEND from a buffer will not run. -/
def QBuf.unsend (b : QBuf) : QBuf := { b with sending := b.sending - 1 }

/-- What a tile's streamer holds of slots goes: its stalled APPEND, and its QSENDs (R195, R215) that have not run. -/
def dropStreamer (t : Nat) (s : State) : State :=
  let x := s.tile t
  let sends := ((x.queue 2).filter fun e => !e.ran && insBits e.word 8 4 == 7).map fun e =>
    (insBits e.word 32 4, bufOf (leNat (Mem.readN x.scratch (e.base.toNat + 4) 1)))
  { s with leafs := { s.leafs with slots := s.leafs.slots.map fun y =>
      (y.1, (sends.filter fun e => e.1 == y.1).foldl (fun z e => z.modBuf e.2 QBuf.unsend)
        { y.2 with stalls := SMap.del y.2.stalls t }) } }

/-- Halt a tile: what a controller has admitted of its writes stands, everything else in flight is discarded (R144,
R369). -/
def haltTile (t : Nat) (s : State) : State := dropTickets t ((dropStreamer t s).modTile t Tile.halt)

/-- Halt every tile of a channel. -/
def haltChan (x : Chan) (s : State) : State := x.tileList.foldl (fun s t => haltTile t s) s

/-- A channel that has ended uses no slot. -/
def dropUser (c : Nat) (s : State) : State :=
  { s with leafs := { s.leafs with slots := s.leafs.slots.map fun y => (y.1, { y.2 with users := y.2.users.filter (· != c) }) } }

/-- Stop a channel at once (R144): its work is discarded and its tiles are free. -/
def stopChan (c : Nat) (run : Nat) (s : State) : State :=
  match s.chan c with
  | none => s
  | some x =>
    if x.running then
      (dropUser c (freeTiles x (haltChan x s))).modChan c fun y => { y with runState := run, started := false }
    else s

/-! ### What a tile shows (R131, R132, R260) -/

/-- The state that a thread shows: 6 while a quota holds its context (R356), unless it has ended or faulted. -/
def Thread.shown (h : Thread) : ThState :=
  if h.hold.isSome && h.st != .idle && h.st != .ended && h.st != .faulted then .waitQuota else h.st

/-- CT.THREAD_STATE. -/
def Tile.threadState (t : Tile) : Nat := (List.range 8).foldl (fun v n => v + (t.thread n).shown.code * 16 ^ n) 0

/-- CT.FAULT_INFO of tile n. -/
def Tile.faultWord (t : Tile) (n : Nat) : Nat := t.faultInfo.toNat + n * 2 ^ 48

/-- WGB.STATUS (R260). -/
def Tile.wgbStatus (t : Tile) : Nat :=
  let busy := t.reqs.any fun p =>
    match t.desc p.2.th p.2.list p.2.idx with
    | some d => DescF.kind d.raw == 6 || DescF.kind d.raw == 7
    | none => false
  (4096 - t.dirty.length) + bit busy 13

end Sys2Proof.Machine
end

