-- ==== Sys2Proof/Machine/CommitOps.lean ====
section
/-! DEFINITION. What each part of the device does at a commit tick, at a step's first tick and at a step replay
(R39, R40, R427): completions, slots, numerics, fixed-point blocks, ingest, collectives and mirrors. -/

namespace Sys2Proof.Machine

/-! ### The device's place in the schedule -/

/-- The step in which a change that waits for a step boundary first applies (R68): the step that follows the
next commit tick; with no schedule the change is made at once, for the step after the last commit (35). -/
def State.nextApply (s : State) : Nat :=
  if s.spine.running then s.spine.step + 1
  else match s.spine.committed with
    | some n => n + 1
    | none => 0

/-- The commit that a rewind of the running step names: the step before it. -/
def State.lastCommit (s : State) : Nat := (s.spine.step + 2 ^ 64 - 1) % 2 ^ 64

/-- Every granule of a VA range that lies in tier 1 becomes unwritten. -/
def clearVa (part va len : Nat) (s : State) : State :=
  (pagePieces va len).foldl (fun s p =>
    match s.vaPa part p.1 with
    | some pa => markUnwritten (pa / pageSize) 1 s
    | none => s) s

/-! ### Completion records (R558 to R560) -/

/-- The 32 bytes of a record. -/
def CplRec.bytes (r : CplRec) (phase : Bool) : List Byte :=
  natLe 2 r.chan ++ natLe 2 r.count ++ natLe 1 ((if phase then 1 else 0) + (if r.nondet then 2 else 0)) ++ natLe 3 0
    ++ natLe 8 r.step ++ natLe 6 r.tick ++ natLe 10 0

/-- The ring has room. -/
def State.ringRoom (s : State) : Bool :=
  match s.hif.ring with
  | some r => decide ((s.hif.cplProduced - s.hif.cplConsumed).toNat < r.2)
  | none => false

/-- Write a record to the ring, then CPL_PRODUCED, then send the channel's vector. -/
def postRecord (r : CplRec) (s : State) : State :=
  match s.hif.ring with
  | none => s
  | some (a, n) =>
    let p := s.hif.cplProduced.toNat
    let s := hostWrite (a + 32 * (p % n)) (r.bytes (p / n % 2 == 0)) s
    let s := { s with hif := { s.hif with cplProduced := s.hif.cplProduced + 1 } }
    let s := match s.chan r.chan with
      | some c => if c.cplIrq then sendVector c.cplVector s else s
      | none => s
    raiseCause Cause.completion s

/-- Merge a completion into the record that is held for its channel, or hold it (R560). -/
def holdRecord (r : CplRec) (s : State) : State :=
  if s.hif.held.any fun h => h.chan == r.chan then
    ({ s with hif := { s.hif with held := s.hif.held.map fun h =>
        if h.chan = r.chan then
          { h with count := min (h.count + 1) 65535, nondet := h.nondet || r.nondet, step := r.step, tick := r.tick }
        else h } } : State).hifCtr fun c => Ctrs.sat c 2 1
  else { s with hif := { s.hif with held := s.hif.held ++ [r] } }

/-- Post a completion, or hold it while the ring is full; with no ring nothing is posted or held. -/
def complete (r : CplRec) (s : State) : State :=
  match s.hif.ring with
  | none => s
  | some _ => if s.ringRoom then postRecord r s else holdRecord r s

/-- Post held records while the ring has room. -/
def postHeld : Nat → State → State
  | 0, s => s
  | n + 1, s =>
    match s.hif.held with
    | r :: rs => if s.ringRoom then postHeld n (postRecord r { s with hif := { s.hif with held := rs } }) else s
    | [] => s

/-! ### Channels at a commit (R36, R136, R137, R144) -/

/-- A commit of step n at tick c for one channel: a completed step is recorded and posted; a channel without
STEP_PERIODIC that has ended, and one that stops at this commit, ends and frees its tiles. DESIGN CHOICE (log entry 158): its
threads are Idle then. -/
def commitChan (n c k : Nat) (s : State) : State :=
  match s.chan k with
  | none => s
  | some x =>
    if !x.running then s.modChan k fun x => { x with nondet := x.nondetStep, nondetStep := false }
    else
      let periodic := (x.header.map (·.periodic)).getD false
      let done := s.chanDone x
      let ends := x.runState == 4 || (done && !periodic)
      let s := s.modChan k fun x => { x with
        nondet := x.nondetStep
        nondetStep := false
        lastStep := if done then n else x.lastStep
        runState := if ends then 6 else x.runState
        started := x.started && !ends }
      let s := if ends then dropUser k (freeTiles x (haltChan x s)) else s
      if done && x.cplRecord then complete ⟨k, 1, x.nondetStep, n, c⟩ s else s

/-- Some channel of the device set NONDET in the step (R565). -/
def State.anyNondet (s : State) : Bool := s.chans.table.any fun p => p.2.nondetStep

/-! ### Slots (R230) -/

/-- Leaves per track. -/
def Slot.perTrack (q : Slot) : Nat := q.maxTokens / 16

/-- A slot. -/
def State.slot (s : State) (q : Nat) : Option Slot := SMap.lookup s.leafs.slots q

/-- A ring record takes effect (R213): nothing of the ring before it remains. -/
def Slot.putRing (x : Slot) (r : Ring) : Slot :=
  { x with ring := some r, ringPend := none, credits := [0, 1], bufs := [], ob := [] }

/-- Change a slot. -/
def State.modSlot (s : State) (q : Nat) (f : Slot → Slot) : State :=
  { s with leafs := { s.leafs with slots := SMap.upd s.leafs.slots q f } }

/-- Where a RETIRING leaf is kept when a new leaf takes its place in the track (53). -/
def retiredKey (i : Nat) : Nat := i + 2 ^ 40

/-- The two words of a leaf table entry (R189). -/
def Leaf.words (l : Leaf) : List Nat :=
  [(if l.tier = 1 then l.frame % 2 ^ 30 else 0) + l.tier % 4 * 2 ^ 30 + l.state % 4 * 2 ^ 32 + bit l.pin 34 + bit l.motion 35
    + bit l.farcopy 36 + l.fill % 32 * 2 ^ 37 + l.lastUse % 2 ^ 22 * 2 ^ 42, (l.far.map FarRef.word).getD 0]

/-- Write leaf table entry i in the memory at LEAF_TABLE (R187 to R189). -/
def putEntry (q i : Nat) (s : State) : State :=
  match s.slot q with
  | none => s
  | some x =>
    if retiredKey 0 ≤ i then s
    else match SMap.lookup s.leafs.pools x.pool with
      | some p => vaWriteMarks p.part (x.leafTable + 16 * i) ((SMap.getD x.leaves i Leaf.free).words.flatMap (natLe 8)) [] s
      | none => s

/-- Change a leaf, and its entry in the leaf table's memory. -/
def State.modLeaf (s : State) (q i : Nat) (f : Leaf → Leaf) : State :=
  putEntry q i (s.modSlot q fun x => { x with leaves := SMap.updD x.leaves Leaf.free i f })

/-- A leaf's eviction that is in progress ends, whatever came of it. -/
def endEvict (q i : Nat) (s : State) : State :=
  { s with leafs := { s.leafs with evicting := s.leafs.evicting.filter fun e => !(e.1 == q && e.2.1 == i) } }

/-- Free a leaf: its frame returns to its pool, its far copy is released. -/
def freeLeaf (q i : Nat) (s : State) : State :=
  match s.slot q with
  | none => s
  | some x =>
    let l := SMap.getD x.leaves i Leaf.free
    let s := if l.tier = 1 then
        { s with leafs := { s.leafs with pools := SMap.upd s.leafs.pools x.pool fun p =>
            { p with used := NSet.erase p.used l.frame } } }
      else s
    endEvict q i (s.modLeaf q i fun _ => Leaf.free)

/-- A slot at a commit: RETIRING leaves are freed, and the lengths are committed. -/
def commitSlot (q : Nat) (s : State) : State :=
  match s.slot q with
  | none => s
  | some x =>
    let s := (x.leaves.filter fun l => l.2.state == 3).foldl (fun s l => freeLeaf q l.1 s) s
    s.modSlot q fun x => { x with clens := x.lens, sent := 0, got := 0 }

/-- A leaf as the committed lengths have it; one that is not full any more is no eviction candidate, so that it does not
leave. -/
def restoreLeaf (clen i : Nat) (l : Leaf) : Leaf :=
  let f := min 16 (clen - 16 * i)
  { l with fill := f, state := if f = 16 then 2 else 1, motion := l.motion && !(f != 16 && l.tier == 1) }

/-- A slot at a step replay. -/
def rewindSlot (q : Nat) (s : State) : State :=
  match s.slot q with
  | none => s
  | some x =>
    let clen (i : Nat) : Nat := SMap.getD x.clens (i / x.perTrack) 0
    let gone (l : Nat × Leaf) : Bool :=
      decide (l.1 < retiredKey 0) &&
        (decide ((clen l.1 + 15) / 16 ≤ l.1 % x.perTrack) || (SMap.lookup x.leaves (retiredKey l.1)).isSome)
    let s := (x.leaves.filter gone).foldl (fun s l => freeLeaf q l.1 s) s
    let s := match x.ring, SMap.lookup s.leafs.pools x.pool with
      | some r, some p => [r.lb0, r.lb1, r.ob].foldl (fun s a => clearVa p.part a r.lbSize s) s
      | _, _ => s
    let s := s.modSlot q fun x => { x with
      leaves := x.leaves.foldl (fun m l =>
        let i := l.1 % retiredKey 0
        SMap.put m i (restoreLeaf (clen i) (i % x.perTrack) l.2)) []
      lens := x.clens
      bufs := []
      ob := []
      sent := 0
      got := 0
      credits := [0, 1]
      stalls := [] }
    (((s.slot q).map (·.leaves)).getD []).foldl (fun s l =>
      putEntry q l.1 (if l.2.motion then s else endEvict q l.1 s)) s

/-- Every slot, ascending. -/
def eachSlot (f : Nat → State → State) (s : State) : State :=
  s.leafs.slots.foldl (fun s p => f p.1 s) s

/-! ### Statistics, decisions and fixed-point blocks (R79 to R85, R293, R663) -/

/-- A tensor's record at a commit of step n: the combined statistics, this step's amax, the decision. -/
def commitTensor (n : Nat) (old : Option TensorRec) (st : Option Stats) (dec : Option Decision) : TensorRec :=
  let base := old.getD ⟨n, Stats.reset, [], ⟨1, 0, 9, 0⟩⟩
  { base with
    step := if st.isSome then n else base.step
    stats := st.getD base.stats
    amax := SMap.setD base.amax 0 (n % 16) ((st.map (·.amax)).getD 0)
    dec := dec.getD base.dec }

/-- FORMAT and TEXP that a tensor has in the running step: its committed record's (R80, R253); with none, those of the pin
that was in force at the last decisions, or INITIAL_FORMAT (94). -/
def Numerics.govFormat (m : Numerics) (t : Nat) : Nat × Int :=
  match SMap.lookup m.tensors t with
  | some r => (r.dec.format, r.dec.texp)
  | none =>
    match SMap.lookup m.pins t with
    | some p => (p.1, if p.2 = -128 then 0 else p.2)
    | none => (m.gov.initialFormat, 0)

/-- The pins and releases that apply from step k or before are in force. -/
def Numerics.settlePins (k : Nat) (m : Numerics) : Numerics :=
  { m with
    pins := (m.pinPend.filter fun p => decide (p.step ≤ k)).foldl (fun l p =>
      match p.pin with
      | some v => SMap.put l p.tensor v
      | none => SMap.del l p.tensor) m.pins
    pinPend := m.pinPend.filter fun p => decide (k < p.step) }

/-- Commit the statistics records and the governor's decisions (R79, R82, R88). -/
def commitNumerics (n : Nat) (s : State) : State :=
  let m := s.num
  let ids := NSet.addAll [] (m.tensors.map (·.1) ++ m.combined.map (·.1) ++ m.decided.map (·.1))
  let changed := (m.decided.filter fun d => d.2.format != (m.govFormat d.1).1).length
  let fell := (m.decided.filter fun d => d.2.reason == 1).length
  let tensors := ids.map fun t =>
    (t, commitTensor n (SMap.lookup m.tensors t) (SMap.lookup m.combined t) (SMap.lookup m.decided t))
  let add (c : Ctrs) (i k : Nat) : Ctrs := if k = 0 then c else Ctrs.sat c i k
  { s with num := { Numerics.settlePins (n + 1) m with
    tensors := tensors, gathered := [], combined := [], decided := [], govDone := false
    ctrs := add (add m.ctrs 0 changed) 1 fell } }

/-- A block at a commit of step n. -/
def commitBlock (n : Nat) (b : FxBlock) : FxBlock :=
  { b with
    e := b.eNext.getD b.e
    eNext := none
    d := ((b.pend.filter fun p => p.1 ≤ n + 1).getLast?.map (·.2)).getD b.d
    pend := b.pend.filter fun p => decide (n + 1 < p.1)
    amaxC := b.amaxU
    satC := b.satU
    hist := SMap.setD b.hist 0 (n % 16) b.amaxU
    amaxU := 0
    satU := false }

/-- A block at a step replay (R293). -/
def rewindBlock (b : FxBlock) : FxBlock := { b with eNext := none, amaxU := 0, satU := false }

/-- Change every block of every region. -/
def Hbm.mapFx (m : Hbm) (f : FxBlock → FxBlock) : Hbm :=
  { m with fx := m.fx.map fun r => (r.1, { r.2 with
      blocks := ((List.range r.2.frames.length).map fun i =>
        (i, f (SMap.getD r.2.blocks i FxBlock.reset))).filter fun b => b.2 != FxBlock.reset }) }

/-- Every granule of every region becomes unwritten. -/
def clearRegions (s : State) : State :=
  s.mem.fx.foldl (fun s r => r.2.frames.foldl (fun s f => markUnwritten f 1 s) s) s

/-! ### Ingest (R484, R485) -/

/-- The ingest engine at a commit of step n: the record taken at the start of the next step's first
micro-batch is retained. -/
def commitIngest (n : Nat) (s : State) : State :=
  { s with ige := { s.ige with
    retained := (SMap.lookup s.ige.marks (n + 1)).getD s.ige.cur
    marks := s.ige.marks.filter fun p => decide (n < p.1) } }

/-- The ingest engine at a step replay: it goes on from the retained record, and buffers at or beyond its micro-batch are
unfilled. -/
def rewindIngest (s : State) : State :=
  { s with ige := { s.ige with
    cur := s.ige.retained, marks := [], open_ := false, fill := 0, tail := [], sample := none, skips := 0
    full := s.ige.full.filter fun j => decide (j < s.ige.retained.j), wait := none, waitsRelease := false } }

/-! ### Collectives (R424, R452, R454) -/

/-- An entry of the schedule in force by a run's key: a gather tail carries 4,096 for each commit that it has
outlived (R452). -/
def State.entryOf (s : State) (k : Nat) : Option Entry :=
  s.spine.sched.bind fun d => d.entries[k % 4096]?

/-- The number of chunks of an entry in a group of g (R434). -/
def Entry.chunkCount (e : Entry) (g : Nat) : Nat :=
  if e.op = 6 then 1
  else if e.op = 1 ∨ e.op = 4 then g * ((e.count / g + e.chunkElems - 1) / e.chunkElems)
  else (e.count + e.chunkElems - 1) / e.chunkElems

/-- A group of the current epoch. -/
def State.group (s : State) (g : Nat) : Option Group := SMap.lookup s.cle.groups g

/-- The run of an entry is complete on this member. -/
def State.runDone (s : State) (k : Nat) (r : Run) : Bool :=
  match s.entryOf k with
  | some e => r.aborted || decide (e.chunkCount ((s.group e.group).map (·.pos.length) |>.getD 1) ≤ r.complete)
  | none => true

/-- FORMAT and TEXP of a governed tensor in the running step (R253, R257). -/
def State.govFormat (s : State) (t : Nat) : Nat × Int := s.num.govFormat t

/-- The runs of a step's entries begin empty, each with the format in force. -/
def openRuns (n : Nat) (s : State) : State :=
  match s.spine.sched with
  | none => s
  | some d =>
    let new := ((List.range d.entries.length).zip d.entries).map fun p =>
      let f := if p.2.gov then s.govFormat p.2.tensor else (p.2.fmt, p.2.texp)
      (p.1, { Run.reset with step := n, fmt := f.1, texp := f.2 })
    { s with cle := { s.cle with runs := new ++ s.cle.runs.filter fun p => decide (4096 ≤ p.1) } }

/-- Collectives at a commit: what is not complete is carried over (84); a gather tail stays for one more step, in which
a replay sends it again whole (R452, 85). -/
def commitCle (s : State) : State :=
  let keep := s.cle.runs.filter fun p =>
    match s.entryOf p.1 with
    | some e => !e.commitNeed && (!s.runDone p.1 p.2 || (e.op == 4 && decide (p.1 < 4096)))
    | none => false
  { s with cle := { s.cle with runs := keep.map fun p => (p.1 + 4096, p.2), delivered := [] } }

/-- Collectives at a step replay: the step's entries are discarded, and tails start again whole. -/
def rewindCle (s : State) : State :=
  { s with cle := { s.cle with
    runs := (s.cle.runs.filter fun p => decide (4096 ≤ p.1)).map fun p => (p.1, { Run.reset with step := p.2.step, fmt := p.2.fmt, texp := p.2.texp })
    delivered := [] } }

/-- A new epoch takes effect (R455). -/
def switchEpoch (n : Nat) (s : State) : State :=
  match s.cle.pend with
  | some p =>
    if n != 0 && p.epoch == n then
      { s with
        cle := { s.cle with groups := p.groups, epoch := p.epoch, pend := none, runs := [] }
        spine := { s.spine with sched := some p.sched, schedPend := none } }
    else s
  | none => s

/-! ### Mirrors and the position table -/

/-- A link as ENABLE of its entry has it: disabled, or released again by firmware (R394, R407). -/
def Link.enabled (x : Link) (on : Bool) : Link :=
  if on then (if x.st = 7 then x.fresh 0 else x)
  else if x.st = 7 then x else { x.fresh 7 with outSince := none }

/-- Put a position table in force: rebinds of the table before it end, the device takes the Stag's role when
it stands at STAG_POS, isolation ends, and links whose entries are disabled are (R394, R398, R401, R417). -/
def installTable (p : PosTable) (s : State) : State :=
  let on (l : Nat) : Bool := ((p.entries[l]?).map (·.enable)).getD false && !s.links.off.contains l
  let s := (List.range 32).foldl (fun s l => s.modLink l fun x => x.enabled (on l)) s
  resendFar { s with
    links := { s.links with table := some p, tablePend := none, rebinds := [], standIns := [], isolated := false
                            lostPos := [] }
    spine := { s.spine with stag := p.myPos == p.stagPos, cand := 0 } }

/-- The amax history of the mirrored blocks with the owner state's amax of step n (R512). -/
def pushHistory (n : Nat) (owner : List Byte) (h : SMap (List (BitVec 32))) : SMap (List (BitVec 32)) :=
  (List.range ((owner.length - 64) / 8)).map fun i =>
    (i, (SMap.getD h i (List.replicate 16 0)).set (n % 16) (BitVec.ofNat 32 (fieldAt owner (64 + 8 * i + 4) 4)))

/-- The mirror, the owner state it keeps, a position table that waited, and links that came back, at a commit
(R391, R398, R505, R512). -/
def commitTables (s : State) : State :=
  let joined := s.links.links.map fun l => (l.1, if l.2.st = 3 then { l.2 with joined := true } else l.2)
  let s := { s with
    rse := { s.rse with
      ownerC := s.rse.ownerU
      ownerHist := pushHistory s.spine.step s.rse.ownerU s.rse.ownerHist
      mirroredC := s.rse.mirroredU
      mirroredU := 0
      mirror := s.rse.mirrorPend.getD s.rse.mirror
      mirrorPend := none }
    links := { s.links with links := joined } }
  match s.links.tablePend with
  | some t => installTable t s
  | none => resendFar s

/-! ### The telemetry mirror's step block (R565) -/

/-- Write a word of the mirror. -/
def mirrorWord (off : Nat) (v : Nat) (s : State) : State :=
  { s with hif := { s.hif with mirror := SMap.setD s.hif.mirror 0 (off / 8) (BitVec.ofNat 64 v) } }

/-- The step block, written between an odd and an even SEQ; the steps of SEQ are not seen apart (7). -/
def stepBlock (s : State) : State :=
  let q := (SMap.getD s.hif.mirror 0 0).toNat
  let s := mirrorWord 0 (q + 2) s
  let s := mirrorWord 0x100 (s.spine.committed.getD 0) s
  let s := mirrorWord 0x108 s.spine.commitTick s
  let s := mirrorWord 0x110 (s.spine.loss.toNat + (if s.spine.lossNondet then 2 ^ 32 else 0)) s
  mirrorWord 0x118 s.rse.replays s

end Sys2Proof.Machine
end

