-- ==== Sys2Proof/Machine/HerdOps.lean ====
section
/-! DEFINITION. The herd's orders as a member applies them and as the acting Stag gives them: COMMIT, REWIND,
STOP, REBIND, the start of a step (R402, R421 to R431, R498 to R504, R516), and the answer to faults (R430). -/

namespace Sys2Proof.Machine

/-! ### Placement (R435, R457, R459) -/

/-- Relative ranks of the children of relative rank q in a tree over g ranks (R435). -/
def treeKids (radix g q : Nat) : List Nat :=
  ((List.range radix).map fun i => radix * q + 1 + i).filter (· < g)

/-- The rank at relative rank q of a tree with root o. -/
def rankAt (g o q : Nat) : Nat := (q + o) % g

/-- The relative rank of a rank. -/
def relRank (g o r : Nat) : Nat := (r + g - o) % g

/-- The roots that an entry's chunks have in a group of g. -/
def Entry.roots (e : Entry) (g : Nat) : List Nat :=
  if e.op = 3 ∨ e.op = 5 ∨ e.op = 7 then [e.root] else List.range g

/-- Ranks beside a rank in the trees of an entry: parents and children. -/
def Entry.neighbours (e : Entry) (g r : Nat) : List Nat :=
  if e.op = 7 then (List.range g).filter (· != r)
  else NSet.addAll [] ((e.roots g).flatMap fun o =>
    let q := relRank g o r
    ((if q = 0 then [] else [(q - 1) / e.radix]) ++ treeKids e.radix g q).map (rankAt g o))

/-- The edges of this device: the cut (0 shard, 1 sequence, 2 pipeline, 3 other), the group or slot, and the
position at the far end (R459). -/
def State.edges (s : State) : List (Nat × Nat × Nat) :=
  let es := (s.spine.sched.map (·.entries)).getD []
  (s.cle.groups.flatMap fun g =>
    match g.2.pos.findIdx? (· == s.myPos) with
    | none => []
    | some r =>
      (NSet.addAll [] ((es.filter fun e => e.group == g.1).flatMap fun e =>
        e.neighbours g.2.pos.length r)).map fun k => (g.2.kind, g.1, g.2.pos.getD k 0xFFFF))
  ++ s.leafs.slots.flatMap fun q =>
    match q.2.ring with
    | some r => [(1, q.1, r.next), (1, q.1, r.prev)]
    | none => []

/-- Links and worst class of a position's set. -/
def State.edgeLinks (s : State) (p : Nat) : Nat × Nat :=
  let ls := s.linkSet p
  (ls.length, (ls.map fun l => (s.link l).cls).foldl max 0)

/-- An edge has its favoured placement (R457). -/
def favoured (cut n cls : Nat) : Bool :=
  match cut with
  | 1 => decide (4 ≤ n ∧ cls ≤ 1)
  | 2 => decide (2 ≤ n ∧ cls ≤ 2)
  | _ => decide (1 ≤ n)

/-- Edges that have their favoured placement. -/
def State.favouredEdges (s : State) : List (Nat × Nat × Nat) :=
  s.edges.filter fun e => favoured e.1 (s.edgeLinks e.2.2).1 (s.edgeLinks e.2.2).2

/-- After a link loss or a rebind: an edge that fell below its favoured placement sets DEGRADED and raises
the herd-event cause (R459). `before` are the edges that had it. -/
def checkPlacement (before : List (Nat × Nat × Nat)) (s : State) : State :=
  let now := s.favouredEdges
  if before.any fun e => !now.contains e then
    raiseCause Cause.herdEvent { s with spine := { s.spine with degraded := true } }
  else s

/-! ### The commit (R427, R431) -/

/-- Apply the commit of step n at tick c. The loss is a free value that the committed state before the step fixes, unless
the step was nondeterministic (R34). -/
def applyCommit (n c epoch : Nat) (s : State) : State :=
  let nd := s.anyNondet
  let d := s.draw
  let loss := Config.freeWord (if nd then d.1 else s.spine.lossDraw)
  let s := commitNumerics n d.2
  let s := { s with mem := s.mem.mapFx (commitBlock n) }
  let s := commitIngest n (eachSlot commitSlot s)
  let s := switchEpoch epoch (commitCle (commitTables s))
  let s := { s with
    spine := { s.spine with
      committed := some n, commitTick := c, loss := BitVec.setWidth 32 loss, lossNondet := nd, lossDraw := d.1
      step := n + 1, started := false, readyTick := none }
    rse := { s.rse with replays := 0 } }
  let s := (s.chans.table.map (·.1)).foldl (fun s k => commitChan n c k s) s
  stepBlock (s.cleCtr fun k => Ctrs.wrap k 4 1)

/-! ### The recovery window (R40, R498, R504) -/

/-- Open a recovery window of a kind, or change the kind of the one that is open; the recovery cause is
raised once when a window opens. -/
def openWindow (kind : Nat) (m fp : Nat) (f : Option FaultRec) (s : State) : State :=
  let s := if s.rse.window = 0 then raiseCause Cause.recovery s else s
  { s with rse := { s.rse with window := kind, winCommit := m, fPrime := fp, winFault := if s.rse.window = 0 then f else s.rse.winFault <|> f } }

/-- Stop the running channels for a replay: their tiles are halted and discarded, and the weight-gradient buffer of every
tile becomes clean (R139, R237, R258, R369). What any channel did in the step no longer counts for its NONDET. -/
def haltAll (s : State) : State :=
  let s := s.runningChans.foldl (fun s k =>
    match s.chan k with
    | some x => (haltChan x s).modChan k fun y => { y with started := false }
    | none => s) s
  let kept := s.tiles.map fun t => (t.1, if t.2.chan.isSome then t.2.discard else t.2.clean)
  let s := { s with tiles := kept.filter fun t => t.2 != Tile.reset }
  { s with chans := { s.chans with table := s.chans.table.map fun c => (c.1, { c.2 with nondetStep := false }) } }

/-- Ask the holder of the good copy for each damaged mirror block; with no holder the copy is lost
(R513, R514). -/
def askRepairs (s : State) : State :=
  s.rse.repairs.foldl (fun s b =>
    let p := if b.1 then s.rse.mirror.mirrorOf else s.rse.mirror.twinPos
    if p = 0xFFFF ∨ s.linkSet p = [] then
      reportFault (LogRec.make 3 0x34 St.uncorrectable 0) s
    else s.emit (.repairRequest p b.1 b.2)) s

/-- Discard all work since commit m and restore the state that it left (R40). -/
def restoreCommit (s : State) : State :=
  let s := haltAll s
  let s := { s with num := { s.num with gathered := [], combined := [], decided := [], govDone := false } }
  let s := clearRegions { s with mem := s.mem.mapFx rewindBlock }
  let s := rewindCle (rewindIngest (eachSlot rewindSlot s))
  { s with
    rse := { s.rse with ownerU := s.rse.ownerC, mirroredU := 0 }
    spine := { s.spine with started := false, readyTick := none } }

/-- Apply a commit that an order names and this member has not applied (R431). -/
def catchUp (m c : Nat) (s : State) : State :=
  if s.spine.step = m then applyCommit m c 0 s else s

/-- A Fawn that has taken its position over joins the herd at the REWIND of its takeover: its schedule runs from step
m + 1 (R516 step 6). -/
def joinHerd (m c : Nat) (s : State) : State :=
  if s.spine.running || s.rse.window != 2 || s.rse.takeover.isSome || s.spine.sched.isNone then s
  else
    let s := match s.cle.pend with
      | some p => switchEpoch p.epoch s
      | none => s
    { s with spine := { s.spine with
        running := true, step := (m + 1) % 2 ^ 64, committed := some m, commitTick := c, started := false, readyTick := none
        stamps := [], faults := [], starting := none, stopAfter := none } }

/-- A takeover ends with the REWIND that follows it: its record takes F′, and the Fawn counts it (R516, R520, R535). -/
def endTakeover (fp : Nat) (s : State) : State :=
  match s.rse.window == 2, s.rse.takeoverRec with
  | true, some r =>
    if r.result = 0 ∧ r.pos = s.myPos ∧ r.fPrime = 0 then
      ({ s with rse := { s.rse with takeoverRec := some { r with fPrime := fp } } } : State).rseCtr fun c => Ctrs.sat c 6 1
    else s
  | _, _ => s

/-- Apply REWIND to commit m with F′ (R431, R498). -/
def applyRewind (m c fp : Nat) (f : Option FaultRec) (s : State) : State :=
  let s := joinHerd m c s
  if !s.spine.running then s
  else
    let s := endTakeover fp s
    let s := openWindow 1 m fp f (catchUp m c s)
    let s := restoreCommit s
    let s := { s with
      rse := { s.rse with replays := s.rse.replays + 1, restoring := true, late := false, ordered := none }
      spine := { s.spine with
        step := (m + 1) % 2 ^ 64, fTick := fp, answered := fp
        stamps := s.spine.stamps.filter fun t => decide (fp ≤ t) } }
    askRepairs (s.cleCtr fun k => Ctrs.sat k 6 1)

/-! ### Blocks whose lender is lost (R334) -/

/-- A page's only copy is lost: its data reads marked bad from then on. -/
def losePage (k : Nat) (s : State) : State :=
  let s := s.modPage k fun p => { p with lost := true, motion := false, far := none, farcopy := false }
  s.ptuCtr fun c => Ctrs.sat c 17 1

/-- A slot lost some leaves' only copies: it starts empty, as the slots of a replaced position do, and the
takeover record names it (R231, R334). -/
def emptySlot (q n : Nat) (s : State) : State :=
  match s.slot q with
  | none => s
  | some x =>
    let had := x.clens.any fun l => l.2 != 0
    let s := x.leaves.foldl (fun s l => freeLeaf q l.1 s) s
    let s := s.modSlot q fun x => { x with lens := [], clens := [], stalls := [], lostLeaves := x.lostLeaves + n }
    let note (r : TakeoverRec) : TakeoverRec := { r with
      slots := if had then r.slots ||| BitVec.ofNat 16 (2 ^ q) else r.slots
      leavesLost := r.leavesLost + n }
    { s with rse := { s.rse with takeoverRec := some (note (s.rse.takeoverRec.getD TakeoverRec.blank)) } }

/-- A slot of a position that a Fawn takes starts empty (R231). -/
def startEmpty (q : Nat) (s : State) : State :=
  match s.slot q with
  | none => s
  | some x => (x.leaves.foldl (fun s l => freeLeaf q l.1 s) s).modSlot q fun x => { x with
      lens := [], clens := [], stalls := [], bufs := [], ob := [], credits := [0, 1], sent := 0, got := 0 }

/-- The reference lies with a position. -/
def FarRef.liesWith (r : FarRef) (p : Nat) : Bool := !r.host && r.who == p

/-- Evictions to places of a kind end: their pages and leaves stay where they are. -/
def dropEvictions (there : FarRef → Bool) (s : State) : State :=
  let gone (x : Xfer) : Bool := x.kind == .evict && (x.dest.map there).getD false
  let s := (s.ptu.xfers.filter fun x => gone x.2).foldl (fun s x => endEvictPage x.1 s) s
  (s.leafs.evicting.filter fun e => there e.2.2).foldl (fun s e =>
    endEvict e.1 e.2.1 (s.modLeaf e.1 e.2.1 fun l => { l with motion := false })) s

/-- What only a lost lender held is lost; a copy beside a local one is forgotten, and nothing more is sent there. -/
def loseLender (p : Nat) (s : State) : State :=
  let s := dropEvictions (FarRef.liesWith · p) { s with ptu := { s.ptu with farWait := s.ptu.farWait.filter fun q => q.dstPos != p } }
  let s := (s.ptu.pages.filter fun k => (k.2.far.map (FarRef.liesWith · p)).getD false).foldl (fun (s : State) (k : Nat × Page) =>
    if k.2.tier = 1 then s.modPage k.1 fun g => { g with far := none, farcopy := false }
    else losePage k.1 { s with ptu := { s.ptu with xfers := SMap.del s.ptu.xfers k.1 } }) s
  s.leafs.slots.foldl (fun s q =>
    let mine := q.2.leaves.filter fun l => (l.2.far.map (FarRef.liesWith · p)).getD false
    let gone := mine.filter fun l => l.2.tier != 1
    let s := mine.foldl (fun s l => s.modLeaf q.1 l.1 fun g =>
      if g.tier = 1 then { g with far := none, farcopy := false } else g) s
    if gone.isEmpty then s else emptySlot q.1 gone.length s) s

/-- Once the herd has been rewound, blocks of lost lenders are lost. -/
def loseLenders (s : State) : State :=
  let s := s.ptu.lostLenders.foldl (fun s p => loseLender p s) s
  { s with ptu := { s.ptu with lostLenders := [] } }

/-- Apply STOP at commit m (R431, R503, R504): the channels end, and the schedule with them. DESIGN CHOICE (log entry 158):
every running channel stops, in RUN_STATE 5 where it holds a fault and 6 where it holds none. -/
def applyStop (m c : Nat) (f : Option FaultRec) (s : State) : State :=
  if !s.spine.running then
    if s.rse.window = 2 then { s with rse := { s.rse with window := 3, takeover := none, ordered := none } } else s
  else
    let s := openWindow 3 m 0 f (catchUp m c s)
    let s := s.runningChans.foldl (fun s k =>
      match s.chan k with
      | some x => stopChan k (if x.faultKind = 0 then 6 else 5) s
      | none => s) s
    let s := match f with
      | some x => if x.cls = 2 then { s with ptu := { s.ptu with lostLenders := NSet.insert s.ptu.lostLenders x.pos } } else s
      | none => s
    let s := loseLenders (restoreCommit s)
    { s with
      spine := { s.spine with running := false, stamps := [], stopAfter := none, faults := [] }
      rse := { s.rse with restoring := false, takeover := none, ordered := none, repairs := [], detected := false } }

/-! ### Rebind and takeover (R402, R403, R515, R516) -/

/-- A POSITION_CHANGE message (R396, R403). DESIGN CHOICE (log entry 160): bytes 2 and 3 hold the new position. -/
def positionChangeMsg (p : Nat) : List Byte := padTo 32 (natLe 1 5 ++ natLe 1 0 ++ natLe 2 p)

/-- A reclaim notice goes to every borrower of a window, which from then on takes no new block (R332). -/
def startReclaim (w : Nat) (s : State) : State :=
  match SMap.lookup s.ptu.lent w with
  | none => s
  | some x =>
    if x.reclaim then s
    else
      let s := { s with ptu := { s.ptu with
        lent := SMap.put s.ptu.lent w { x with reclaim := true, waiting := x.borrowers } } }
      x.borrowers.foldl (fun s p =>
        match s.linkSet p with
        | _ :: _ => sendFar 7 p 0 [] [] s
        | [] => s) s

/-- This device, a Fawn, takes position p (R402, R516 step 2): its windows are reclaimed, its slots start
empty (R231), and its manifest is to run. -/
def beginTakeover (p f g lostTick : Nat) (s : State) : State :=
  let x : Takeover := ⟨p, f, g, s.lastCommit, lostTick, s.pcm.ms, false, 0, false, Stream.reset, Stream.reset⟩
  let t := s.links.table.map fun (t : PosTable) => { t with myPos := p, role := 0 }
  let s : State := openWindow 2 s.lastCommit 0 none { s with
    links := { s.links with table := t }, rse := { s.rse with takeover := some x } }
  let s := s.activeLinks.foldl (fun s l => sendControl l (positionChangeMsg p) s) s
  eachSlot startEmpty (s.ptu.lent.foldl (fun s w => startReclaim w.1 s) s)

/-- A Fawn whose takeover of p failed, and that another Fawn replaces, is a Fawn again (R519, 148). -/
def yieldTakeover (p f : Nat) (s : State) : State :=
  match s.rse.takeover with
  | some x =>
    if x.pos = p ∧ x.former ≠ f then
      { s with
        links := { s.links with table := s.links.table.map fun (t : PosTable) => { t with myPos := x.former, role := 1 } }
        rse := { s.rse with takeover := none, window := 0 } }
    else s
  | none => s

/-- Apply a rebind of position p to the Fawn at f with generation g. -/
def applyRebind (p f g : Nat) (s : State) : State :=
  let before := s.favouredEdges
  let s : State := { s with links := { s.links with
    rebinds := (s.links.rebinds.filter fun r => r.1 != p) ++ [(p, f)]
    standIns := (s.links.standIns.filter fun r => r.1 != p) ++ [(p, f)]
    lostPos := NSet.erase s.links.lostPos p
    table := s.links.table.map fun (t : PosTable) => { t with gen := g } } }
  let s := { s with ptu := { s.ptu with lostLenders := NSet.insert s.ptu.lostLenders p } }
  let s := raiseCause Cause.linkEvent (linkEvent 0xFF 6 St.ok p 0 s)
  let s := if s.spine.running then openWindow 2 s.lastCommit 0 none s else yieldTakeover p f s
  let s := if s.myPos = f then beginTakeover p f g s.spine.tick s else s
  checkPlacement before (resendFar s)

/-! ### Orders of the acting Stag -/

/-- Note an order as seen, so that copies are dropped (R421). -/
def markSeen (skind key key2 : Nat) (s : State) : State :=
  { s with spine := { s.spine with seen := s.spine.seen ++ [(s.spine.gen, skind, key, key2)] } }

/-- The data of REWIND and STOP (R419). -/
def rewindBytes (m c fp : Nat) (f : FaultRec) : List Byte :=
  natLe 8 m ++ natLe 6 c ++ natLe 6 fp ++ natLe 2 f.pos ++ natLe 1 f.cls ++ natLe 6 f.stamp

/-- The data of COMMIT (R419). -/
def commitBytes (n c f epoch : Nat) : List Byte := natLe 8 n ++ natLe 6 c ++ natLe 6 f ++ natLe 4 epoch

/-- The data of REBIND (R402): the lost position, the Fawn's, the new generation. -/
def rebindBytes (p f g : Nat) : List Byte := natLe 2 p ++ natLe 2 f ++ natLe 4 g

/-- The Stag stops the herd at its last commit. -/
def orderStop (f : FaultRec) (irq : Option Nat) (s : State) : State :=
  let m := s.lastCommit
  let s := markSeen 5 m 0 (flood 5 (rewindBytes m s.spine.commitTick 0 f) none s)
  let s := applyStop m s.spine.commitTick (some f) s
  match irq with
  | some c => raiseCause c s
  | none => s

/-- The Stag rewinds the herd to its last commit, with a later F′ than any REWIND before it (R421, R430). -/
def orderRewind (f : FaultRec) (s : State) : State :=
  let m := s.lastCommit
  let fp := max (s.spine.tick + s.spine.spineRound + s.spine.rewindTicks) (s.spine.answered + 1) % 2 ^ 48
  let s := markSeen 4 m fp (flood 4 (rewindBytes m s.spine.commitTick fp f) none s)
  applyRewind m s.spine.commitTick fp (some f) s

/-- Fawns that the Stag may still try for a position (R516, R519). -/
def State.fawnsLeft (s : State) (p : Nat) : List Nat :=
  (Config.fawnsOf p).filter fun f =>
    !s.links.lostPos.contains f && !(s.links.rebinds.any fun r => r == (p, f))

/-- The Stag stops the herd for a position that no Fawn takes, with a record of the result (R516, R519, R520). -/
def stopForLack (f : FaultRec) (lost result : Nat) (s : State) : State :=
  let x : TakeoverRec :=
    ⟨f.pos, 0xFFFF, (s.links.table.map (·.gen)).getD 0, s.lastCommit, lost, 0, 0, result, 0, 0, 0⟩
  orderStop f none { s with rse := { s.rse with takeoverRec := some x } }

/-- The tick of the E_PEER_LOST that the takeover of a position answers. -/
def State.lostTick (s : State) (f : FaultRec) : Nat :=
  match s.rse.ordered with
  | some o => if o.1 = f.pos then o.2 else f.stamp
  | none => f.stamp

/-- TAKEOVER_BOUND of a takeover has expired (R501, R519). -/
def State.boundOver (s : State) (lost : Nat) : Bool := decide (lost + 1000 * s.rse.limits.bound ≤ s.spine.tick)

/-- The Stag starts a takeover of a position, or stops the herd when no Fawn remains (R402, R519). A Fawn that has
failed in this takeover is not tried again. -/
def orderTakeover (f : FaultRec) (s : State) : State :=
  let lost := s.lostTick f
  let tried := (s.rse.ordered.map (·.1)) == some f.pos
  let s := match s.links.rebinds.find? fun r => r.1 == f.pos with
    | some r => { s with links := { s.links with lostPos := NSet.insert s.links.lostPos r.2 } }
    | none => s
  match s.fawnsLeft f.pos with
  | x :: xs =>
    let w := xs.foldl min x
    if tried && s.boundOver lost then stopForLack f lost 5 s
    else
      let g := ((s.links.table.map (·.gen)).getD 0) + 1
      let s := markSeen 7 g 0 (flood 7 (rebindBytes f.pos w g) none s)
      applyRebind f.pos w g (openWindow 2 s.lastCommit 0 (some f) { s with rse := { s.rse with ordered := some (f.pos, lost) } })
  | [] => stopForLack f lost (if tried && f.cls == 2 then 6 else 1) s

/-- A takeover fails on the Fawn (R519): its record says why, and cause 0x35 goes to the Stag. -/
def failTakeover (result : Nat) (s : State) : State :=
  match s.rse.takeover with
  | none => s
  | some x =>
    if x.failed then s
    else
      let r : TakeoverRec := ⟨x.pos, x.former, x.gen, x.commit, x.lostTick, 0, 0, result, 0, 0, x.own.bytes + x.mirror.bytes⟩
      let s := { s with rse := { s.rse with takeover := some { x with failed := true }, takeoverRec := some r } }
      passFault ⟨x.pos, 3, 0x35, s.spine.tick, 0xFFFF⟩ St.peerLost (logError (LogRec.make 0xA 0x35 St.peerLost 0) s)

/-- An exhaustion that is discarded: a fault stamped before it has caused the replay of its step (R228). -/
def State.outrun (s : State) (f : FaultRec) : Bool :=
  f.cause == 0x31 && decide (f.stamp < s.spine.answered)
    && (s.rse.winFault.map fun w => decide (w.cls < 3 ∧ w.stamp < f.stamp)).getD false

/-- Answer one held fault (R44, R45, R228, R430, R495). -/
def answerFault (f : FaultRec) (s : State) : State :=
  if !s.spine.running then
    if f.cls = 3 then raiseCause Cause.recovery (stopChan f.chan 5 s) else s
  else match f.cls with
    | 2 => orderTakeover f s
    | 3 =>
      if f.cause = 0x35 ∧ s.rse.window = 2 then orderTakeover f s
      else if s.outrun f then s
      else orderStop f (faultIrq f.cause) s
    | _ =>
      if f.stamp < s.spine.answered ∨ s.rse.window = 2 then s
      else if s.rse.limits.replay ≤ s.rse.replays then orderStop f (some Cause.replayLimit) s
      else orderRewind f s

/-- The fault to answer before another: the one stamped earlier; of equal stamps a deterministic one (R228). -/
def FaultRec.before (a b : FaultRec) : Bool := decide (a.stamp < b.stamp) || (a.stamp == b.stamp && a.cls == 3 && b.cls != 3)

/-- The held fault that is answered next. -/
def nextFault : List FaultRec → Option FaultRec
  | [] => none
  | f :: fs =>
    match nextFault fs with
    | some g => some (if g.before f then g else f)
    | none => some f

/-- Answer every held fault, the earliest first. -/
def answerFaults : Nat → State → State
  | 0, s => s
  | n + 1, s =>
    match nextFault s.spine.faults with
    | some f => answerFaults n (answerFault f { s with spine := { s.spine with faults := s.spine.faults.erase f } })
    | none => s

/-- The outcome of a command: the faults that it raised are answered, and the machine goes on. A new acting Stag
holds them until it has re-sent the highest commit (R418). -/
def done (s : State) : Host.Outcome State Fault Refusal :=
  .next (if s.spine.newStag then s else answerFaults 64 s)

/-! ### The start of a step (R68, R423, R498) -/

/-- New ingest limits. Under a lower REPLACE_LIMIT the next skip in a row may be the last (R478, 124). -/
def withLimits (l : IgeLimits) (x : Ige) : Ige :=
  { x with limits := l, limitsGen := x.limitsGen + 1
           skips := if x.skips < x.limits.replace then min x.skips (l.replace - 1) else x.skips }

/-- Changes that waited for a step boundary take effect. -/
def applyPending (n : Nat) (s : State) : State :=
  let m := s.num
  let due (k : Nat) : Bool := decide (k ≤ n)
  let num := match m.seedPend with
    | some (v, k) => if due k then { m with seed := v, seedPend := none } else m
    | none => m
  let num := match num.govPend with
    | some (v, k) => if due k then { num with gov := v, govPend := none } else num
    | none => num
  let rse := match s.rse.limitsPend with
    | some (v, k) => if due k then { s.rse with limits := v, limitsPend := none } else s.rse
    | none => s.rse
  let ige := match s.ige.limitsPend with
    | some (v, k) =>
      if due k then withLimits v { s.ige with limitsPend := none } else s.ige
    | none => s.ige
  let cleared := s.ige.limitsPend.isSome && ige.limitsPend.isNone
  let sp := match s.spine.confPend with
    | some (c, r, k) => if due k then { s.spine with cands := c, rewindTicks := r, confPend := none } else s.spine
    | none => s.spine
  let sp := match sp.schedPend with
    | some (d, k) => if due k then { sp with sched := some d, schedPend := none } else sp
    | none => sp
  let s := { s with num := num, rse := rse, ige := ige, spine := sp }
  let s := match cleared, s.ige.cache, s.ige.setup with
    | true, some c, some u => clearVa u.part c.1 (16 * u.n) { s with ige := { s.ige with arena := 0 } }
    | _, _, _ => s
  eachSlot (fun q s => s.modSlot q fun x =>
    match x.ringPend with
    | some (r, k) => if due k then x.putRing r else x
    | none => x) s

/-- The channel's threads start in step n: every step for a step-periodic channel, once for another, and
again in a replay (R136, R137, R139, R664). -/
def Chan.startsIn (x : Chan) (n : Nat) : Bool :=
  x.running && x.header.isSome &&
    ((x.header.map (·.periodic)).getD false || !x.started) && (x.ran || decide (x.startStep ≤ n))

/-- The index that a starting thread's G4 takes: for a channel without STEP_PERIODIC, that of its run. -/
def Chan.stepIndex (x : Chan) (n : Nat) : Nat :=
  if (x.header.map (·.periodic)).getD false || !x.ran then n else x.startStep

/-- Step n's first tick: the recovery window closes, changes take effect, and channels start. -/
def beginStep (s : State) : State :=
  let n := s.spine.step
  let s := openRuns n (applyPending n (if s.rse.window = 0 then s else loseLenders s))
  let s := { s with
    spine := { s.spine with started := true, readyTick := none }
    rse := { s.rse with
      window := if s.rse.window = 3 then 3 else 0, restoring := false, detected := s.rse.detected && s.rse.window == 0 } }
  s.runningChans.foldl (fun s k =>
    match s.chan k with
    | some x =>
      let g := x.stepIndex n
      (if x.startsIn n then startThreads k g s else s).modChan k fun y => { y with
        startStep := if x.startsIn n then g else y.startStep
        lastRan := if y.started then some n else y.lastRan }
    | none => s) s

end Sys2Proof.Machine
end

