-- ==== Sys2Proof/Machine/StreamOps.lean ====
section
/-! DEFINITION. Chunks of collective entries (R434), the elements that tiles' streams deliver to them (R437,
R438), and the statistics of governed streams (R79, R80, R254). -/

namespace Sys2Proof.Machine

/-! ### Chunks (R434) -/

/-- The operation cuts its elements by shards. -/
def Entry.sharded (e : Entry) : Bool := e.op == 1 || e.op == 4

/-- Chunks of one shard in a group of g. -/
def Entry.perShard (e : Entry) (g : Nat) : Nat := (e.count / g + e.chunkElems - 1) / e.chunkElems

/-- The first element of chunk j and its length. -/
def Entry.chunkSpan (e : Entry) (g j : Nat) : Nat × Nat :=
  if e.op = 6 then (0, 1)
  else if e.sharded then
    let n := e.count / g
    let o := j % e.perShard g * e.chunkElems
    (j / e.perShard g * n + o, min e.chunkElems (n - o))
  else (j * e.chunkElems, min e.chunkElems (e.count - j * e.chunkElems))

/-- The root of chunk j. -/
def Entry.chunkRoot (e : Entry) (g j : Nat) : Nat :=
  if e.op = 6 then 0
  else if e.sharded then j / e.perShard g
  else if e.op = 2 then j % g
  else e.root

/-- The chunk that holds an element. -/
def Entry.chunkAt (e : Entry) (g a : Nat) : Nat :=
  if e.sharded then
    let n := e.count / g
    a / n * e.perShard g + a % n / e.chunkElems
  else a / e.chunkElems

/-- The size of an entry's group. -/
def State.groupSize (s : State) (e : Entry) : Nat := ((s.group e.group).map (·.pos.length)).getD 1

/-- Change a run. -/
def State.modRun (s : State) (k : Nat) (f : Run → Run) : State :=
  { s with cle := { s.cle with runs := SMap.upd s.cle.runs k f } }

/-- A chunk of a run. -/
def Run.chunk (r : Run) (j : Nat) : Chunk := SMap.getD r.chunks j Chunk.reset

/-- Change a chunk of a run. -/
def Run.modChunk (r : Run) (j : Nat) (f : Chunk → Chunk) : Run :=
  { r with chunks := SMap.updD r.chunks Chunk.reset j f }

/-- Change a chunk in the state. -/
def State.modChunk (s : State) (k j : Nat) (f : Chunk → Chunk) : State := s.modRun k fun r => r.modChunk j f

/-! ### Streams (R437, R438) -/

/-- The bindings of a stream in image order: the index of each, and how many of the stream's elements stand
before its first (45). -/
def bindsOf (stream : Nat) : List Bind → Nat → Nat → List (Nat × Nat × Bind)
  | [], _, _ => []
  | b :: bs, i, base =>
    if b.stream = stream then (i, base, b) :: bindsOf stream bs (i + 1) (base + b.elems)
    else bindsOf stream bs (i + 1) base

/-- Element number i of a tile's stream enters the entry that a binding names. -/
def pushElem (tile i : Nat) (v : Num) (x : Nat × Nat × Bind) (s : State) : State :=
  let b := x.2.2
  if x.2.1 ≤ i ∧ i < x.2.1 + b.elems then
    match s.entryOf b.entry with
    | none => s
    | some e =>
      let a := b.offset + (i - x.2.1)
      let g := s.groupSize e
      let j := e.chunkAt g a
      s.modChunk b.entry j fun c => { c with
        ownAt := some s.spine.tick
        own := SMap.updD c.own [] (tile * 2 ^ 16 + x.1) fun m => SMap.put m (a - (e.chunkSpan g j).1) v }
  else s

/-- A tile's stream delivers elements. -/
def pushStream (tile stream : Nat) (vals : List Num) (s : State) : State :=
  if !s.spine.started then s
  else
    let key := tile * 2 ^ 16 + stream
    let k0 := SMap.getD s.cle.delivered key 0
    let bs := bindsOf stream ((s.spine.sched.map (·.binds)).getD []) 0 0
    let s := { s with cle := { s.cle with delivered := SMap.setD s.cle.delivered 0 key (k0 + vals.length) } }
    ((List.range vals.length).zip vals).foldl (fun s p => bs.foldl (fun s x => pushElem tile (k0 + p.1) p.2 x s) s) s

/-! ### Statistics of a governed stream (R80) -/

/-- Add to a count that saturates. -/
def satAdd (a b : Nat) : Nat := min (a + b) ctrMax

/-- The bin of a finite nonzero value. -/
def histBin (v : Num) : Nat := (clampInt 0 63 (log2Of v + 48)).toNat

/-- The nonzero finite values of a block that are encoded to 0 in an MX format (R80). DESIGN CHOICE (log entry 156): an
infinite value and a NaN of a block that R55 encodes with scale 0xFF are not counted. -/
def mxUnderflows (c : Nat) (vs : List Num) : Nat :=
  let r := mxEncode c (fun _ => .rne) vs
  ((vs.zip r.2.1).filter fun p => !numIsZero p.1 && numIsFin p.1 && numIsZero (mxElemVal c p.2)).length

/-- One value observed. -/
def Stats.see (t : Stats) (v : BitVec 32) : Stats :=
  let x := val32 v
  if !numIsFin x then { t with nonfinite := satAdd t.nonfinite 1 }
  else if numIsZero x then { t with zero := satAdd t.zero 1 }
  else { t with
    nonzero := satAdd t.nonzero 1
    hist := SMap.updD t.hist 0 (histBin x) fun n => satAdd n 1
    amax := max32 t.amax (abs32 v) }

/-- One 32-lane group of values observed, of which `sat` saturated in the step's format. -/
def Stats.seeGroup (t : Stats) (vs : List (BitVec 32)) (sat : Nat) : Stats :=
  let t := vs.foldl Stats.see t
  let xs := vs.map val32
  { t with
    mx6uf := satAdd t.mx6uf (mxUnderflows 8 xs)
    mx8uf := satAdd t.mx8uf (mxUnderflows 5 xs)
    sat := satAdd t.sat sat }

/-- Observe a group of values of a tensor. -/
def observe (tensor : Nat) (vs : List (BitVec 32)) (sat : Nat) (s : State) : State :=
  { s with num := { s.num with
    gathered := SMap.updD s.num.gathered Stats.reset tensor fun t => t.seeGroup vs sat } }

end Sys2Proof.Machine
end

