-- ==== Sys2Proof/Machine/Operands.lean ====
section
/-! DEFINITION. The fields of tile instructions (R104 to R107, R121, R122), the operands of the matrix array
(R109, R124, R362), the folding of logical shapes (R111) and their cycles (R114). -/

namespace Sys2Proof.Machine

/-! ### Instruction words -/

namespace Ins
abbrev op (w : BitVec 128) : Nat := insBits w 0 8
abbrev gd (w : BitVec 128) : Nat := insBits w 8 4
abbrev ga (w : BitVec 128) : Nat := insBits w 12 4
abbrev gb (w : BitVec 128) : Nat := insBits w 16 4
abbrev sel (w : BitVec 128) : Nat := insBits w 20 3
abbrev useImm (w : BitVec 128) : Bool := w.getLsbD 23
abbrev ec (w : BitVec 128) : Nat := insBits w 24 5
abbrev units (w : BitVec 128) : Nat := insBits w 32 4
abbrev count (w : BitVec 128) : Nat := insBits w 36 12 + 1
abbrev imm (w : BitVec 128) : BitVec 64 := w.extractLsb' 64 64
end Ins

/-- Ones at bits lo to lo + n - 1. -/
def insMask (lo n : Nat) : BitVec 128 := BitVec.ofNat 128 ((2 ^ n - 1) * 2 ^ lo)

/-- The bits of an instruction that are not reserved (R106, R107, R121, R122). DESIGN CHOICE (log entry 157): bits 63:32 of
WAITEV's IMM and the GB of a SALU with USEIMM 1 are fields that the instruction does not use, not reserved bits. -/
def insUsed (op : Nat) : BitVec 128 :=
  let imm := insMask 64 64
  insMask 0 8 ||| match op with
  | 0x02 => insMask 12 11 ||| imm
  | 0x03 => insMask 12 4 ||| imm
  | 0x04 => insMask 24 5 ||| imm
  | 0x05 => insMask 24 5 ||| insMask 32 4
  | 0x06 => insMask 12 4 ||| imm
  | 0x08 => insMask 8 4 ||| imm
  | 0x09 => insMask 8 16 ||| imm
  | 0x0A => insMask 8 8 ||| imm
  | 0x0B => insMask 8 8 ||| imm
  | 0x10 => insMask 8 108
  | 0x11 => insMask 8 120
  | 0x12 => insMask 8 4
  | 0x13 => insMask 8 5 ||| insMask 14 46
  | 0x20 => insMask 12 4 ||| insMask 24 5 ||| insMask 36 12 ||| imm
  | 0x30 => insMask 8 120
  | 0x40 => insMask 8 120
  | _ => 0

/-- Reserved bits of an instruction are not 0. -/
def insReserved (w : BitVec 128) : Bool := w &&& ~~~(insUsed (Ins.op w)) != 0

/-- The opcodes of R105. -/
def insListed (op : Nat) : Bool :=
  [0x00, 0x01, 0x02, 0x03, 0x04, 0x05, 0x06, 0x08, 0x09, 0x0A, 0x0B, 0x10, 0x11, 0x12, 0x13, 0x20, 0x30, 0x40].contains op

namespace Mx
abbrev afmt (w : BitVec 128) : Nat := insBits w 8 4
abbrev bfmt (w : BitVec 128) : Nat := insBits w 12 4
abbrev acc (w : BitVec 128) : Nat := insBits w 16 2
abbrev shape (w : BitVec 128) : Nat := insBits w 18 3
abbrev transA (w : BitVec 128) : Bool := w.getLsbD 21
abbrev transB (w : BitVec 128) : Bool := w.getLsbD 22
abbrev zero (w : BitVec 128) : Bool := w.getLsbD 23
abbrev k (w : BitVec 128) : Nat := insBits w 24 16 + 1
abbrev ag (w : BitVec 128) : Nat := insBits w 40 4
abbrev aoff (w : BitVec 128) : Nat := insBits w 44 14
abbrev bg (w : BitVec 128) : Nat := insBits w 58 4
abbrev boff (w : BitVec 128) : Nat := insBits w 62 14
abbrev astride (w : BitVec 128) : Nat := insBits w 76 12
abbrev bstride (w : BitVec 128) : Nat := insBits w 88 12
abbrev atexp (w : BitVec 128) : Int := signedOf 8 (insBits w 100 8)
abbrev btexp (w : BitVec 128) : Int := signedOf 8 (insBits w 108 8)
abbrev taps (w : BitVec 128) : Nat := insBits w 116 3 + 1
abbrev dil (w : BitVec 128) : Nat := insBits w 119 3 + 1
abbrev halo (w : BitVec 128) : Nat := insBits w 122 6
end Mx

namespace Dr
abbrev acc (w : BitVec 128) : Nat := insBits w 8 2
abbrev dest (w : BitVec 128) : Nat := insBits w 10 2
abbrev release (w : BitVec 128) : Bool := w.getLsbD 12
abbrev dg (w : BitVec 128) : Nat := insBits w 14 4
abbrev doff (w : BitVec 128) : Nat := insBits w 18 14
abbrev did (w : BitVec 128) : Nat := insBits w 32 16
abbrev dstride (w : BitVec 128) : Nat := insBits w 48 12
end Dr

/-- Base register plus a multiple of 64 (R107, R121). -/
def baseAddr (h : Thread) (g off : Nat) : Nat := (h.reg g + BitVec.ofNat 64 (64 * off)).toNat

/-! ### Shapes (R111) -/

/-- M, N and the accumulator tiles used. -/
def shapeDims : Nat → Nat × Nat × Nat
  | 0 => (128, 128, 1)
  | 1 => (64, 256, 1)
  | 2 => (256, 64, 1)
  | 3 => (256, 128, 2)
  | 4 => (128, 256, 2)
  | 5 => (256, 256, 4)
  | 6 => (64, 128, 1)
  | _ => (128, 64, 1)

/-- The tile, row and column of the logical output at row m and column n. -/
def shapeMap (shape m n : Nat) : Nat × Nat × Nat :=
  match shape with
  | 1 => (0, m + 64 * (n / 128), n % 128)
  | 2 => (0, m % 128, n + 64 * (m / 128))
  | 3 => (m / 128, m % 128, n)
  | 4 => (n / 128, m, n % 128)
  | 5 => (2 * (m / 128) + n / 128, m % 128, n % 128)
  | _ => (0, m, n)

/-- The accumulator tiles that an MMA or MCONV uses. -/
def mmaTiles (w : BitVec 128) : List Nat :=
  ((List.range (shapeDims (Mx.shape w)).2.2).map (· + Mx.acc w)).filter (· < 4)

/-- Cycles of a pass (R114). -/
def passCycles (fmt k : Nat) : Nat :=
  match fmt with
  | 0 => 16 * k
  | 1 => k
  | 2 => k
  | 9 => (k + 3) / 4
  | 11 => (k + 3) / 4
  | _ => (k + 1) / 2

/-! ### Operands (R109, R124, R125, R362) -/

/-- Bytes of a row's elements in a panel, E. -/
def panelE (fmt : Nat) : Nat := 32 * elemBits fmt

/-- Bytes of a row's scales in a panel, S. -/
def panelS (fmt : Nat) : Nat := if fmt = 11 then 32 else 8

/-- Bytes of a panel of `rows` rows. -/
def panelBytes (fmt rows : Nat) : Nat := rows * panelE fmt + 64 * ((rows * panelS fmt + 63) / 64)

/-- Bytes of n packed elements. -/
def packedBytes (fmt n : Nat) : Nat := (n * elemBits fmt + 7) / 8

/-- Bytes of the scales of n elements. -/
def scalesBytes (fmt n : Nat) : Nat := (n + blockLen fmt - 1) / blockLen fmt * scaleBytes fmt

/-- The k values of group g of an instruction (R69): the first, and how many. -/
def groupSpan (k g : Nat) : Nat × Nat := (32 * g, min 32 (k - 32 * g))

/-- The number of groups of an instruction. -/
def groupCount (k : Nat) : Nat := (k + 31) / 32

/-- The byte ranges that rows lo to lo + n - 1 of an operand of `rows` rows are read from for group g: rows of a scalar
format, with its stride and transposition, or places in the panels of an engine-ready tile. -/
def groupRanges (fmt base stride : Nat) (trans : Bool) (rows lo n k g : Nat) : List (Nat × Nat) :=
  let s := groupSpan k g
  if isBlockFmt fmt then
    let b := base + s.1 / 256 * panelBytes fmt rows
    let o := s.1 % 256
    (List.range n).flatMap fun i =>
      let r := lo + i
      [(b + r * panelE fmt + packedBytes fmt o, packedBytes fmt s.2),
        (b + rows * panelE fmt + r * panelS fmt + o / blockLen fmt * scaleBytes fmt, scaleBytes fmt)]
  else if trans then
    (List.range s.2).map fun i => (base + 64 * stride * (s.1 + i) + packedBytes fmt lo, packedBytes fmt n)
  else (List.range n).map fun i => (base + 64 * stride * (lo + i) + packedBytes fmt s.1, packedBytes fmt s.2)

/-- The byte ranges that a whole operand is read from. -/
def operandRanges (fmt base stride : Nat) (trans : Bool) (rows k : Nat) : List (Nat × Nat) :=
  (List.range (groupCount k)).flatMap (groupRanges fmt base stride trans rows 0 rows k)

/-- Decode n elements from packed bytes and scale bytes. -/
def decodeRun (fmt : Nat) (texp : Int) (elems scales : List Byte) (n : Nat) : List Num :=
  (List.range n).map fun i =>
    let e := elemAt (elemBits fmt) elems i
    if isBlockFmt fmt then
      blockDecode fmt (fieldAt scales (i / blockLen fmt * scaleBytes fmt) (scaleBytes fmt)) (i % blockLen fmt) e
    else scalarDecode fmt texp e

/-- Element i of packed elements of `w` bits that begin at an address. -/
def memElem (m : Mem) (w a i : Nat) : Nat :=
  leNat (Mem.readN m (a + w * i / 8) ((w * i % 8 + w + 7) / 8)) / 2 ^ (w * i % 8) % 2 ^ w

/-- The element of an operand at row r and column k (R51, R109, R362). -/
def operandElem (m : Mem) (fmt : Nat) (texp : Int) (base stride : Nat) (trans : Bool) (rows r k : Nat) : Num :=
  if isBlockFmt fmt then
    let b := base + k / 256 * panelBytes fmt rows
    let o := k % 256
    let scale := leNat (Mem.readN m (b + rows * panelE fmt + r * panelS fmt + o / blockLen fmt * scaleBytes fmt) (scaleBytes fmt))
    blockDecode fmt scale (o % blockLen fmt) (memElem m (elemBits fmt) (b + r * panelE fmt) o)
  else
    let p := if trans then (k, r) else (r, k)
    scalarDecode fmt texp (memElem m (elemBits fmt) (base + 64 * stride * p.1) p.2)

/-- The decoded values of group g, row by row. -/
def operandGroup (m : Mem) (fmt : Nat) (texp : Int) (base stride : Nat) (trans : Bool) (rows k g : Nat) : List (List Num) :=
  let s := groupSpan k g
  (List.range rows).map fun r => (List.range s.2).map fun i => operandElem m fmt texp base stride trans rows r (s.1 + i)

/-- The input row of tap j of output row m (R124), and whether it lies above the halo (R125). -/
def convRow (w : BitVec 128) (m j : Nat) : Int × Bool :=
  let r : Int := (m : Int) - (j * Mx.dil w : Nat)
  (r, decide (-(Mx.halo w : Int) ≤ r))

/-- The address of an input row, which may lie below A. -/
def convAddr (w : BitVec 128) (a : Nat) (r : Int) : Int := (a : Int) + 64 * (Mx.astride w : Int) * r

/-- Channels of MCONV's input, CIN. -/
def convCin (w : BitVec 128) : Nat := Mx.k w / Mx.taps w

/-- The byte ranges that MCONV's A feeder reads for group g, as signed addresses: a group lies in one tap. -/
def convGroupRanges (w : BitVec 128) (a rows g : Nat) : List (Int × Nat) :=
  let s := groupSpan (Mx.k w) g
  (List.range rows).filterMap fun m =>
    let r := convRow w m (s.1 / convCin w)
    if r.2 then some (convAddr w a r.1 + packedBytes (Mx.afmt w) (s.1 % convCin w), packedBytes (Mx.afmt w) s.2) else none

/-- The expanded A operand of MCONV at output row m and column k. -/
def convElem (mem : Mem) (w : BitVec 128) (a m k : Nat) : Num :=
  let r := convRow w m (k / convCin w)
  if r.2 then
    scalarDecode (Mx.afmt w) (Mx.atexp w) (memElem mem (elemBits (Mx.afmt w)) (convAddr w a r.1).toNat (k % convCin w))
  else .fin false 0 0

/-- The expanded A operand of MCONV in group g, row by row. -/
def convTapGroup (mem : Mem) (w : BitVec 128) (a rows g : Nat) : List (List Num) :=
  let s := groupSpan (Mx.k w) g
  (List.range rows).map fun m => (List.range s.2).map fun i => convElem mem w a m (s.1 + i)

/-! ### The group-exact dot product (R69 to R72) -/

/-- One group: its products added to the accumulator and rounded once. -/
def groupAdd (acc : BitVec 32) (a b : List Num) : BitVec 32 :=
  (round32NV [] (numSum (val32 acc) (List.zipWith numMul a b))).1

/-- A group's single rounding overflows: a finite total gives an infinity, which raises OF (R72). -/
def groupOverflow (acc : BitVec 32) (a b : List Num) : Bool := (round32 (numSum (val32 acc) (List.zipWith numMul a b))).2.ovf

/-- All the groups of a dot product, in ascending k. -/
def dotAccumulate : Nat → BitVec 32 → List Num → List Num → BitVec 32
  | 0, acc, _, _ => acc
  | n + 1, acc, a, b => dotAccumulate n (groupAdd acc (a.take 32) (b.take 32)) (a.drop 32) (b.drop 32)

end Sys2Proof.Machine
end

