-- ==== Sys2Proof/Machine/Flags.lean ====
section
/-! DEFINITION. How the flags of lanes are gathered (R64, R155, R180): sticky flags of a chain, of a thread, and
the count of blocks encoded with scale 0xFF (R88). -/

namespace Sys2Proof.Machine

/-- Add flags to a thread's sticky flags VXE.FLAGS_Tn. -/
def Thread.raise (h : Thread) (f : Flags) : Thread := { h with flags := h.flags ||| BitVec.ofNat 5 (flagBits f) }

/-- The OR of a list of flag sets. -/
def allFlags (l : List Flags) : Flags := l.foldl orFlags noFlags

/-- Count encoded blocks whose scale is 0xFF (R88). -/
def countNb (n : Nat) (s : State) : State := if n = 0 then s else s.numCtr fun c => Ctrs.sat c 4 n

end Sys2Proof.Machine
end

