-- ==== Sys2Proof/Machine/PcmOps.lean ====
section
/-! DEFINITION. The power, clock and thermal manager: the frequency and throttle level of each tile (R570 to R574),
the sustained target (R578, R581), the readings of the telemetry block (R590, R593), and sensor 33. -/

namespace Sys2Proof.Machine

/-! ### The configuration record's tile ceilings (R570, R604) -/

/-- A tile's ceiling in 25 MHz units. -/
def State.ceiling (s : State) (t : Nat) : Nat := fieldAt s.sec.record (1376 + t) 1

/-- A tile's power state. -/
def State.tilePwr (s : State) (t : Nat) : TilePwr := SMap.getD s.pcm.tiles t TilePwr.reset

/-- Change a tile's power state. -/
def State.modTilePwr (s : State) (t : Nat) (f : TilePwr → TilePwr) : State :=
  { s with pcm := { s.pcm with tiles := SMap.updD s.pcm.tiles TilePwr.reset t f } }

/-- The lowest of ceiling, host target, FL and thermal limit (R570). -/
def State.lowestFreq (s : State) (t : Nat) : Nat :=
  let x := s.tilePwr t
  let c := s.ceiling t
  min (min c (x.target.getD c)) (min s.pcm.fl (x.thermal.getD c))

/-- The frequency that a tile should run at: never below 1.000 GHz, and at it while the minute is held (R582). -/
def State.wantFreq (s : State) (t : Nat) : Nat := if s.pcm.held then 40 else max 40 (s.lowestFreq t)

/-- The throttle level that meets a shortfall below 1.000 GHz (R570): the least whose active cycles do (104). -/
def shortfall (f : Nat) : Nat := if 40 ≤ f then 0 else min 15 ((16 * (40 - f) + 39) / 40)

/-- The throttle level that the thermal loop asks of a tile (R586). -/
def State.thermalLevel (s : State) (t : Nat) : Nat :=
  if (s.tilePwr t).hot || !s.pcm.stackHot.isEmpty then 8 else 0

/-- A tile's throttle level (R571, R582). -/
def State.throttle (s : State) (t : Nat) : Nat :=
  if s.pcm.held then 15
  else max (max s.pcm.peakThrottle s.pcm.susThrottle) (max (s.thermalLevel t) (shortfall (s.lowestFreq t)))

/-- A tile whose frequency is not the one it should run at asks for a change (R574 step 1). -/
def retarget (t : Nat) (s : State) : State :=
  let w := s.wantFreq t
  s.modTilePwr t fun x =>
    if x.freq = 0 then x
    else if x.relock.isSome then x
    else if x.freq = w then { x with change := none, waited := false, droops := 0 }
    else if x.change.isSome then { x with change := some w }
    else
      let recent := match x.stretchEnd with
        | some e => decide (s.pcm.us < e + 10)
        | none => false
      { x with change := some w, waited := x.stretched || recent, droops := 0 }

/-- Every tile asks for the change that it needs. -/
def retargetAll (s : State) : State := (List.range 256).foldl (fun s t => retarget t s) s

/-- The tiles' PLLs start at the frequency that they should run at (R569, R570). -/
def startClocks (s : State) : State :=
  (List.range 256).foldl (fun s t => s.modTilePwr t fun x => { x with freq := s.wantFreq t }) s

/-! ### Targets and the minute (R578 to R582) -/

/-- The lower of the caps. -/
def State.caps (s : State) : Nat := if s.pcm.mgmtCap = 0 then s.pcm.hostCap else min s.pcm.hostCap s.pcm.mgmtCap

/-- The sustained target T. -/
def State.target (s : State) : Nat :=
  match s.pcm.allowance with
  | some a => min s.caps a
  | none => s.caps

/-- The current minute and the second in it; none before ALIGN. -/
def State.minuteNow (s : State) : Option (Nat × Nat) :=
  if s.pcm.ms < s.pcm.align then none
  else some ((s.pcm.ms - s.pcm.align) / 60000, (s.pcm.ms - s.pcm.align) % 60000 / 1000)

/-- The budget of the minute being accounted. -/
def State.budget (s : State) : Option Nat := SMap.lookup s.pcm.budgets s.pcm.minute

/-- Whole joules of an energy in µJ. -/
def joules (uj : Nat) : Nat := uj / 1000000

/-- Modelled power over the last 1 ms in W (R576). -/
def State.power (s : State) : Nat := (s.pcm.samples.foldl (· + ·) 0) / 1000

/-- The highest of some readings. -/
def highest (l : List Nat) : Nat := l.foldl max 0

/-- Note a reading at a time: those that it reaches, and those older than a span, no longer count. -/
def noteHigh (span us v : Nat) (l : List (Nat × Nat)) : List (Nat × Nat) :=
  (us, v) :: l.filter fun e => decide (v < e.2 ∧ us < e.1 + span)

/-- The highest reading of the last span. -/
def highIn (span us : Nat) (l : List (Nat × Nat)) : Nat :=
  highest ((l.filter fun e => decide (us < e.1 + span)).map (·.2))

/-- The highest throttle level of any tile. -/
def State.throttleNow (s : State) : Nat := highest ((List.range 256).map s.throttle)

/-- The cycles in 10 µs that throttling freezes: L of every 16 cycles of each tile whose clock runs (R571). -/
def State.throttledCycles (s : State) : Nat :=
  if s.pcm.sstate = 0 then
    ((List.range 256).map fun t =>
      if (s.tilePwr t).relock.isSome then 0 else (s.tilePwr t).freq * 250 * s.throttle t / 16).foldl (· + ·) 0
  else 0

/-- Tile temperatures. -/
def State.tileTemps (s : State) : List Nat := (List.range 256).map fun t => (s.tilePwr t).temp

/-- Stack temperatures. -/
def State.stackTemps (s : State) : List Nat := (List.range 20).map fun i => SMap.getD s.pcm.stackT i 0

/-- Die temperatures. -/
def State.dieTemps (s : State) : List Nat := (List.range 4).map fun i => SMap.getD s.pcm.dieT i 0

/-- The power and energy block of the telemetry mirror, from offset 0x040 on (R593). -/
def State.powerBlock (s : State) : List Nat :=
  let p := s.pcm
  let f := (List.range 256).map fun t => (s.tilePwr t).freq
  [ p.hostCap + p.mgmtCap * 2 ^ 12 + s.target * 2 ^ 24 + (if s.budget.isSome then 2 ^ 36 else 0)
      + (if p.calibrated then 2 ^ 37 else 0),
    s.power % 2 ^ 16 + highIn 1000000 p.us p.peaks * 2 ^ 16 + max s.throttleNow (highIn 1000 p.us p.levels) * 2 ^ 32,
    p.energy / 1000 % 2 ^ 48, p.minute, joules p.minuteE + s.budget.getD 0 * 2 ^ 32, p.lastJ + p.lastBudget * 2 ^ 32,
    p.fl + f.foldl min 255 * 2 ^ 8 + highest f * 2 ^ 16,
    highest s.tileTemps + highest s.stackTemps * 2 ^ 8, p.ms ]

/-! ### Sensor 33 (R590, R591) -/

/-- Some limiter or cap holds the device below what it would run at. -/
def State.limiting (s : State) : Bool :=
  s.pcm.peakThrottle != 0 || s.pcm.susThrottle != 0 || decide (s.pcm.fl < 0x56)

/-- The reading of sensor 33; of several states that hold, fatal is shown before envelope held, thermal throttle,
limiting and uncalibrated (105). -/
def State.healthNow (s : State) : Nat :=
  if s.rse.fatal.isSome then 4
  else if s.pcm.held then 2
  else if !s.pcm.stackHot.isEmpty || s.pcm.tiles.any (fun t => t.2.hot) then 3
  else if s.limiting then 1
  else if !s.pcm.stopped.isEmpty then 5
  else 0

/-- Queue a PLDM event (R591, R655). -/
def pldmEvent (e : PldmEvent) (s : State) : State := { s with pcm := { s.pcm with events := s.pcm.events ++ [e] } }

/-- A change of sensor 33 is sent as an event. -/
def noteHealth (s : State) : State :=
  let h := s.healthNow
  if s.pcm.health = h then s else pldmEvent (.sensor33 h) { s with pcm := { s.pcm with health := h } }

end Sys2Proof.Machine
end

