-- ==== Sys2Proof/Machine/TileCtl.lean ====
section
/-! DEFINITION. Issue (R95 to R99, R104, R127) and the control and scalar instructions (R100 to R106), the
fetch of code lines (R134), and the completion of queued instructions (R97, R119). -/

namespace Sys2Proof.Machine

/-! ### Issue -/

/-- The channel that runs on a tile, with its header; none while the tile's clock is stopped for a relock (R572). -/
def State.tileRun (s : State) (t : Nat) : Option (Nat × Chan × Header) :=
  (s.tile t).chan.bind fun c => (s.chan c).bind fun x =>
    if x.running && (s.tilePwr t).relock.isNone then x.header.map fun h => (c, x, h) else none

/-- A thread is ready at an instruction that it has fetched (R95, R134). -/
def Tile.canIssue (x : Tile) (th : Nat) : Bool :=
  let h := x.thread th
  h.st == .ready && h.hold.isNone && (SMap.lookup x.icache (h.pc.toNat / 16)).isSome

/-- The thread that the sequencer looks at: the first that is ready in ascending order after the one that issued last,
wrapping from T7 to T0 (R95). A thread found to wait on a queue or the scoreboard leaves the ready state. -/
def Tile.pick (x : Tile) : Option Nat := ((List.range 8).map fun i => (x.lastTh + 1 + i) % 8).find? x.canIssue

/-- It is a thread's turn, at an instruction that it has fetched (R95, R134). -/
def State.atInsn (s : State) (t th : Nat) (w : BitVec 128) : Bool :=
  let h := (s.tile t).thread th
  (s.tileRun t).isSome && (s.tile t).pick == some th && SMap.lookup (s.tile t).icache (h.pc.toNat / 16) == some w

/-- Bytes of the code that a tile runs. -/
def State.codeLen (s : State) (t : Nat) : Nat := ((s.tileRun t).map (·.2.2.codeLength)).getD 0

/-- The offset of the instruction after a thread's. -/
def State.nextPc (s : State) (t th : Nat) : Int := (((s.tile t).thread th).pc.toNat : Int) + 16

/-- The target of a branch (R106). -/
def State.branchPc (s : State) (t th : Nat) (w : BitVec 128) : Int :=
  (((s.tile t).thread th).pc.toNat : Int) + (Ins.imm w).toInt

/-- The next instruction lies in the code (R128 PC_RANGE). -/
def State.pcGood (s : State) (t : Nat) (next : Int) : Bool :=
  decide (0 ≤ next ∧ next < s.codeLen t ∧ next % 16 = 0)

/-- The instruction is counted, its thread is the one that issued last, and it goes on at `next`. -/
def goOn (t th : Nat) (next : Int) (s : State) : State :=
  s.modTile t fun x =>
    { (x.modThread th fun h => { h with pc := BitVec.ofNat 32 next.toNat }) with ctrs := Ctrs.sat x.ctrs 0 1, lastTh := th }

/-- Issue an instruction: a fault of R128 that its words, `kind`, or its next offset gives, else its effect. -/
def issueAt (t th : Nat) (w : BitVec 128) (kind : Nat) (next : Int) (act : State → State) (s : State) : State :=
  let pc := ((s.tile t).thread th).pc
  let k := if insReserved w then 2 else if kind ≠ 0 then kind else if !s.pcGood t next then 7 else 0
  if k ≠ 0 then tileFault t th k pc (Ins.op w) St.ok s else act (goOn t th next s)

/-- Issue an instruction that runs in the sequencer. -/
def issueSeq (op t th : Nat) (w : BitVec 128) (kind : Nat) (next : Int) (act : State → State) (s : State) : State :=
  if s.atInsn t th w && Ins.op w == op then issueAt t th w kind next act s else s

/-- Change a thread of a tile in the state. -/
def modTh (t th : Nat) (f : Thread → Thread) (s : State) : State := s.modTile t fun x => x.modThread th f

/-- Issue an instruction of a unit: the thread waits while the unit's queue is full or an accumulator tile
that the instruction reads or writes is in use (R95, R96, R98). -/
def issueUnit (op t th : Nat) (w : BitVec 128) (u : Nat) (rd wr : List Nat) (kind : Nat)
    (act : State → State) (s : State) : State :=
  if s.atInsn t th w && Ins.op w == op then
    if !(s.tile t).room u th then modTh t th (fun h => { h with st := .waitQueue, waitUnit := u }) s
    else if !(s.tile t).scoreFree rd wr then
      modTh t th (fun h => { h with st := .waitScore, needR := rd, needW := wr }) s
    else issueAt t th w kind (s.nextPc t th) act s
  else s

/-- Put an instruction into a unit's queue; `pc` is its own offset. -/
def enqueueInsn (t u : Nat) (q : QInstr) (s : State) : State :=
  s.modTile t fun x =>
    { x.setQueue u (x.queue u ++ [{ q with id := x.nextId }]) with nextId := x.nextId + 1 }

/-- The work of a queued instruction is done; `streams` are those that its vectors went to. -/
def Tile.markRan (x : Tile) (u id : Nat) (streams : NSet) : Tile :=
  x.setQueue u ((x.queue u).map fun q => if q.id = id then { q with ran := true, streams := streams } else q)

/-- Some of the accumulator tiles is owned by another thread (R99). -/
def Tile.ownedByOther (x : Tile) (th : Nat) (l : List Nat) : Bool :=
  l.any fun a => match SMap.lookup x.owner a with
    | some o => o != th
    | none => false

/-- A thread takes the ownership of accumulator tiles (R99, R122). -/
def Tile.own (x : Tile) (th : Nat) (l : List Nat) : Tile :=
  { x with owner := l.foldl (fun m a => SMap.put m a th) x.owner }

/-! ### Control and scalar instructions (R100 to R106) -/

/-- NOP. -/
def execNop (t : Fin 256) (th : Fin 8) (w : BitVec 128) (s : State) : Host.Outcome State Fault Refusal :=
  done (issueSeq 0x00 t th w 0 (s.nextPc t th) id s)

/-- END: the thread has ended; it has no next instruction. -/
def execEndThread (t : Fin 256) (th : Fin 8) (w : BitVec 128) (s : State) : Host.Outcome State Fault Refusal :=
  done (issueSeq 0x01 t th w 0 (((s.tile t).thread th).pc.toNat : Int)
    (modTh t th fun h => { h with st := .ended }) s)

/-- The condition of BR (R106); 6 and 7 are reserved. -/
def branchCond (c : Nat) (a b : BitVec 64) : Bool :=
  match c with
  | 0 => a == b
  | 1 => a != b
  | 2 => a.slt b
  | 3 => !a.slt b
  | 4 => a.ult b
  | _ => !a.ult b

/-- BR (R106). DESIGN CHOICE (log entry 157): a reserved COND, 6 or 7, raises RESERVED_FIELD. -/
def execBr (t : Fin 256) (th : Fin 8) (w : BitVec 128) (s : State) : Host.Outcome State Fault Refusal :=
  let h := (s.tile t).thread th
  done (issueSeq 0x02 t th w (if 5 < Ins.sel w then 2 else 0)
    (if branchCond (Ins.sel w) (h.reg (Ins.ga w)) (h.reg (Ins.gb w)) then s.branchPc t th w else s.nextPc t th) id s)

/-- LOOP. -/
def execLoop (t : Fin 256) (th : Fin 8) (w : BitVec 128) (s : State) : Host.Outcome State Fault Refusal :=
  let v := ((s.tile t).thread th).setReg (Ins.ga w) (((s.tile t).thread th).reg (Ins.ga w) - 1)
  done (issueSeq 0x03 t th w 0
    (if v.reg (Ins.ga w) ≠ 0 then s.branchPc t th w else s.nextPc t th)
    (modTh t th fun h => h.setReg (Ins.ga w) (h.reg (Ins.ga w) - 1)) s)

/-- WAITEV (R100). -/
def execWaitev (t : Fin 256) (th : Fin 8) (w : BitVec 128) (s : State) : Host.Outcome State Fault Refusal :=
  let v := (Ins.imm w).setWidth 32
  done (issueSeq 0x04 t th w 0 (s.nextPc t th) (fun s =>
    if evReached ((s.tile t).ec (Ins.ec w)) v then s
    else modTh t th (fun h => { h with st := .waitEvent, waitEc := Ins.ec w, waitVal := v }) s) s)

/-- SIGEV (R101). -/
def execSigev (t : Fin 256) (th : Fin 8) (w : BitVec 128) (s : State) : Host.Outcome State Fault Refusal :=
  done (issueSeq 0x05 t th w 0 (s.nextPc t th) (fun s => s.modTile t fun x =>
    let l := x.outstanding th (Ins.units w)
    if l.isEmpty then x.bumpEc (Ins.ec w) else { x with sigs := x.sigs ++ [⟨Ins.ec w, l⟩] }) s)

/-- TICKWAIT (R105). -/
def execTickwait (t : Fin 256) (th : Fin 8) (w : BitVec 128) (s : State) : Host.Outcome State Fault Refusal :=
  let v := ((s.tile t).thread th).reg (Ins.ga w) + Ins.imm w
  done (issueSeq 0x06 t th w 0 (s.nextPc t th) (fun s =>
    if v.toNat ≤ s.spine.tick then s
    else modTh t th (fun h => { h with st := .waitTick, waitTick := v }) s) s)

/-- The Spine tick reaches a waiting thread's value (R103). -/
def execTickwaitExpiry (t : Fin 256) (th : Fin 8) (s : State) : Host.Outcome State Fault Refusal :=
  let h := (s.tile t).thread th
  .next (if h.st == .waitTick && decide (h.waitTick.toNat ≤ s.spine.tick) then
      modTh t th (fun h => { h with st := .ready }) s else s)

/-- SMOVI. -/
def execSmovi (t : Fin 256) (th : Fin 8) (w : BitVec 128) (s : State) : Host.Outcome State Fault Refusal :=
  done (issueSeq 0x08 t th w 0 (s.nextPc t th) (modTh t th fun h => h.setReg (Ins.gd w) (Ins.imm w)) s)

/-- The result of SALU (R106). -/
def saluResult (op : Nat) (a b : BitVec 64) : BitVec 64 :=
  match op with
  | 0 => a + b
  | 1 => a - b
  | 2 => a &&& b
  | 3 => a ||| b
  | 4 => a ^^^ b
  | 5 => a <<< (b.toNat % 64)
  | 6 => a >>> (b.toNat % 64)
  | _ => a * b

/-- SALU. -/
def execSalu (t : Fin 256) (th : Fin 8) (w : BitVec 128) (s : State) : Host.Outcome State Fault Refusal :=
  let h := (s.tile t).thread th
  let v := saluResult (Ins.sel w) (h.reg (Ins.ga w)) (if Ins.useImm w then Ins.imm w else h.reg (Ins.gb w))
  done (issueSeq 0x09 t th w 0 (s.nextPc t th) (modTh t th fun h => h.setReg (Ins.gd w) v) s)

/-- The address of SLD and SST (R106). -/
def sldAddr (h : Thread) (w : BitVec 128) : Nat := (h.reg (Ins.ga w) + Ins.imm w).toNat

/-- ADDR_RANGE for SLD and SST: 8-byte aligned, in the scratchpad. -/
def sldKind (a : Nat) : Nat := if a % 8 = 0 ∧ a + 8 ≤ 0x100000 then 0 else 6

/-- SLD: a word of a poisoned line or with a parity error is not loaded (R93, R366). -/
def execSld (t : Fin 256) (th : Fin 8) (w : BitVec 128) (s : State) : Host.Outcome State Fault Refusal :=
  let a := sldAddr ((s.tile t).thread th) w
  done (issueSeq 0x0A t th w (sldKind a) (s.nextPc t th) (fun s =>
    let r := sramRead t [(a, 8)] s
    if r.1 == .good then
      modTh t th (fun h => h.setReg (Ins.gd w) (BitVec.ofNat 64 (leNat (Mem.readN r.2.1.scratch a 8)))) r.2.2
    else reportFound t th false r.1 r.2.2) s)

/-- SST. -/
def execSst (t : Fin 256) (th : Fin 8) (w : BitVec 128) (s : State) : Host.Outcome State Fault Refusal :=
  let h := (s.tile t).thread th
  let a := sldAddr h w
  done (issueSeq 0x0B t th w (sldKind a) (s.nextPc t th) (fun s => s.modTile t fun x =>
    { x with scratch := Mem.writeN x.scratch a (natLe 8 (h.reg (Ins.gd w)).toNat) }) s)

/-- An opcode that R105 does not list. -/
def execReservedOpcode (t : Fin 256) (th : Fin 8) (w : BitVec 128) (s : State) : Host.Outcome State Fault Refusal :=
  done (if s.atInsn t th w && !insListed (Ins.op w) then
      tileFault t th 1 ((s.tile t).thread th).pc (Ins.op w) St.ok s
    else s)

/-! ### Completion of queued instructions (R97, R114, R119, R146) -/

/-- The instruction at the front of a unit's queue completes: the scoreboard and waiting SIGEVs are released.
The fetch engine's lists complete with their descriptors (R102). -/
def completeInsn (u : Nat) (x : Tile) : Tile :=
  match x.queue u with
  | q :: qs => if q.ran then ((x.setQueue u qs).settle q.id).wakeUnits else x
  | [] => x

/-- Count a completed array instruction (R114, R120, R146): its passes and cycles, less the cycles in which another
instruction of the array advanced too, and the cycles in which it was frozen. How many overlapped and how many froze is
open: free values (38). -/
def countArray (t : Nat) (q : QInstr) (rest : List QInstr) (s : State) : State :=
  if q.cycles = 0 then s
  else
    let d := s.draw
    let e := d.2.draw
    let shared := if rest.any (·.ran) then min q.cycles (Config.freeWord d.1).toNat else 0
    let cause := if q.passes = 0 then 5 else 4
    e.2.tileCtr t fun c => Ctrs.sat (Ctrs.sat (if q.passes = 0 then c else Ctrs.sat c 2 q.passes) 3 (q.cycles - shared)) cause
      (Config.freeWord e.1).toNat

/-! ### Code lines (R134) -/

/-- Keep the instructions of a code line; a full cache is emptied first (40). -/
def fillCode (line : Nat) (bytes : List Byte) (x : Tile) : Tile :=
  let c := if 4096 ≤ x.icache.length + bytes.length / 16 then [] else x.icache
  { x with icache := (List.range (bytes.length / 16)).foldl (fun m i =>
      SMap.put m (16 * line + i) (BitVec.ofNat 128 (fieldAt bytes (16 * i) 16))) c }

/-- A thread that is ready and whose instruction is not held fetches its line. DESIGN CHOICE (log entry 157): the OPCODE of
CT.FAULT_INFO is 0 for a CODE_FETCH fault, whose instruction was never fetched. -/
def fetchCode (t th : Nat) (s : State) : State :=
  let h := (s.tile t).thread th
  match s.tileRun t with
  | none => s
  | some (_, x, hd) =>
    let line := h.pc.toNat / 256
    if h.st != .ready || (SMap.lookup (s.tile t).icache (h.pc.toNat / 16)).isSome
        || (s.tile t).badLines.contains line || decide (hd.codeLength ≤ h.pc.toNat) then s
    else
      let va := x.program + hd.codeOffset + 256 * line
      match tileLine t (2 * th) x.part va (min 256 (hd.codeLength - 256 * line)) s with
      | .unmapped _ => tileFault t th 0xA h.pc 0 St.ok s
      | .waits _ s => s
      | .data b bad s =>
        if bad then
          badData { LogRec.atVa (tileRecord 0x03 St.poison t th s) x.part va with thread := th } []
            (s.modTile t fun y => { y with badLines := NSet.insert y.badLines line })
        else s.modTile t (fillCode line b)

/-- CODE_LINE_FETCH. -/
def execCodeLineFetch (t : Fin 256) (th : Fin 8) (s : State) : Host.Outcome State Fault Refusal :=
  done (fetchCode t th s)

end Sys2Proof.Machine
end

