-- ==== Sys2Proof/Machine/Matrix.lean ====
section
/-! DEFINITION. The matrix array's instructions: MMA and MCONV (R107 to R113, R124 to R126), MZERO (R122) and
MDRAIN (R121, R123), and the weight-gradient buffer's adds (R236, R240, R241). -/

namespace Sys2Proof.Machine

/-! ### Checks (R99, R108) -/

/-- A byte range lies in the scratchpad. -/
def inScratch (a : Int) (n : Nat) : Bool := decide (0 ≤ a ∧ a + n ≤ 0x100000)

/-- The format row of R108. DESIGN CHOICE (log entry 156): an ATEXP or BTEXP of -128, outside R54's range, is no fault and is
applied as 2^-128. -/
def mmaFormatBad (conv : Bool) (w : BitVec 128) : Bool :=
  let a := Mx.afmt w
  let b := Mx.bfmt w
  decide (11 < a) || decide (11 < b)
    || (Mx.atexp w != 0 && a != 3 && a != 4) || (Mx.btexp w != 0 && b != 3 && b != 4)
    || (Mx.transA w && isBlockFmt a) || (Mx.transB w && isBlockFmt b)
    || (conv && decide (4 < a))

/-- The K row of R108. -/
def mmaShapeBad (conv : Bool) (w : BitVec 128) : Bool :=
  let mx := isMxFmt (Mx.afmt w) || isMxFmt (Mx.bfmt w)
  let df := Mx.afmt w == 11 || Mx.bfmt w == 11
  (mx && Mx.k w % 32 != 0) || (df && Mx.k w % 64 != 0)
    || (conv && (Mx.k w % Mx.taps w != 0 || Mx.k w / Mx.taps w % 32 != 0
      || decide (128 < (shapeDims (Mx.shape w)).1)))

/-- The addresses of A and B for a thread. -/
def mmaA (h : Thread) (w : BitVec 128) : Nat := baseAddr h (Mx.ag w) (Mx.aoff w)
/-- As above, for B. -/
def mmaB (h : Thread) (w : BitVec 128) : Nat := baseAddr h (Mx.bg w) (Mx.boff w)

/-- The rows of A and of B that pass j uses: the first, and how many (R111, R112). -/
def mmaPassRows (shape j : Nat) : (Nat × Nat) × (Nat × Nat) :=
  match shape with
  | 3 => ((128 * j, 128), (0, 128))
  | 4 => ((0, 128), (128 * j, 128))
  | 5 => ((128 * (j / 2), 128), (128 * (j % 2), 128))
  | _ => ((0, (shapeDims shape).1), (0, (shapeDims shape).2.1))

/-- The byte ranges that pass j reads A from for group g, A at address a. -/
def mmaRangesA (conv : Bool) (w : BitVec 128) (a j g : Nat) : List (Int × Nat) :=
  let d := shapeDims (Mx.shape w)
  let r := (mmaPassRows (Mx.shape w) j).1
  if conv then convGroupRanges w a d.1 g
  else (groupRanges (Mx.afmt w) a (Mx.astride w) (Mx.transA w) d.1 r.1 r.2 (Mx.k w) g).map fun p => ((p.1 : Int), p.2)

/-- As above, for B at address b. -/
def mmaRangesB (w : BitVec 128) (b j g : Nat) : List (Nat × Nat) :=
  let d := shapeDims (Mx.shape w)
  let r := (mmaPassRows (Mx.shape w) j).2
  groupRanges (Mx.bfmt w) b (Mx.bstride w) (Mx.transB w) d.2.1 r.1 r.2 (Mx.k w) g

/-- Every pass and group of an instruction, in the order of R69 and R112. -/
def mmaSteps (w : BitVec 128) : List (Nat × Nat) :=
  (List.range (shapeDims (Mx.shape w)).2.2).flatMap fun j => (List.range (groupCount (Mx.k w))).map fun g => (j, g)

/-- The address row of R108. -/
def mmaAddrBad (conv : Bool) (h : Thread) (w : BitVec 128) : Bool :=
  mmaA h w % 64 != 0 || mmaB h w % 64 != 0
    || (isBlockFmt (Mx.afmt w) && Mx.astride w != 0) || (isBlockFmt (Mx.bfmt w) && Mx.bstride w != 0)
    || (mmaSteps w).any fun p =>
      (mmaRangesA conv w (mmaA h w) p.1 p.2).any (fun r => !inScratch r.1 r.2)
        || (mmaRangesB w (mmaB h w) p.1 p.2).any fun r => !inScratch r.1 r.2

/-- The fault of an MMA or MCONV, 0 for none, in the order of R108. DESIGN CHOICE (log entry 157): TRANSA 1 in an MCONV raises
RESERVED_FIELD. -/
def mmaKind (conv : Bool) (x : Tile) (th : Nat) (w : BitVec 128) : Nat :=
  if conv && Mx.transA w then 2
  else if mmaFormatBad conv w then 3
  else if 4 < Mx.acc w + (shapeDims (Mx.shape w)).2.2 then 4
  else if x.ownedByOther th (mmaTiles w) then 5
  else if mmaShapeBad conv w then 8
  else if mmaAddrBad conv (x.thread th) w then 6
  else 0

/-! ### The product -/

/-- The logical position that a place of an accumulator tile holds: the inverse of `shapeMap`. -/
def shapeInv (shape j r c : Nat) : Option (Nat × Nat) :=
  match shape with
  | 0 => some (r, c)
  | 1 => some (r % 64, c + 128 * (r / 64))
  | 2 => some (r + 128 * (c / 64), c % 64)
  | 3 => some (r + 128 * j, c)
  | 4 => some (r, c + 128 * j)
  | 5 => some (r + 128 * (j / 2), c + 128 * (j % 2))
  | 6 => if r < 64 then some (r, c) else none
  | _ => if c < 64 then some (r, c) else none

/-- Replace the words [a, a + n) of an accumulator map by the values of a function. -/
def accFill (m : SMap (BitVec 32)) (a n : Nat) (f : Nat → BitVec 32) : SMap (BitVec 32) :=
  m.filter (fun p => decide (p.1 < a))
    ++ ((List.range n).map (fun i => (a + i, f (a + i)))).filter (fun p => p.2 != 0)
    ++ m.filter fun p => decide (a + n ≤ p.1)

/-- One accumulator word before group g, and what it is after it: with ZERO the first group starts from +0 (R69, R107,
R111). `ga` and `gb` are the group's decoded rows. -/
def mmaWord (acc : SMap (BitVec 32)) (w : BitVec 128) (g : Nat) (ga gb : List (List Num)) (key : Nat) : BitVec 32 × BitVec 32 × Bool :=
  let old := SMap.getD acc key 0
  let start := if g = 0 ∧ Mx.zero w then 0 else old
  match shapeInv (Mx.shape w) (key / 16384 - Mx.acc w) (key % 16384 / 128) (key % 128) with
  | some p =>
    (old, groupAdd start (ga.getD p.1 []) (gb.getD p.2 []), groupOverflow start (ga.getD p.1 []) (gb.getD p.2 []))
  | none => (old, old, false)

/-- The decoded rows of A in group g. -/
def mmaGroupA (conv : Bool) (m : Mem) (w : BitVec 128) (a g : Nat) : List (List Num) :=
  let d := shapeDims (Mx.shape w)
  if conv then convTapGroup m w a d.1 g
  else operandGroup m (Mx.afmt w) (Mx.atexp w) a (Mx.astride w) (Mx.transA w) d.1 (Mx.k w) g

/-- The decoded rows of B in group g. -/
def mmaGroupB (m : Mem) (w : BitVec 128) (b g : Nat) : List (List Num) :=
  operandGroup m (Mx.bfmt w) (Mx.btexp w) b (Mx.bstride w) (Mx.transB w) (shapeDims (Mx.shape w)).2.1 (Mx.k w) g

/-- The words of accumulator tile a that a shape uses (R111). -/
def passWords (shape a : Nat) : List (Nat × Nat) :=
  match shape with
  | 6 => [(16384 * a, 8192)]
  | 7 => (List.range 128).map fun r => (16384 * a + 128 * r, 64)
  | _ => [(16384 * a, 16384)]

/-- A queued instruction of a thread; `pc` is the offset it stands at. -/
def queued (th : Nat) (pc : BitVec 32) (w : BitVec 128) (base extra : BitVec 64) (rd wr : NSet)
    (passes cycles : Nat) (ran : Bool) : QInstr :=
  ⟨0, th, pc, w, base, extra, rd, wr, passes, cycles, ran, []⟩

/-- One group of one pass: the operands' words of the group and the accumulators are read, and every accumulator of the
pass's tile takes the group's sum. After a word that met an error nothing more is read or written (R93, R112, R366). -/
def mmaGroup (conv : Bool) (t : Nat) (q : QInstr) (p : Bool × State) (i : Nat × Nat) : Bool × State :=
  if !p.1 then p
  else
    let w := q.word
    let a := q.base.toNat
    let b := q.extra.toNat
    let tile := Mx.acc w + i.1
    let x := sramRead t ((mmaRangesA conv w a i.1 i.2).map (fun r => (r.1.toNat, r.2)) ++ mmaRangesB w b i.1 i.2) p.2
    if x.1 != .good then (false, reportFound t q.th false x.1 x.2.2)
    else
      let y := accRead t (if i.2 = 0 ∧ Mx.zero w then [] else passWords (Mx.shape w) tile) x.2.2
      if y.1 != .good then (false, reportFound t q.th true y.1 y.2.2)
      else
        let f := mmaWord y.2.1 w i.2 (mmaGroupA conv x.2.1.scratch w a i.2) (mmaGroupB x.2.1.scratch w b i.2)
        let ovf := (List.range 16384).any fun k => (f (16384 * tile + k)).2.2
        (true, y.2.2.modTile t fun z =>
          { (z.modThread q.th fun h => h.raise { noFlags with ovf := ovf }) with
            acc := accFill z.acc (16384 * tile) 16384 fun k => (f k).2.1 })

/-- The passes of an MMA or MCONV, one after another. -/
def mmaApply (conv : Bool) (t : Nat) (q : QInstr) (s : State) : State := ((mmaSteps q.word).foldl (mmaGroup conv t q) (true, s)).2

/-- Cycles of an MMA or MCONV (R110, R114). -/
def mmaCycles (w : BitVec 128) : Nat :=
  (shapeDims (Mx.shape w)).2.2 * max (passCycles (Mx.afmt w) (Mx.k w)) (passCycles (Mx.bfmt w) (Mx.k w))

/-! ### MZERO (R122) -/

/-- The tiles of MASK. -/
def mzeroTiles (w : BitVec 128) : List Nat := bitsOf 4 (insBits w 8 4)

/-- Set accumulator tiles to +0. -/
def zeroTiles (l : List Nat) (m : SMap (BitVec 32)) : SMap (BitVec 32) :=
  m.filter fun p => !l.contains (p.1 / 16384)

/-! ### Adds into the weight-gradient buffer (R236, R240, R241) -/

/-- Add a run of values to the words from index `o` on; a parity error leaves them as they were (R259). -/
def wgbAdd (t o : Nat) (vals : List (BitVec 32)) (s : State) : Found × State :=
  let n := vals.length
  let x := sramRead t [(0x100000 + 4 * o, 4 * n)] s
  if x.1 == .parity then (x.1, x.2.2)
  else
    let old := x.2.1.wgb
    (.good, (x.2.2.modTile t fun y => { y with
      wgb := ((List.range n).zip vals).foldl (fun m p =>
        SMap.setD m 0 (o + p.1) (add32 (SMap.getD old (o + p.1) 0) p.2).1) y.wgb
      dirty := NSet.addAll y.dirty ((List.range ((o + n - 1) / 16 - o / 16 + 1)).map (· + o / 16)) }).wgbCtr
        fun c => Ctrs.sat c 0 1)

/-! ### MDRAIN (R121, R123) -/

/-- The destination of an MDRAIN. -/
def drainAddr (h : Thread) (w : BitVec 128) : Nat := baseAddr h (Dr.dg w) (Dr.doff w)

/-- The fault of an MDRAIN, 0 for none (R121). DESIGN CHOICE (log entry 157): a DID other than 0 with DEST 0 or 2 raises
RESERVED_FIELD. -/
def drainKind (x : Tile) (th : Nat) (w : BitVec 128) : Nat :=
  let d := drainAddr (x.thread th) w
  let direct := Dr.dest w == 0 || Dr.dest w == 2
  let lo := if Dr.dest w = 0 then 0 else 0x100000
  let hi := if Dr.dest w = 0 then 0x100000 else 0x140000
  if direct && Dr.did w != 0 then 2
  else if x.ownedByOther th [Dr.acc w] then 5
  else if direct && (d % 64 != 0 || decide (Dr.dstride w < 8) || decide (d < lo)
      || decide (hi < d + 64 * Dr.dstride w * 127 + 512)) then 6
  else 0

/-- A row of an accumulator tile as an instruction reads it. -/
def accRow (t a r : Nat) (s : State) : Found × List (BitVec 32) × State :=
  let k := 16384 * a + 128 * r
  let x := accRead t [(k, 128)] s
  (x.1, (List.range 128).map fun c => SMap.getD x.2.1 (k + c) 0, x.2.2)

/-- One row leaves the drain port; after a row that met an error nothing more leaves (R93). -/
def drainRow (t th : Nat) (d : Nat) (w : BitVec 128) (p : Bool × State) (r : Nat) : Bool × State :=
  if !p.1 then p
  else
    let x := accRow t (Dr.acc w) r p.2
    if x.1 != .good then (false, reportFound t th true x.1 x.2.2)
    else
      let a := d + 64 * Dr.dstride w * r
      match Dr.dest w with
      | 0 => (true, landScratch t a (x.2.1.flatMap fun v => natLe 4 v.toNat) (fun _ => false) x.2.2)
      | 2 =>
        let y := wgbAdd t ((a - 0x100000) / 4) x.2.1 x.2.2
        if y.1 == .good then (true, y.2) else (false, reportFound t th false y.1 y.2)
      | 3 => (true, pushStream t (Dr.did w) (x.2.1.map val32) x.2.2)
      | _ => (true, x.2.2)

/-- RELEASE: the tile becomes +0 and free (R121). -/
def releaseTile (a : Nat) (x : Tile) : Tile :=
  { x with acc := zeroTiles [a] x.acc, owner := SMap.del x.owner a }

/-- Every row leaves, in order, and then the tile is released. A drain to a chain waits for the chain. -/
def drainAll (t th d : Nat) (w : BitVec 128) (s : State) : State :=
  let r := (List.range 128).foldl (drainRow t th d w) (true, s)
  if r.1 && Dr.release w then r.2.modTile t (releaseTile (Dr.acc w)) else r.2

/-- The accumulator tiles that an MDRAIN writes. -/
def drainWrites (w : BitVec 128) : List Nat := if Dr.release w then [Dr.acc w] else []

/-! ### The array's queue (R96, R123, R163, R199) -/

/-- Some element that a tile's stream has delivered lies in a chunk that is not yet admitted (R163, R446). -/
def State.streamWaits (s : State) (tile stream : Nat) : Bool :=
  let keys := (bindsOf stream ((s.spine.sched.map (·.binds)).getD []) 0 0).map fun x => tile * 2 ^ 16 + x.1
  s.cle.runs.any fun r => r.2.chunks.any fun c => !c.2.admitted && c.2.own.any fun o => keys.contains o.1

/-- An instruction some of whose vectors the collective engine has not taken yet (R115, R163). -/
def State.drainWaits (s : State) (t : Nat) (q : QInstr) : Bool := q.ran && q.streams.any (s.streamWaits t)

/-- A FWD or BWD that was issued before instruction `id` of the array, and has not completed, holds the array (R199). -/
def Tile.streamerHolds (x : Tile) (id : Nat) : Bool :=
  (x.queue 2).any fun e => decide (e.id < id) && (insBits e.word 8 4 == 2 || insBits e.word 8 4 == 5)

/-- The array's instruction whose turn it is: the oldest whose work is not done, unless it waits for the streamer, for a
drain that has not left the port, or, as a drain to a chain, for its chain (R96, R123, R199). -/
def State.arrayNext (s : State) (t : Nat) : Option QInstr :=
  match ((s.tile t).queue 0).find? fun q => !q.ran with
  | some q =>
    if (Ins.op q.word == 0x13 && Dr.dest q.word == 1) || (s.tile t).streamerHolds q.id
        || ((s.tile t).queue 0).any (s.drainWaits t) then none
    else some q
  | none => none

/-- The streams that an array instruction delivers to. -/
def arrayStreams (w : BitVec 128) : NSet := if Ins.op w = 0x13 ∧ Dr.dest w = 3 then [Dr.did w] else []

/-- The work of an array instruction. -/
def runArray (t : Nat) (q : QInstr) (s : State) : State :=
  match Ins.op q.word with
  | 0x10 => mmaApply false t q s
  | 0x11 => mmaApply true t q s
  | 0x12 => s.modTile t fun x => { x with acc := zeroTiles (mzeroTiles q.word) x.acc }
  | _ => drainAll t q.th q.base.toNat q.word s

/-- The array executes its queue in issue order, as far as it can; the queue holds four instructions. -/
def headArray (t : Nat) : Nat → State → State
  | 0, s => s
  | n + 1, s =>
    match s.arrayNext t with
    | some q => headArray t n ((runArray t q s).modTile t fun x => x.markRan 0 q.id (arrayStreams q.word))
    | none => s

/-- An instruction enters the array's queue. -/
def enqueueArray (t : Nat) (q : QInstr) (s : State) : State := headArray t 4 (enqueueInsn t 0 q s)

/-- The instruction at the front of a unit's queue completes, unless the collective engine has not taken all of its vectors
(R97, R115, R163). -/
def completeUnit (t u : Nat) (s : State) : State :=
  match (s.tile t).queue u with
  | q :: qs =>
    if !q.ran || s.drainWaits t q then s
    else
      let s := if u = 0 then countArray t q qs s else s
      headArray t 4 (s.modTile t (completeInsn u))
  | [] => s

/-- A freeze has lasted 2^20 cycles (R119, R120): the drain's cause when a drain waits for its destination, else the
feeders'. -/
def execFreezeLong (t : Fin 256) (s : State) : Host.Outcome State Fault Refusal :=
  let drain := ((s.tile t).queue 0).any fun q => s.drainWaits t q || (!q.ran && Ins.op q.word == 0x13)
  .next (s.tileCtr t fun c => Ctrs.sat (Ctrs.sat c 6 1) (if drain then 5 else 4) (2 ^ 20))

/-- What an MMA or MCONV does once issued; in an idle array the first pass takes 24 further cycles (R114). -/
def mmaEffect (t th : Nat) (h : Thread) (w : BitVec 128) (s : State) : State :=
  let l := mmaTiles w
  let fill := if ((s.tile t).queue 0).isEmpty then 24 else 0
  enqueueArray t (queued th h.pc w (BitVec.ofNat 64 (mmaA h w)) (BitVec.ofNat 64 (mmaB h w)) l l (shapeDims (Mx.shape w)).2.2
    (mmaCycles w + fill) false) (s.modTile t fun x => x.own th l)

/-- MMA. -/
def execMma (t : Fin 256) (th : Fin 8) (w : BitVec 128) (s : State) : Host.Outcome State Fault Refusal :=
  let l := mmaTiles w
  done (issueUnit 0x10 t th w 0 l l (mmaKind false (s.tile t) th w) (mmaEffect t th ((s.tile t).thread th) w) s)

/-- MCONV. -/
def execMconv (t : Fin 256) (th : Fin 8) (w : BitVec 128) (s : State) : Host.Outcome State Fault Refusal :=
  let l := mmaTiles w
  done (issueUnit 0x11 t th w 0 l l (mmaKind true (s.tile t) th w) (mmaEffect t th ((s.tile t).thread th) w) s)

/-- MZERO. -/
def execMzero (t : Fin 256) (th : Fin 8) (w : BitVec 128) (s : State) : Host.Outcome State Fault Refusal :=
  let l := mzeroTiles w
  let h := (s.tile t).thread th
  done (issueUnit 0x12 t th w 0 [] l (if (s.tile t).ownedByOther th l then 5 else 0) (fun s =>
    enqueueArray t (queued th h.pc w 0 0 [] l 0 0 false) (s.modTile t fun x => x.own th l)) s)

/-- MDRAIN: the drain takes 152 cycles (R121). -/
def execMdrain (t : Fin 256) (th : Fin 8) (w : BitVec 128) (s : State) : Host.Outcome State Fault Refusal :=
  let h := (s.tile t).thread th
  let d := drainAddr h w
  done (issueUnit 0x13 t th w 0 [Dr.acc w] (drainWrites w) (drainKind (s.tile t) th w)
    (enqueueArray t (queued th h.pc w (BitVec.ofNat 64 d) 0 [Dr.acc w] (drainWrites w) 0 152 false)) s)

end Sys2Proof.Machine
end

