-- ==== Sys2Proof/Machine/Transc.lean ====
section
/-! DEFINITION. The correctly rounded transcendental functions of R167 and R168, and the sine and cosine
of the rotary code (R192). Each is enclosed between two integers in units of 2^−p, and the precision p
rises until both ends round alike. -/

namespace Sys2Proof.Machine

/-- Fixed-point product with p fraction bits, rounded down. -/
def fxMul (p a b : Nat) : Nat := a * b / 2 ^ p

/-- Σ x^k ÷ k! in fixed point, from term number k with value t, for `n` more terms. -/
def expTerms (p x : Nat) : Nat → Nat → Nat → Nat
  | 0, _, _ => 0
  | n + 1, k, t => t + expTerms p x n (k + 1) (fxMul p t x / k)

/-- e^x for a fixed-point x in [0, 2), rounded down, within 2^16 units. -/
def fxExp (p x : Nat) : Nat := expTerms p x (p + 8) 1 (2 ^ p)

/-- Σ y^(2k+1) ÷ (2k+1) in fixed point, from the power t = y^(2k+1). -/
def atanhTerms (p y2 : Nat) : Nat → Nat → Nat → Nat
  | 0, _, _ => 0
  | n + 1, k, t => t / k + atanhTerms p y2 n (k + 2) (fxMul p t y2)

/-- atanh y for a fixed-point y in [0, 1/3], within 2^16 units. -/
def fxAtanh (p y : Nat) : Nat := atanhTerms p (fxMul p y y) (p / 2 + 4) 1 y

/-- ln 2 in fixed point: 2 atanh(1/3). -/
def fxLn2 (p : Nat) : Nat := 2 * fxAtanh p (2 ^ p / 3)

/-- arctan(1/n) in fixed point by its alternating series; t = 2^p ÷ n^(2k+1). -/
def atanInvTerms (n2 : Nat) : Nat → Nat → Nat → Bool → Int
  | 0, _, _, _ => 0
  | f + 1, k, t, neg =>
    (if neg then -((t / k : Nat) : Int) else ((t / k : Nat) : Int))
      + atanInvTerms n2 f (k + 2) (t / n2) (!neg)

/-- arctan(1/n) in fixed point. -/
def fxAtanInv (p n : Nat) : Int := atanInvTerms (n * n) (p / 2 + 8) 1 (2 ^ p / n) false

/-- π in fixed point: 16 arctan(1/5) − 4 arctan(1/239). -/
def fxPi (p : Nat) : Nat := (16 * fxAtanInv p 5 - 4 * fxAtanInv p 239).toNat

/-- The units of 2^−p by which the enclosures below are widened on each side. -/
def fxSlack : Nat := 2 ^ 24

/-- Round an enclosed irrational magnitude: both ends carry a sticky bit, so the result is inexact. -/
def roundEnds (neg : Bool) (p : Nat) (lo hi : Nat) : Option (BitVec 32 × Flags) :=
  let a := round32 (.fin neg (2 * lo + 1) (-(p : Int) - 1))
  let b := round32 (.fin neg (2 * hi + 1) (-(p : Int) - 1))
  if a.1 = b.1 then some a else none

/-- Raise the precision until the two ends round alike. `f p` gives the enclosure at precision p. -/
def zivRound (neg : Bool) (f : Nat → Nat × Nat) : List Nat → BitVec 32 × Flags
  | [] => round32 (.fin neg (2 * (f 320).1 + 1) (-321))
  | p :: ps =>
    match roundEnds neg p (f p).1 (f p).2 with
    | some r => r
    | none => zivRound neg f ps

/-- The precisions that are tried. -/
def zivPrecs : List Nat := [320, 640, 1280, 2560]

/-- The enclosure [v − slack, v + slack]. -/
def around (v : Nat) : Nat × Nat := (v - fxSlack, v + fxSlack)

/-- A finite value in fixed point with p fraction bits, rounded down in magnitude. -/
def fxOf (m : Nat) (e : Int) (p : Nat) : Nat :=
  if 0 ≤ e + p then m * 2 ^ (e + p).toNat else m / 2 ^ (-(e + p)).toNat

/-- A value beyond every FP32 magnitude, inexact. -/
def hugeNum (neg : Bool) : Num := .fin neg 3 1000

/-- A nonzero value far below the smallest FP32 magnitude. -/
def tinyNum (neg : Bool) : Num := .fin neg 3 (-1000)

/-- e^(±m × 2^e) in fixed point for an argument of magnitude below 2^10, as n and e^r with the value
2^n × e^r, r in [0, ln 2). -/
def expSplit (neg : Bool) (m : Nat) (e : Int) (p : Nat) : Int × Nat :=
  let x := fxOf m e p
  let l := fxLn2 p
  let z : Int := if neg then -(x : Int) else x
  let n := z / (l : Int)
  (n, fxExp p (z - n * l).toNat)

/-- v × 2^n in the same units, rounded down. -/
def shiftInt (v : Nat) (n : Int) : Nat := if 0 ≤ n then v * 2 ^ n.toNat else v / 2 ^ (-n).toNat

/-- e^a (R167). -/
def exp32 (a : BitVec 32) : BitVec 32 × Flags :=
  match val32 a with
  | .nan => (qnan32, noFlags)
  | .inf n => (if n then 0 else 0x7F800000, noFlags)
  | .fin n m e =>
    if m = 0 then (0x3F800000, noFlags)
    else if floorLog2 m e ≥ 8 then round32 (if n then tinyNum false else hugeNum false)
    else zivRound false (fun p =>
      let (k, v) := expSplit n m e p
      (shiftInt (v - fxSlack) k, shiftInt (v + fxSlack) k)) zivPrecs

/-- 2^a (R167): exact for an integer. -/
def exp232 (a : BitVec 32) : BitVec 32 × Flags :=
  match val32 a with
  | .nan => (qnan32, noFlags)
  | .inf n => (if n then 0 else 0x7F800000, noFlags)
  | .fin n m e =>
    if m = 0 then (0x3F800000, noFlags)
    else if floorLog2 m e ≥ 8 then round32 (if n then tinyNum false else hugeNum false)
    else
      let z : Int := if n then -(m : Int) else m
      if 0 ≤ e then round32 (.fin false 1 (z * 2 ^ e.toNat))
      else if z % 2 ^ (-e).toNat = 0 then round32 (.fin false 1 (z / 2 ^ (-e).toNat))
      else zivRound false (fun p =>
        let k := z / (2 ^ (-e).toNat : Nat)
        let f := fxOf (z % (2 ^ (-e).toNat : Nat)).toNat e p
        let v := fxExp p (fxMul p f (fxLn2 p))
        (shiftInt (v - fxSlack) k, shiftInt (v + fxSlack) k)) zivPrecs

/-- log2 a (R167): exact for a power of two, −∞ with OF at zero, NV for a negative value. -/
def log232 (a : BitVec 32) : BitVec 32 × Flags :=
  match val32 a with
  | .nan => (qnan32, noFlags)
  | .inf true => (qnan32, ⟨true, false, false, false, false⟩)
  | .inf false => (0x7F800000, noFlags)
  | .fin n m e =>
    if m = 0 then (0xFF800000, ⟨false, true, false, false, false⟩)
    else if n then (qnan32, ⟨true, false, false, false, false⟩)
    else
      let k := floorLog2 m e
      if m = 2 ^ Nat.log2 m then round32 (.fin (decide (k < 0)) k.natAbs 0)
      else
        let frac (p : Nat) : Nat :=
          -- m ÷ 2^log2 m lies in (1, 2); y = (q − 1) ÷ (q + 1)
          let d := 2 ^ Nat.log2 m
          let y := (m - d) * 2 ^ p / (m + d)
          2 * fxAtanh p y * 2 ^ p / fxLn2 p
        if 0 ≤ k then zivRound false (fun p => around (k.toNat * 2 ^ p + frac p)) zivPrecs
        else zivRound true (fun p => around ((-k).toNat * 2 ^ p - frac p)) zivPrecs

/-- A value just below the magnitude of m × 2^e. -/
def justBelow (neg : Bool) (m : Nat) (e : Int) : Num := .fin neg (m * 2 ^ 64 - 1) (e - 64)

/-- e^(−2x) or e^(−x) in fixed point for x = m × 2^e ≥ 0. -/
def fxExpNeg (m : Nat) (e : Int) (p : Nat) : Nat :=
  let (k, v) := expSplit true m e p
  shiftInt v k

/-- tanh a (R167): (1 − e^(−2|a|)) ÷ (1 + e^(−2|a|)). -/
def tanh32 (a : BitVec 32) : BitVec 32 × Flags :=
  match val32 a with
  | .nan => (qnan32, noFlags)
  | .inf n => (if n then 0xBF800000 else 0x3F800000, noFlags)
  | .fin n m e =>
    if m = 0 then (a, noFlags)
    else if floorLog2 m e < -40 then round32 (justBelow n m e)
    else if floorLog2 m e ≥ 7 then round32 (justBelow n 1 0)
    else zivRound n (fun p =>
      let x := fxExpNeg m (e + 1) p
      around ((2 ^ p - x) * 2 ^ p / (2 ^ p + x))) zivPrecs

/-- 1 ÷ (1 + e^(−a)) (R167, R168). -/
def sigmoid32 (a : BitVec 32) : BitVec 32 × Flags :=
  match val32 a with
  | .nan => (qnan32, noFlags)
  | .inf n => (if n then 0 else 0x3F800000, noFlags)
  | .fin n m e =>
    if m = 0 then (0x3F000000, noFlags)
    else if floorLog2 m e ≥ 8 then round32 (if n then tinyNum false else justBelow false 1 0)
    else zivRound false (fun p =>
      let x := fxExpNeg m e p
      around ((if n then x else 2 ^ p) * 2 ^ p / (2 ^ p + x))) zivPrecs

/-- Σ 2^k x^(2k) ÷ (2k+1)!! in fixed point: erf x = 2/√π × x × e^(−x²) × this sum. -/
def erfTerms (p x2 : Nat) : Nat → Nat → Nat → Nat
  | 0, _, _ => 0
  | n + 1, k, t => t + erfTerms p x2 n (k + 2) (fxMul p t (2 * x2) / k)

/-- erf a (R167): beyond 4 in magnitude the value lies within 2^−25 of ±1. -/
def erf32 (a : BitVec 32) : BitVec 32 × Flags :=
  match val32 a with
  | .nan => (qnan32, noFlags)
  | .inf n => (if n then 0xBF800000 else 0x3F800000, noFlags)
  | .fin n m e =>
    if m = 0 then (a, noFlags)
    else if floorLog2 m e ≥ 2 then round32 (justBelow n 1 0)
    else
      -- the factor of x, at most 2/√π, is enclosed; x itself multiplies exactly
      let factor (p : Nat) : Nat :=
        let x2 := fxOf (m * m) (2 * e) p
        let s := erfTerms p x2 (p + 64) 3 (2 ^ p)
        let g := fxMul p s (let (k, v) := expSplit true (m * m) (2 * e) p; shiftInt v k)
        let rootPi := natSqrt (fxPi p * 2 ^ p)
        2 * g * 2 ^ p / rootPi
      let ends (p : Nat) : Option (BitVec 32 × Flags) :=
        let f := factor p
        let u := round32 (.fin n (m * (2 * (f - 2 ^ 40) + 1)) (e - p - 1))
        let v := round32 (.fin n (m * (2 * (f + 2 ^ 40) + 1)) (e - p - 1))
        if u.1 = v.1 then some u else none
      match ends 320, ends 640 with
      | some r, _ => r
      | none, some r => r
      | none, none => round32 (.fin n (m * (2 * factor 1280 + 1)) (e - 1281))

/-- Σ (−1)^k x^(2k+i) ÷ (2k+i)! in fixed point: i = 0 the cosine, i = 1 the sine; t is the next term. -/
def trigTerms (p x2 : Nat) : Nat → Nat → Nat → Bool → Int
  | 0, _, _, _ => 0
  | n + 1, k, t, neg =>
    (if neg then -(t : Int) else (t : Int))
      + trigTerms p x2 n (k + 2) (fxMul p t x2 / ((k + 1) * (k + 2))) (!neg)

/-- cos or sin of an angle in [0, π/4] given as a fixed-point number of radians. -/
def fxTrig (p x : Nat) (sine : Bool) : Nat :=
  let x2 := fxMul p x x
  (if sine then trigTerms p x2 (p / 4 + 16) 1 x false
   else trigTerms p x2 (p / 4 + 16) 0 (2 ^ p) false).toNat

/-- cos(2π φ ÷ 2^32) or sin(2π φ ÷ 2^32), rounded once to FP32 (R192). The multiples of 2^29 that give
0, ±1 are exact. -/
def trigTurn32 (sine : Bool) (phase : BitVec 32) : BitVec 32 :=
  -- sin φ = cos(φ − quarter turn)
  let ph := (if sine then phase - 0x40000000 else phase).toNat
  -- cos is even: fold into [0, half turn], then about the quarter turn
  let h := if ph ≤ 2 ^ 31 then ph else 2 ^ 32 - ph
  let neg : Bool := h > 2 ^ 30
  let q := if neg then 2 ^ 31 - h else h
  if q = 0 then (if neg then 0xBF800000 else 0x3F800000)
  else if q = 2 ^ 30 then 0
  else
    let useSin : Bool := q > 2 ^ 29
    let r := if useSin then 2 ^ 30 - q else q
    (zivRound neg (fun p => around (fxTrig p (2 * fxPi p * r / 2 ^ 32) useSin)) zivPrecs).1

end Sys2Proof.Machine
end

