-- ==== Sys2Proof/Machine/VecDesc.lean ====
section
/-! DEFINITION. The chain descriptor of the vector engine (R151 to R166) and its checks (R182). -/

namespace Sys2Proof.Machine

/-! ### Fields (R151, R153, R156, R159, R164) -/

namespace Vc
abbrev dg (w : BitVec 128) : Nat := insBits w 8 4
abbrev doff (w : BitVec 128) : Nat := insBits w 12 14
abbrev slot (w : BitVec 128) : Nat := insBits w 26 4
abbrev clrf (w : BitVec 128) : Bool := w.getLsbD 30
abbrev og (w : BitVec 128) : Nat := insBits w 32 4
/-- Bits of VCHAIN that are not reserved. -/
def used : BitVec 128 := insMask 0 31 ||| insMask 32 4
end Vc

namespace Cd
abbrev nstages (d : List Byte) : Nat := fieldAt d 0 1 % 8 + 1
abbrev two (d : List Byte) : Bool := (fieldAt d 0 1).testBit 3
abbrev vecs (d : List Byte) : Nat := fieldAt d 1 1 + 1
abbrev rows (d : List Byte) : Nat := fieldAt d 2 1 % 128 + 1
/-- Used lanes of the last vector of a row. -/
def lastLanes (d : List Byte) : Nat := if fieldAt d 3 1 = 0 then 128 else fieldAt d 3 1
abbrev acct (d : List Byte) : Nat := fieldAt d 4 1 % 4
abbrev accRel (d : List Byte) : Bool := (fieldAt d 4 1).testBit 2
abbrev flagOut (d : List Byte) : Bool := (fieldAt d 5 1).testBit 0
abbrev flagAddr (d : List Byte) : Nat := fieldAt d 8 4
abbrev const (d : List Byte) (i : Nat) : BitVec 32 := BitVec.ofNat 32 (fieldAt d (32 + 4 * i) 4)
abbrev stage (d : List Byte) (k : Nat) : Nat := fieldAt d (192 + 8 * k) 8
/-- The stage words that run. -/
def stages (d : List Byte) : List Nat := (List.range (nstages d)).map (stage d)
/-- Lanes of vector v that are not tail lanes (R149). -/
def lanes (d : List Byte) (v : Nat) : Nat := if v + 1 = vecs d then min 128 (lastLanes d) else 128
end Cd

namespace Sg
abbrev op (w : Nat) : Nat := bits w 0 8
abbrev sel (w i : Nat) : Nat := bits w (8 + 7 * i) 7
abbrev vd (w : Nat) : Nat := bits w 29 5
abbrev wrv (w : Nat) : Bool := w.testBit 34
abbrev mask (w : Nat) : Nat := bits w 35 3
abbrev sweeps (w : Nat) : Nat := bits w 38 2
abbrev rnd (w : Nat) : Bool := w.testBit 40
abbrev nosat (w : Nat) : Bool := w.testBit 41
abbrev fmt (w : Nat) : Nat := bits w 42 4
abbrev aux (w : Nat) : Nat := bits w 46 8
/-- The stage runs in sweep 1 or 2. -/
def runs (w sweep : Nat) : Bool := (sweeps w).testBit (sweep - 1)
end Sg

/-- An input stream (R156); addresses have OG added where ADDG is set. -/
structure VIn where
  en : Bool
  bcast : Bool
  base : Nat
  row : Nat
  vec : Nat
  fmt : Nat
  texp : Int
  soff : Int
  deriving DecidableEq, Repr

/-- An output stream (R159). -/
structure VOut where
  en : Bool
  gov : Bool
  rnd : Bool
  nosat : Bool
  sweep : Nat
  target : Nat
  src : Nat
  stream : Nat
  tensor : Nat
  base : Nat
  row : Nat
  vec : Nat
  fmt : Nat
  texp : Int
  soff : Int
  deriving DecidableEq, Repr

/-- TEXP is a field of E4M3 and E5M2 only. DESIGN CHOICE (log entry 156): a byte of -128, outside R54's range, is applied as
2^-128 and raises no fault. -/
def texpOf (fmt b : Nat) : Int := if fmt = 3 ∨ fmt = 4 then signedOf 8 b else 0

/-- BASE plus OG where ADDG is set. -/
def streamBase (b : Nat) (addg : Bool) (og : BitVec 64) : Nat :=
  if addg then (BitVec.ofNat 64 b + og).toNat else b

/-- The bytes of input stream i. -/
def inRaw (d : List Byte) (i : Nat) : List Byte := (d.drop (64 + 16 * i)).take 16
/-- The bytes of output stream o. -/
def outRaw (d : List Byte) (o : Nat) : List Byte := (d.drop (128 + 16 * o)).take 16

/-- Input stream i. -/
def vIn (d : List Byte) (og : BitVec 64) (i : Nat) : VIn :=
  let r := inRaw d i
  let c := fieldAt r 12 1
  { en := c.testBit 7, bcast := c.testBit 4
    base := streamBase (fieldAt r 0 4 % 2 ^ 21) (c.testBit 5) og
    row := fieldAt r 4 4 % 2 ^ 21, vec := fieldAt r 8 4 % 2 ^ 21
    fmt := c % 16, texp := texpOf (c % 16) (fieldAt r 13 1), soff := signedOf 16 (fieldAt r 13 2) }

/-- Output stream o. -/
def vOut (d : List Byte) (og : BitVec 64) (o : Nat) : VOut :=
  let r := outRaw d o
  let c := fieldAt r 12 1
  let f := fieldAt r 13 1
  { en := c.testBit 7, gov := f.testBit 7, rnd := f.testBit 3, nosat := f.testBit 4, sweep := f / 32 % 2 + 1
    target := c / 16 % 8, src := f % 8
    stream := fieldAt r 0 2, tensor := fieldAt r 2 2 % 2 ^ 12
    base := streamBase (fieldAt r 0 4 % 2 ^ 21) (f.testBit 6) og
    row := fieldAt r 4 4 % 2 ^ 21, vec := fieldAt r 8 4 % 2 ^ 21
    fmt := c % 16, texp := texpOf (c % 16) (fieldAt r 14 1), soff := signedOf 16 (fieldAt r 14 2) }

/-- The output streams that are used. -/
def vOuts (d : List Byte) (og : BitVec 64) : List VOut :=
  ((List.range 4).map (vOut d og)).filter (·.en)

/-- The input streams that are used. -/
def vIns (d : List Byte) (og : BitVec 64) : List VIn :=
  ((List.range 4).map (vIn d og)).filter (·.en)

/-! ### Operations (R165 to R167, R172) -/

/-- How many operands an operation uses; none for a reserved OP. -/
def opArity (op : Nat) : Option Nat :=
  if op ∈ [0x02, 0x03, 0x04, 0x08, 0x09, 0x0C, 0x0D, 0x10] then some 2
  else if op ∈ [0x05, 0x06, 0x07, 0x13] then some 3
  else if op ∈ [0x01, 0x0A, 0x0B, 0x0E, 0x0F, 0x11, 0x12, 0x14, 0x15, 0x16, 0x17, 0x18, 0x19, 0x20, 0x21, 0x22, 0x23] then some 1
  else none

/-- The stage is a reduction. -/
def isReduce (op : Nat) : Bool := decide (0x20 ≤ op ∧ op ≤ 0x23)

/-- AUX bits that an operation defines. -/
def auxBits (op : Nat) : Nat :=
  match op with
  | 0x0C => 0x07
  | 0x0D => 0x3B
  | 0x0E => 0xFF
  | 0x0F => 0xFF
  | _ => 0

/-- A stage selects a source. -/
def usesSource (d : List Byte) (src : Nat) : Bool :=
  (Cd.stages d).any fun w => (List.range 3).any fun i => Sg.sel w i % 64 == src

/-- The chain reads accumulator tiles. -/
def usesAcc (d : List Byte) : Bool := usesSource d 0x2C
/-- The chain takes drained rows. -/
def usesDrain (d : List Byte) : Bool := usesSource d 0x2D
/-- The chain writes accumulator tiles. -/
def usesTarget3 (d : List Byte) : Bool := (vOuts d 0).any (·.target == 3)

/-- The accumulator tiles that a chain names (R152). -/
def chainTiles (d : List Byte) : List Nat :=
  if usesAcc d || usesTarget3 d then ((List.range (Cd.vecs d)).map (· + Cd.acct d)).filter (· < 4) else []

/-! ### Checks (R182) -/

/-- Reserved bits of an input stream. -/
def inReserved (r : List Byte) : Bool :=
  let c := fieldAt r 12 1
  decide (2 ^ 21 ≤ fieldAt r 0 4) || decide (2 ^ 21 ≤ fieldAt r 4 4) || decide (2 ^ 21 ≤ fieldAt r 8 4)
    || c.testBit 6 || fieldAt r 15 1 != 0
    || ((c % 16 == 3 || c % 16 == 4) && fieldAt r 14 1 != 0)
    || (c.testBit 4 && fieldAt r 8 4 != 0)

/-- Reserved bits of an output stream, reserved targets, and ADDG where it must be 0. -/
def outReserved (r : List Byte) : Bool :=
  let c := fieldAt r 12 1
  let tg := c / 16 % 8
  decide (2 ^ (if tg = 1 then 28 else 21) ≤ fieldAt r 0 4)
    || decide (2 ^ 21 ≤ fieldAt r 4 4) || decide (2 ^ 21 ≤ fieldAt r 8 4) || decide (3 < tg)
    || ((c % 16 == 3 || c % 16 == 4) && fieldAt r 15 1 != 0)
    || ((tg == 1 || tg == 3) && (fieldAt r 13 1).testBit 6)

/-- An operand selector of stage k breaks R165 or R166. -/
def selBad (d : List Byte) (k i : Nat) : Bool :=
  let w := Cd.stage d k
  let x := Sg.sel w i
  let src := x % 64
  decide (0x38 < src) || (decide (64 ≤ x) && decide (0x20 ≤ src))
    || (decide (0x20 ≤ src ∧ src < 0x28)
        && (decide (k ≤ src - 0x20)
          || Sg.sweeps w &&& Sg.sweeps (Cd.stage d (src - 0x20)) != Sg.sweeps w))
    || (decide (0x28 ≤ src ∧ src < 0x2C) && !(vIn d 0 (src - 0x28)).en)

/-- A stage word breaks the first row of R182. -/
def stageReserved (d : List Byte) (k : Nat) : Bool :=
  let w := Cd.stage d k
  let op := Sg.op w
  match opArity op with
  | none => true
  | some n =>
    decide (2 ^ 54 ≤ w) || Sg.sweeps w == 0 || (!Cd.two d && Sg.sweeps w != 1)
      || (Sg.aux w &&& auxBits op != Sg.aux w)
      || (op != 0x0E && (Sg.rnd w || Sg.nosat w || Sg.fmt w != 0))
      || (Sg.vd w != 0 && !Sg.wrv w && !isReduce op)
      || (Sg.wrv w && isReduce op)
      || (op == 0x0D && bits (Sg.aux w) 3 3 == 0)
      || (List.range 3).any fun i => if i < n then selBad d k i else Sg.sel w i != 0x38

/-- The first row of R182: RESERVED_FIELD. -/
def chainReserved (w : BitVec 128) (d : List Byte) : Bool :=
  w &&& ~~~Vc.used != 0
    || decide (16 ≤ fieldAt d 0 1) || decide (128 ≤ fieldAt d 2 1) || decide (8 ≤ fieldAt d 4 1)
    || decide (2 ≤ fieldAt d 5 1) || !zeroAt d 6 2 || !zeroAt d 12 20
    || (!Cd.flagOut d && Cd.flagAddr d != 0)
    || (List.range 8).any (fun k => decide (Cd.nstages d ≤ k) && Cd.stage d k != 0)
    || (List.range 4).any (fun i => inReserved (inRaw d i) || outReserved (outRaw d i))
    || (List.range (Cd.nstages d)).any (stageReserved d)
    || (vOuts d 0).any (fun o => decide (Cd.nstages d ≤ o.src) || !Sg.runs (Cd.stage d o.src) o.sweep)
    || (usesDrain d && (Cd.rows d != 128 || Cd.vecs d != 1 || Cd.two d))

/-- TEXP and SCALEOFF are 0 in a format that has neither. -/
def texpBad (fmt : Nat) (soff : Int) : Bool := !(fmt == 3 || fmt == 4 || isBlockFmt fmt) && soff != 0

/-- The second row: BAD_FORMAT. -/
def chainFormat (d : List Byte) : Bool :=
  ((vIns d 0).any fun x => decide (12 < x.fmt) || (x.bcast && decide (4 < x.fmt)) || texpBad x.fmt x.soff)
  || ((vOuts d 0).any fun o =>
    (if o.gov then o.target != 1 || o.fmt != 0
     else match o.target with
      | 0 => decide (12 < o.fmt)
      | 1 => !([0, 1, 3, 4, 5, 8].contains o.fmt)
      | _ => o.fmt != 0)
    || (!o.gov && ((o.rnd && o.fmt == 0) || (o.nosat && !decide (1 ≤ o.fmt ∧ o.fmt ≤ 4))))
    || texpBad o.fmt o.soff)
  || (Cd.stages d).any fun w => Sg.op w == 0x0E && !decide (1 ≤ Sg.fmt w ∧ Sg.fmt w ≤ 4)

/-- Lanes of vector v that a stream of a format reads or writes (R149). -/
def streamLanes (d : List Byte) (fmt v : Nat) : Nat := if isBlockFmt fmt then 128 else Cd.lanes d v

/-- The byte ranges of vector v of row r of a stream in a format: elements, then scales. -/
def streamRanges (d : List Byte) (fmt : Nat) (a : Nat) (soff : Int) (v : Nat) : List (Int × Nat) :=
  ((a : Int), packedBytes fmt (streamLanes d fmt v))
    :: if isBlockFmt fmt then [((a : Int) + soff, scalesBytes fmt 128)] else []

/-- The address of vector v of row r. -/
def vecAddr (base row vec r v : Nat) : Nat := base + row * r + vec * v

/-- The byte ranges of an input stream at vector (r, v). -/
def inRanges (d : List Byte) (x : VIn) (r v : Nat) : List (Int × Nat) :=
  if x.bcast then [((x.base + x.row * r : Nat), elemBits x.fmt / 8)]
  else streamRanges d x.fmt (vecAddr x.base x.row x.vec r v) x.soff v

/-- A range lies in [lo, hi). -/
def rangeIn (lo hi : Nat) (p : Int × Nat) : Bool := decide ((lo : Int) ≤ p.1 ∧ p.1 + p.2 ≤ hi)

/-- Every vector of the chain. -/
def chainVecs (d : List Byte) : List (Nat × Nat) :=
  (List.range (Cd.rows d)).flatMap fun r => (List.range (Cd.vecs d)).map fun v => (r, v)

/-- The last row: ADDR_RANGE. -/
def chainAddr (d : List Byte) (og : BitVec 64) : Bool :=
  (Cd.flagOut d && (Cd.flagAddr d % 8 != 0 || decide (0x100000 < Cd.flagAddr d + 8)))
  || (chainVecs d).any fun p =>
    ((vIns d og).any fun x =>
      (if x.bcast then (x.base + x.row * p.1) % (elemBits x.fmt / 8) != 0
       else vecAddr x.base x.row x.vec p.1 p.2 % 32 != 0)
      || !(inRanges d x p.1 p.2).all (rangeIn 0 0x100000))
    || ((vOuts d og).any fun o => (o.target == 0 || o.target == 2) &&
      (vecAddr o.base o.row o.vec p.1 p.2 % 32 != 0
      || !(streamRanges d o.fmt (vecAddr o.base o.row o.vec p.1 p.2) o.soff p.2).all
          (if o.target = 0 then rangeIn 0 0x100000 else rangeIn 0x100000 0x140000)))

/-- The fault of a chain, 0 for none, in the order of R182. -/
def chainKind (x : Tile) (th : Nat) (w : BitVec 128) (d : List Byte) (og : BitVec 64) : Nat :=
  if chainReserved w d then 2
  else if chainFormat d then 3
  else if (usesAcc d || usesTarget3 d) && decide (4 < Cd.acct d + Cd.vecs d) then 4
  else if x.ownedByOther th (chainTiles d) then 5
  else if chainAddr d og then 6
  else 0

end Sys2Proof.Machine
end

