-- ==== Sys2Proof/Machine/Vector.lean ====
section
/-! DEFINITION. The vector engine's chains: VCHAIN (R151, R152), the arithmetic of a stage (R167 to R172), input
and output streams (R156 to R163), and the run of a chain (R148 to R150, R154, R155, R173 to R181). -/

namespace Sys2Proof.Machine

/-! ### Arithmetic of one lane (R167 to R171) -/

/-- CVT: convert, decode, and scale back with one rounding. -/
def cvtLane (fmt : Nat) (sat : Bool) (rnd : Rnd) (t : Int) (a : BitVec 32) : BitVec 32 × Flags :=
  let c := scalarEncode fmt sat rnd t (val32 a)
  let r := round32NV [.nan] (scalarDecode fmt t c.1)
  (r.1, orFlags c.2 r.2)

/-- The result of an operation on one lane; the result of a reduction is its operand. -/
def laneOp (op aux : Nat) (a b c : BitVec 32) : BitVec 32 × Flags :=
  match op with
  | 0x02 => add32 a b
  | 0x03 => sub32 a b
  | 0x04 => mul32 a b
  | 0x05 => fma32 a b c
  | 0x06 => fnma32 a b c
  | 0x07 => mul332 a b c
  | 0x08 => (max32 a b, noFlags)
  | 0x09 => (min32 a b, noFlags)
  | 0x0A => (abs32 a, noFlags)
  | 0x0B => (neg32 a, noFlags)
  | 0x0D => (if cmp32 (aux % 4) a b then 0x3F800000 else 0, noFlags)
  | 0x0F => scale32 a (signedOf 8 aux)
  | 0x10 => div32 a b
  | 0x11 => sqrt32 a
  | 0x12 => rsqrt32 a
  | 0x13 => divsq32 a b c
  | 0x14 => exp232 a
  | 0x15 => exp32 a
  | 0x16 => log232 a
  | 0x17 => tanh32 a
  | 0x18 => sigmoid32 a
  | 0x19 => erf32 a
  | _ => (canon32 a, noFlags)

/-- The row accumulator after one vector's unmasked lanes (R172). -/
def reduceStep (op : Nat) (acc : BitVec 32) (xs : List (BitVec 32)) : BitVec 32 × Flags :=
  let vs := xs.map val32
  match op with
  | 0x20 => round32NV (val32 acc :: vs) (numSum (val32 acc) vs)
  | 0x21 => round32NV (val32 acc :: vs) (numSum (val32 acc) (vs.map fun v => numMul v v))
  | 0x22 => (xs.foldl max32 acc, noFlags)
  | _ => (xs.foldl (fun m x => max32 m (abs32 x)) acc, noFlags)

/-! ### Registers -/

/-- A lane of a vector register. -/
def Tile.vlane (x : Tile) (n l : Nat) : BitVec 32 := SMap.getD x.vregs (128 * n + l) 0

/-- A mask register; M0 reads all ones. -/
def Tile.maskReg (x : Tile) (m : Nat) : BitVec 128 := if m = 0 then BitVec.allOnes 128 else SMap.getD x.masks m 0

/-- Write lanes of a vector register. -/
def Tile.setLanes (x : Tile) (n : Nat) (vals : List (Nat × BitVec 32)) : Tile :=
  { x with vregs := vals.foldl (fun m p => SMap.setD m 0 (128 * n + p.1) p.2) x.vregs }

/-- The tile-local range of a vector register, or of one lane of it. -/
def vregRange (n : Nat) (lane : Option Nat) : Nat × Nat :=
  match lane with
  | some l => (0x140000 + 512 * n + 4 * l, 4)
  | none => (0x140000 + 512 * n, 512)

/-! ### The run of a chain -/

/-- What is fixed while a chain runs: tile, thread, descriptor, OG, the count c of R67 before it, and the MDRAIN
that feeds it. -/
structure Chain where
  t : Nat
  th : Nat
  d : List Byte
  og : BitVec 64
  c0 : Nat
  drain : Option QInstr

/-- A chain that runs: whether a read has stopped it, its flags, the stage results of the current vector, and
the state. -/
structure ChainRun where
  stopped : Bool
  flags : Flags
  ys : List (List (BitVec 32))
  s : State

/-- A read stopped the chain (R93, R366). -/
def ChainRun.stop (c : Chain) (acc : Bool) (f : Found) (s : State) (x : ChainRun) : ChainRun :=
  { x with stopped := true, s := reportFound c.t c.th acc f s }

/-- The rounding of lane l of vector (r, v) at site number n of the chain (R181). -/
def Chain.rnd (c : Chain) (s : State) (site r v l : Nat) : Rnd :=
  .sr (srWord s.num.seed (BitVec.ofNat 64 s.spine.step) c.t c.th (c.c0 + site) (128 * (Cd.vecs c.d * r + v) + l))

/-- CVT stages with RND among the first k (R181). -/
def cvtSites (d : List Byte) (k : Nat) : Nat :=
  (((Cd.stages d).take k).filter fun w => Sg.op w == 0x0E && Sg.rnd w).length

/-- The sites of a chain. -/
def chainSites (d : List Byte) : Nat := cvtSites d 8 + ((vOuts d 0).filter (·.rnd)).length

/-- The site number of output stream o. -/
def outSite (d : List Byte) (o : Nat) : Nat :=
  cvtSites d 8 + (((List.range o).map (vOut d 0)).filter fun x => x.en && x.rnd).length

/-- The exact value of element i of an input vector (R157). -/
def inElem (fmt : Nat) (texp : Int) (elems scales : List Byte) (i : Nat) : Num :=
  let e := elemAt (elemBits fmt) elems i
  let x := fieldAt scales (i / blockLen fmt * scaleBytes fmt) (scaleBytes fmt)
  if fmt = 12 then dfu8Decode x e
  else if isBlockFmt fmt then blockDecode fmt x (i % blockLen fmt) e
  else scalarDecode fmt texp e

/-- Read input stream x at vector (r, v): its lanes, tail lanes of a scalar format as +0. -/
def readIn (c : Chain) (x : VIn) (r v : Nat) (run : ChainRun) : List (BitVec 32) × ChainRun :=
  let rs := (inRanges c.d x r v).map fun p => (p.1.toNat, p.2)
  let f := sramRead c.t rs run.s
  if f.1 != .good then ([], run.stop c false f.1 f.2.2)
  else
    let bytes := rs.map fun p => Mem.readN f.2.1.scratch p.1 p.2
    let val (i : Nat) : BitVec 32 × Flags :=
      round32NV [.nan] (inElem x.fmt x.texp (bytes.getD 0 []) (bytes.getD 1 []) i)
    if x.bcast then
      let y := val 0
      (List.replicate 128 y.1, { run with s := f.2.2, flags := orFlags run.flags y.2 })
    else
      let n := streamLanes c.d x.fmt v
      let ys := (List.range n).map val
      let fl := allFlags ((ys.take (Cd.lanes c.d v)).map (·.2))
      (ys.map (·.1) ++ List.replicate (128 - n) 0, { run with s := f.2.2, flags := orFlags run.flags fl })

/-- Stages of a sweep select a source. -/
def sweepUses (d : List Byte) (sweep src : Nat) : Bool :=
  (Cd.stages d).any fun w => Sg.runs w sweep && (List.range 3).any fun i => Sg.sel w i % 64 == src

/-- The rows that sources 0x28 to 0x2D give for vector (r, v), in order: four input streams, the accumulator row
and the drained row. -/
def readSources (c : Chain) (r v sweep : Nat) (run : ChainRun) : List (List (BitVec 32)) × ChainRun :=
  (List.range 6).foldl (fun (a : List (List (BitVec 32)) × ChainRun) i =>
    let run := a.2
    if run.stopped || !sweepUses c.d sweep (0x28 + i) then (a.1 ++ [[]], run)
    else if i < 4 then
      let y := readIn c (vIn c.d c.og i) r v run
      (a.1 ++ [y.1], y.2)
    else
      let tile := if i = 4 then Cd.acct c.d + v else match c.drain with
        | some q => Dr.acc q.word
        | none => 0
      let y := accRow c.t tile r run.s
      if y.1 != .good then (a.1 ++ [[]], run.stop c true y.1 y.2.2)
      else (a.1 ++ [y.2.1], { run with s := y.2.2 })) ([], run)

/-- Lane l of an operand (R165, R166), with `x` the tile as the stage reads it. -/
def operandLane (d : List Byte) (x : Tile) (ys src : List (List (BitVec 32))) (sel r v l : Nat) : BitVec 32 :=
  let k := sel % 64
  if 64 ≤ sel then x.vlane k r
  else if k < 0x20 then x.vlane k l
  else if k < 0x28 then (ys.getD (k - 0x20) []).getD l 0
  else if k < 0x2E then (src.getD (k - 0x28) []).getD l 0
  else if k < 0x36 then Cd.const d (k - 0x2E)
  else if k = 0x36 then ofNat32 (128 * v + l)
  else if k = 0x37 then ofNat32 r
  else 0

/-- The vector registers that a stage reads: those that its operands name, and lane r of a reduction's
register. -/
def stageRanges (w r : Nat) (fresh : Bool) : List (Nat × Nat) :=
  let n := (opArity (Sg.op w)).getD 0
  ((List.range n).filterMap fun i =>
    let x := Sg.sel w i
    if 64 ≤ x then some (vregRange (x % 64) (some r)) else if x < 0x20 then some (vregRange x none) else none)
  ++ if isReduce (Sg.op w) && !fresh then [vregRange (Sg.vd w) (some r)] else []

/-- Run stage k on vector (r, v) (R148, R150, R170 to R172). -/
def runStage (c : Chain) (src : List (List (BitVec 32))) (r v sweep k : Nat) (run : ChainRun) : ChainRun :=
  let w := Cd.stage c.d k
  if run.stopped then run
  else if !Sg.runs w sweep then { run with ys := run.ys ++ [[]] }
  else
    let op := Sg.op w
    let fresh := v == 0 && sweep == (if (Sg.sweeps w).testBit 0 then 1 else 2)
    let f := sramRead c.t (stageRanges w r fresh) run.s
    if f.1 != .good then run.stop c false f.1 f.2.2
    else
      let x := f.2.1
      let live (l : Nat) : Bool := decide (l < Cd.lanes c.d v) && (x.maskReg (Sg.mask w)).getLsbD l
      let arg (i l : Nat) : BitVec 32 := operandLane c.d x run.ys src (Sg.sel w i) r v l
      let lane (l : Nat) : BitVec 32 × Flags :=
        if !live l then (arg 0 l, noFlags)
        else if op = 0x0C then
          (canon32 (if (x.maskReg (Sg.aux w % 8)).getLsbD l then arg 0 l else arg 1 l), noFlags)
        else if op = 0x0E then
          cvtLane (Sg.fmt w) (!Sg.nosat w) (if Sg.rnd w then c.rnd run.s (cvtSites c.d k) r v l else .rne)
            (signedOf 8 (Sg.aux w)) (arg 0 l)
        else laneOp op (Sg.aux w) (arg 0 l) (arg 1 l) (arg 2 l)
      let ys := (List.range 128).map lane
      let idx := (List.range 128).filter live
      let red := if isReduce op then
          reduceStep op (if fresh then 0 else x.vlane (Sg.vd w) r) (idx.map (arg 0))
        else (0, noFlags)
      let s := f.2.2.modTile c.t fun y =>
        let y := if Sg.wrv w then y.setLanes (Sg.vd w) (idx.map fun l => (l, (ys.getD l (0, noFlags)).1)) else y
        let y := if isReduce op then y.setLanes (Sg.vd w) [(r, red.1)] else y
        let hit := BitVec.ofNat 128 (ofBits (idx.filter fun l => cmp32 (Sg.aux w % 4) (arg 0 l) (arg 1 l)))
        if op = 0x0D then { y with masks := SMap.setD y.masks 0 (bits (Sg.aux w) 3 3) hit } else y
      { run with
        s := s, ys := run.ys ++ [ys.map (·.1)]
        flags := orFlags run.flags (orFlags red.2 (allFlags (ys.map (·.2)))) }

/-! ### Output streams -/

/-- One converted group of lanes: scale entry, codes, the flags, and how many lanes saturated (49). -/
structure VGroup where
  scale : Nat
  codes : List Nat
  flags : Flags
  sat : Nat

/-- Convert the lanes of one group (R160, R162). -/
def convGroup (fmt : Nat) (sat : Bool) (texp : Int) (rnds : Nat → Rnd) (vs : List Num) : VGroup :=
  if isBlockFmt fmt then
    let r := blockEncode fmt rnds vs
    let n := if isMxFmt fmt && !anyNonFinite vs then
        (((List.range vs.length).zip vs).filter fun p =>
          (mxElemEncode fmt (rnds p.1) (numScale p.2 (127 - (r.1 : Int)))).2.ovf).length
      else 0
    ⟨r.1, r.2.1, r.2.2, n⟩
  else
    let rs := ((List.range vs.length).zip vs).map fun p => scalarEncode fmt sat (rnds p.1) texp p.2
    ⟨0, rs.map (·.1), allFlags (rs.map (·.2)), if sat && fmt != 0 then (rs.filter (·.2.ovf)).length else 0⟩

/-- The exact value of lane i of a group. -/
def VGroup.value (g : VGroup) (fmt : Nat) (texp : Int) (i : Nat) : Num :=
  let e := g.codes.getD i 0
  if isBlockFmt fmt then blockDecode fmt g.scale i e else scalarDecode fmt texp e

/-- Groups of `n` lanes of a vector. -/
def laneGroups (n : Nat) (vals : List Num) : List (List Num) :=
  (List.range ((vals.length + n - 1) / n)).map fun i => (vals.drop (n * i)).take n

/-- Emit output o of vector (r, v) (R149, R159 to R162). -/
def emitOut (c : Chain) (r v o : Nat) (run : ChainRun) : ChainRun :=
  let x := vOut c.d c.og o
  let n := Cd.lanes c.d v
  let vals := run.ys.getD x.src []
  let a := vecAddr x.base x.row x.vec r v
  if x.target = 2 then
    let y := wgbAdd c.t ((a - 0x100000) / 4) (vals.take n) run.s
    if y.1 == .good then { run with s := y.2 } else run.stop c false y.1 y.2
  else if x.target = 3 then
    { run with s := run.s.modTile c.t fun y => { y with
        acc := ((List.range n).zip vals).foldl (fun m p =>
          SMap.setD m 0 (16384 * (Cd.acct c.d + v) + 128 * r + p.1) p.2) y.acc } }
  else
    let fmt := if x.gov then (run.s.govFormat x.tensor).1 else x.fmt
    let texp := if x.gov then (run.s.govFormat x.tensor).2 else x.texp
    let blk := isBlockFmt fmt
    let nums := (vals.take n).map val32 ++ if blk then List.replicate (128 - n) (.fin false 0 0) else []
    let sat := !(x.nosat && decide (1 ≤ fmt ∧ fmt ≤ 4))
    let len := if fmt = 11 then 64 else 32
    let rnd (l : Nat) : Rnd := if x.rnd then c.rnd run.s (outSite c.d o) r v l else .rne
    let gs := ((List.range 4).zip (laneGroups len nums)).map fun p =>
      convGroup fmt sat texp (fun i => rnd (len * p.1 + i)) p.2
    let s := countNb ((gs.filter (·.flags.nb)).length) run.s
    let s := if x.gov then
        (((List.range 4).zip gs).foldl (fun s p =>
          observe x.tensor ((vals.take n).drop (32 * p.1) |>.take 32) p.2.sat s) s)
      else s
    let s := if x.target = 0 then
        let s := landScratch c.t a (packElems (elemBits fmt) (gs.flatMap (·.codes))) (fun _ => false) s
        if blk then
          landScratch c.t ((a : Int) + x.soff).toNat (gs.flatMap fun g => natLe (scaleBytes fmt) g.scale) (fun _ => false) s
        else s
      else
        pushStream c.t x.stream ((gs.flatMap fun g =>
          (List.range g.codes.length).map (g.value fmt texp)).take n) s
    { run with s := s, flags := orFlags run.flags (allFlags (gs.map (·.flags))) }

/-- One vector of one sweep (R148). -/
def runVector (c : Chain) (r sweep v : Nat) (run : ChainRun) : ChainRun :=
  if run.stopped then run
  else
    let src := readSources c r v sweep { run with ys := [] }
    let run := (List.range (Cd.nstages c.d)).foldl (fun x k => runStage c src.1 r v sweep k x) src.2
    (List.range 4).foldl (fun x o =>
      if x.stopped || !(vOut c.d c.og o).en || (vOut c.d c.og o).sweep != sweep then x else emitOut c r v o x) run

/-- Every vector, in the order of R148. -/
def runVectors (c : Chain) (run : ChainRun) : ChainRun :=
  (List.range (Cd.rows c.d)).foldl (fun x r =>
    (if Cd.two c.d then [1, 2] else [1]).foldl (fun x sweep =>
      (List.range (Cd.vecs c.d)).foldl (fun x v => runVector c r sweep v x) x) x) run

/-- What a chain does after its last vector (R154, R155, R178). -/
def closeChain (c : Chain) (run : ChainRun) : State :=
  if run.stopped then run.s
  else
    let d := c.d
    let s := modTh c.t c.th (fun h => h.raise run.flags) run.s
    let s := if Cd.flagOut d then
        landScratch c.t (Cd.flagAddr d) (natLe 8 (flagBits run.flags)) (fun _ => false) s
      else s
    let s := if Cd.accRel d && usesAcc d then
        (chainTiles d).foldl (fun s a => s.modTile c.t (releaseTile a)) s
      else s
    match c.drain with
    | some q => if Dr.release q.word then s.modTile c.t (releaseTile (Dr.acc q.word)) else s
    | none => s

/-- The work of the instruction at the front of a queue is done. -/
def Tile.ranHead (x : Tile) (u : Nat) (streams : NSet) : Tile :=
  match x.queue u with
  | q :: qs => x.setQueue u ({ q with ran := true, streams := streams } :: qs)
  | [] => x

/-- The streams that a chain's output streams deliver to (R159). -/
def chainStreams (d : List Byte) (og : BitVec 64) : NSet :=
  NSet.addAll [] (((vOuts d og).filter (·.target == 1)).map (·.stream))

/-- The MDRAIN that feeds a chain: the array's next instruction, with DID equal to the chain's SLOT (R123, R175, R199). -/
def State.drainFor (s : State) (t slot : Nat) : Option QInstr :=
  match ((s.tile t).queue 0).find? fun q => !q.ran with
  | some q =>
    if Ins.op q.word = 0x13 ∧ Dr.dest q.word = 1 ∧ Dr.did q.word = slot ∧ !(s.tile t).streamerHolds q.id
        ∧ !((s.tile t).queue 0).any (s.drainWaits t) then some q
    else none
  | none => none

/-- Run a checked chain: CLRF, the count of R181, and the vectors. -/
def runChain (t : Nat) (q : QInstr) (d : List Byte) (drain : Option QInstr) (s : State) : State :=
  let c : Chain := ⟨t, q.th, d, q.extra, ((s.tile t).thread q.th).sr, drain⟩
  let s := modTh t q.th (fun h => { h with
    flags := if Vc.clrf q.word then 0 else h.flags
    sr := (h.sr + chainSites d) % 2 ^ 24 }) s
  let s := closeChain c (runVectors c ⟨false, noFlags, [], s⟩)
  let l := chainStreams d q.extra
  match drain with
  | some m => headArray t 4 (s.modTile t fun x => (x.ranHead 1 l).markRan 0 m.id l)
  | none => s.modTile t fun x => x.ranHead 1 l

/-- The chain at the head of the vector engine's queue: its descriptor is read and checked, and it runs. A
drain-fed chain waits for its MDRAIN (R175). -/
def headChain (t : Nat) (s : State) : State :=
  match (s.tile t).queue 1 with
  | [] => s
  | q :: _ =>
    if q.ran then s
    else
      let a := q.base.toNat
      let f := sramRead t [(a, 256)] s
      if f.1 != .good then (reportFound t q.th false f.1 f.2.2).modTile t fun x => x.ranHead 1 []
      else
        let d := Mem.readN f.2.1.scratch a 256
        let k := chainKind (s.tile t) q.th q.word d q.extra
        if k ≠ 0 then tileFault t q.th k q.pc 0x30 St.ok (f.2.2.modTile t fun x => x.ranHead 1 [])
        else if usesDrain d then
          match s.drainFor t (Vc.slot q.word) with
          | some m => runChain t q d (some m) f.2.2
          | none => s
        else runChain t q d none f.2.2

/-- VCHAIN_EXECUTE. -/
def execVchainExecute (t : Fin 256) (s : State) : Host.Outcome State Fault Refusal := done (headChain t s)

/-! ### VCHAIN (R151, R152) -/

/-- The descriptor's address. -/
def chainAddrOf (h : Thread) (w : BitVec 128) : Nat := baseAddr h (Vc.dg w) (Vc.doff w)

/-- The descriptor's address is not aligned or not in the scratchpad. -/
def descAddrKind (a n : Nat) : Nat := if a % 64 = 0 ∧ a + n ≤ 0x100000 then 0 else 6

/-- VCHAIN: the tiles that its descriptor names are learnt at issue. -/
def execVchain (t : Fin 256) (th : Fin 8) (w : BitVec 128) (s : State) : Host.Outcome State Fault Refusal :=
  let h := (s.tile t).thread th
  let a := chainAddrOf h w
  let k := descAddrKind a 256
  let d := if k = 0 then Mem.readN (s.tile t).scratch a 256 else []
  let rd := if usesAcc d then chainTiles d else []
  let wr := if usesTarget3 d || (usesAcc d && Cd.accRel d) then chainTiles d else []
  done (issueUnit 0x30 t th w 1 rd wr k
    (enqueueInsn t 1 (queued th h.pc w (BitVec.ofNat 64 a) (h.reg (Vc.og w)) rd wr 0 0 false)) s)

end Sys2Proof.Machine
end

