-- ==== Sys2Proof/Machine/LeafOps.lean ====
section
/-! DEFINITION. Leaves and tracks (R183 to R190), rotary codes (R191 to R194), and the movement of leaves between
tiers (R219 to R225). -/

namespace Sys2Proof.Machine

/-! ### Frames and leaves (R183 to R187) -/

/-- The head dimension. -/
def LeafPool.hd (p : LeafPool) : Nat := 64 * 2 ^ p.hdCode
/-- Bytes of an element frame. -/
def LeafPool.eb (p : LeafPool) : Nat := if p.fmt = 5 then 32 * p.hd else 16 * p.hd
/-- Bytes of a scale frame. -/
def LeafPool.sb (p : LeafPool) : Nat := if p.fmt = 5 then p.hd else 4 * p.hd

/-- The pool of a slot. -/
def State.poolOf (s : State) (x : Slot) : Option LeafPool := SMap.lookup s.leafs.pools x.pool

/-- The track of a layer and head. -/
def Slot.track (x : Slot) (layer head : Nat) : Nat := layer * x.heads + head

/-- The table index of leaf i of a track (R187). -/
def Slot.leafIdx (x : Slot) (layer head i : Nat) : Nat := x.track layer head * x.perTrack + i

/-- The length of a track. -/
def Slot.len (x : Slot) (layer head : Nat) : Nat := SMap.getD x.lens (x.track layer head) 0

/-- A leaf. -/
def Slot.leaf (x : Slot) (i : Nat) : Leaf := SMap.getD x.leaves i Leaf.free

/-- The lowest number from n on that is not in a rising list. -/
def firstFree : NSet → Nat → Nat
  | [], n => n
  | a :: l, n => if a = n then firstFree l (n + 1) else if a < n then firstFree l n else n

/-- The lowest free frame of a pool (52). -/
def LeafPool.freeFrame (p : LeafPool) : Option Nat :=
  let f := firstFree p.used 0
  if f < p.frames then some f else none

/-- Free frames of a pool. -/
def LeafPool.freeCount (p : LeafPool) : Nat := p.frames - p.used.length

/-- Change a pool. -/
def State.modPool (s : State) (k : Nat) (f : LeafPool → LeafPool) : State :=
  { s with leafs := { s.leafs with pools := SMap.upd s.leafs.pools k f } }

/-- The bytes of a leaf in its frame, elements, then scales; and the offsets ÷ 32 of those marked bad. -/
def readFrame (p : LeafPool) (f : Nat) (s : State) : List Byte × List Nat × State :=
  let a := vaReadMarks p.part (p.elemBase + f * p.eb) p.eb s
  let b := vaReadMarks p.part (p.scaleBase + f * p.sb) p.sb a.2.2
  (a.1 ++ b.1, a.2.1 ++ b.2.1.map (· + p.eb / 32), b.2.2)

/-- Write a leaf into a frame; `bad` lists the offsets ÷ 32 of marked sectors (R367). -/
def writeFrame (p : LeafPool) (f : Nat) (data : List Byte) (bad : List Nat) (s : State) : State :=
  let e := p.eb / 32
  vaWriteMarks p.part (p.scaleBase + f * p.sb) ((data.drop p.eb).take p.sb) ((bad.filter (e ≤ ·)).map (· - e))
    (vaWriteMarks p.part (p.elemBase + f * p.eb) (data.take p.eb) (bad.filter (· < e)) s)

/-! ### Rotary codes (R191 to R194) -/

/-- Entry i of the rotary table. -/
def ropeEntry (table : List Byte) (i : Nat) : Nat := fieldAt table (8 * i) 8

/-- Cosine and sine of pair i at a position (R192). -/
def ropeCs (table : List Byte) (pos i : Nat) : BitVec 32 × BitVec 32 :=
  let ph := BitVec.ofNat 32 (pos * ropeEntry table i % 2 ^ 64 / 2 ^ 32)
  (trigTurn32 false ph, trigTurn32 true ph)

/-- a × c + b × s, or a × c − b × s, exactly and rounded once, with the flags of the rounding. -/
def ropeSum (neg : Bool) (a c b s : BitVec 32) : BitVec 32 × Flags :=
  let x := numMul (val32 b) (val32 s)
  round32NV [val32 a, val32 b] (numAdd (numMul (val32 a) (val32 c)) (if neg then numNeg x else x))

/-- The pair and the half (false first) of a dimension below ROT_DIMS, and its partner (R193). -/
def ropePair (half : Bool) (rot d : Nat) : Nat × Bool × Nat :=
  if half then
    if d < rot / 2 then (d, false, d + rot / 2) else (d - rot / 2, true, d - rot / 2)
  else (d / 2, d % 2 == 1, if d % 2 = 0 then d + 1 else d - 1)

/-- Rotate a vector at a position, or apply the inverse: each element with the flags of its rounding (R203). -/
def rotateFlags (inv half : Bool) (rot : Nat) (table : List Byte) (pos : Nat) (x : List (BitVec 32)) :
    List (BitVec 32 × Flags) :=
  ((List.range x.length).zip x).map fun e =>
    if rot ≤ e.1 then (e.2, noFlags)
    else
      let p := ropePair half rot e.1
      let cs := ropeCs table pos p.1
      ropeSum (p.2.1 == inv) e.2 cs.1 (x.getD p.2.2 0) cs.2

/-- The rotated vector alone. -/
def rotate (inv half : Bool) (rot : Nat) (table : List Byte) (pos : Nat) (x : List (BitVec 32)) : List (BitVec 32) :=
  (rotateFlags inv half rot table pos x).map (·.1)

/-- The rotary table of a slot: its bytes, and whether any came marked bad. -/
def readRope (x : Slot) (part : Nat) (s : State) : List Byte × Bool × State :=
  if x.rotDims = 0 then ([], false, s) else vaRead part x.ropeTable (4 * x.rotDims) s

/-! ### Leaves in other tiers -/

/-- A leaf leaves its frame for its far copy. -/
def leaveFrame (q i : Nat) (r : FarRef) (s : State) : State :=
  match s.slot q with
  | none => s
  | some x =>
    let f := (x.leaf i).frame
    let s := s.modPool x.pool fun p => { p with used := NSet.erase p.used f }
    (s.modLeaf q i fun l => { l with
      tier := if r.host then 3 else 2, far := some r, farcopy := false, motion := false, frame := 0 }).leafCtr
        fun c => Ctrs.sat (if r.host then Ctrs.sat c 3 1 else c) 2 1

/-- Copy bytes to a lender or to host memory; `bad` lists the offsets ÷ 32 of marked sectors (R367). -/
def putCopy (r : FarRef) (data : List Byte) (bad : List Nat) (s : State) : State :=
  if r.host then
    (pagePieces r.off data.length).foldl (fun s p =>
      let o := (p.1 - r.off) / 32
      regionWrite r.who p.1 ((data.drop (p.1 - r.off)).take p.2)
        ((bad.filter fun i => decide (o ≤ i ∧ i < o + (p.2 + 31) / 32)).map (· - o)) s) s
  else sendFar 6 (s.lenderPos r.who) 0 data bad s

/-- A place for a far copy of a leaf: the far tier, else host memory when SPILL_HOST is set (R221). -/
def placeLeaf (p : LeafPool) (spill : Bool) (s : State) : Option (FarRef × State) :=
  match placeFar p.part p.leafBytes 64 s with
  | some r => some r
  | none => if spill then (s.placeHost p.part p.leafBytes 64).map fun r => (r, s) else none

/-- The eviction of a leaf starts (R221); none when neither tier accepts it. A leaf with a valid copy frees its frame
alone, at once. -/
def startEvictLeaf (q i : Nat) (s : State) : Option State :=
  match s.slot q with
  | none => none
  | some x =>
    let l := x.leaf i
    match l.farcopy, l.far, s.poolOf x with
    | true, some r, _ => some (leaveFrame q i r s)
    | _, _, some p =>
      (placeLeaf p x.spillHost s).map fun r =>
        let s := r.2.modLeaf q i fun l => { l with motion := true }
        { s with leafs := { s.leafs with evicting := s.leafs.evicting ++ [(q, i, r.1)] } }
    | _, _, none => none

/-- The eviction of a leaf completes: its bytes stand in its copy, and its frame is free. -/
def finishEvictLeaf (q i : Nat) (r : FarRef) (s : State) : State :=
  let s := endEvict q i s
  match s.slot q, (s.slot q).bind s.poolOf with
  | some x, some p =>
    let d := readFrame p (x.leaf i).frame s
    leaveFrame q i r (putCopy r d.1 d.2.1 d.2.2)
  | _, _ => s

/-- An eviction in progress of a leaf is cancelled: the frame stays (R224). -/
def cancelEvictLeaf (q i : Nat) (s : State) : State :=
  if s.leafs.evicting.any fun e => e.1 == q && e.2.1 == i then
    ((endEvict q i s).modLeaf q i fun l => { l with motion := false }).leafCtr fun c => Ctrs.sat c 7 1
  else s

/-- A leaf outside local HBM begins to come back: its lender is asked (R223). -/
def askLeaf (q i : Nat) (s : State) : State :=
  match s.slot q with
  | none => s
  | some x =>
    let l := x.leaf i
    if l.tier < 2 || l.motion then s
    else
      let s := s.modLeaf q i fun l => { l with motion := true }
      match l.far with
      | some r => if r.host then s else sendFar 5 (s.lenderPos r.who) 0 [] [] s
      | none => s

/-- Leaves that are named: their evictions are cancelled, and those that are not local begin to come back. Answers those
that are not local. -/
def needLeaves (q : Nat) (is : List Nat) (s : State) : List Nat × State :=
  match s.slot q with
  | none => ([], s)
  | some x =>
    let away := is.filter fun i => decide (2 ≤ (x.leaf i).tier)
    (away, is.foldl (fun s i => askLeaf q i (cancelEvictLeaf q i s)) s)

/-- What the streamer of a tile keeps of a wait for leaves: no page, and no cause of R332 but the reclaim cause. -/
abbrev leafWait : Nat := 7
/-- The number of no page. -/
abbrev noPage : Nat := 2 ^ 40

/-- The cause under which the streamer of a tile waits for leaves. -/
def Tile.leafWaits (x : Tile) : Option Nat :=
  (SMap.lookup x.lateLines 16).bind fun w => if w.2 = noPage then some w.1 else none

/-- The streamer of a tile waits for nothing. -/
def endStreamWait (t : Nat) (s : State) : State := s.modTile t fun x => { x with lateLines := SMap.del x.lateLines 16 }

/-- A read waits for leaves: it is counted as it begins to wait, and as a wait under the reclaim cause when it begins to be
one (R223, R225, R332). -/
def noteLeafWait (t q : Nat) (away : List Nat) (s : State) : State :=
  let old := (s.tile t).leafWaits
  let held := away.any fun i =>
    (((s.slot q).bind fun x => (x.leaf i).far).map fun r => !r.host && s.reclaiming r.who r.window).getD false
  let c := if held then Stall.reclaim else leafWait
  let s := s.modTile t fun x => { x with lateLines := SMap.put x.lateLines 16 (c, noPage) }
  let s := if old.isSome then s else s.leafCtr fun k => Ctrs.sat k 5 1
  if held && old != some Stall.reclaim then s.ptuCtr fun k => Ctrs.sat k (2 * Stall.reclaim) 1 else s

/-- The leaves that a read of a tile's streamer names are local; if not, it waits for them. -/
def readLeaves (t q : Nat) (is : List Nat) (s : State) : Bool × State :=
  let n := needLeaves q is s
  if n.1.isEmpty then (true, endStreamWait t n.2) else (false, noteLeafWait t q n.1 n.2)

/-- The bytes of a leaf that a read takes: free values once software has written the slot's leaf table (R188). -/
def leafFrame (p : LeafPool) (x : Slot) (i : Nat) (s : State) : List Byte × Bool × State :=
  let r := readFrame p (x.leaf i).frame s
  if x.tainted then
    let d := r.2.2.draw
    ((List.range r.1.length).map (Config.freeByte d.1), false, d.2)
  else (r.1, !r.2.1.isEmpty, r.2.2)

/-- Bytes of a copy in host memory, and whether a completion was poisoned or in error. -/
def State.copyRead (s : State) (r : FarRef) (n : Nat) : List Byte × Bool :=
  (pagePieces r.off n).foldl (fun (a : List Byte × Bool) p =>
    let x := s.regionRead r.who p.1 p.2
    (a.1 ++ x.1, a.2 || x.2)) ([], false)

/-- Set LASTUSE of leaves (R189). -/
def touchLeaves (q : Nat) (is : List Nat) (s : State) : State :=
  is.foldl (fun s i => s.modLeaf q i fun l => { l with lastUse := s.useStep }) s

end Sys2Proof.Machine
end

