-- ==== Sys2Proof/Machine/AttnDesc.lean ====
section
/-! DEFINITION. The ATTN instruction and descriptor (R195 to R198), its checks (R199, R200), and the rows of
values that an operation reads and writes. -/

namespace Sys2Proof.Machine

namespace At
abbrev kind (w : BitVec 128) : Nat := insBits w 8 4
abbrev dg (w : BitVec 128) : Nat := insBits w 12 4
abbrev doff (w : BitVec 128) : Nat := insBits w 16 14
abbrev slot (w : BitVec 128) : Nat := insBits w 32 4
/-- Bits of ATTN that are not reserved. -/
def used : BitVec 128 := insMask 0 30 ||| insMask 32 4
abbrev layer (d : List Byte) : Nat := fieldAt d 0 2
abbrev head0 (d : List Byte) : Nat := fieldAt d 2 1
abbrev nheads (d : List Byte) : Nat := fieldAt d 3 1
abbrev src (d : List Byte) : Nat := fieldAt d 4 1
abbrev flags (d : List Byte) : Nat := fieldAt d 5 1
abbrev first (d : List Byte) : Bool := (flags d).testBit 0
abbrev causal (d : List Byte) : Bool := (flags d).testBit 1
abbrev wideIn (d : List Byte) : Bool := (flags d).testBit 2
abbrev wideOut (d : List Byte) : Bool := (flags d).testBit 3
abbrev qgrad (d : List Byte) : Bool := (flags d).testBit 4
abbrev bwdq (d : List Byte) : Bool := (flags d).testBit 5
abbrev gradOnly (d : List Byte) : Bool := (flags d).testBit 6
abbrev rows (d : List Byte) : Nat := fieldAt d 6 1 + 1
abbrev qlog (d : List Byte) : Nat := fieldAt d 7 1
abbrev firstLeaf (d : List Byte) : Nat := fieldAt d 8 4
abbrev nleaves (d : List Byte) : Nat := fieldAt d 12 4
abbrev qpos (d : List Byte) : Nat := fieldAt d 16 8
abbrev addr0 (d : List Byte) : Nat := fieldAt d 24 4
abbrev addr1 (d : List Byte) : Nat := fieldAt d 28 4
abbrev stride0 (d : List Byte) : Nat := fieldAt d 32 4
abbrev stride1 (d : List Byte) : Nat := fieldAt d 36 4
abbrev scale (d : List Byte) : BitVec 32 := BitVec.ofNat 32 (fieldAt d 40 4)
abbrev gscale (d : List Byte) : BitVec 32 := BitVec.ofNat 32 (fieldAt d 44 4)
abbrev window (d : List Byte) : Nat := fieldAt d 48 4
abbrev acc (d : List Byte) : Nat := fieldAt d 52 1
abbrev vm (d : List Byte) : Nat := fieldAt d 53 1
abbrev vl (d : List Byte) : Nat := fieldAt d 54 1
abbrev vd (d : List Byte) : Nat := fieldAt d 55 1
end At

/-- The kinds. -/
abbrev kAppend : Nat := 1
abbrev kFwd : Nat := 2
abbrev kFinal : Nat := 3
abbrev kPrep : Nat := 4
abbrev kBwd : Nat := 5
abbrev kGfinal : Nat := 6
abbrev kQsend : Nat := 7
abbrev kQrelease : Nat := 8
abbrev kLfetch : Nat := 9
abbrev kTrunc : Nat := 10

/-- The byte ranges of the descriptor (first, count) with the kinds that use each (R197). -/
def attnFields : List (Nat × Nat × List Nat) :=
  [ (0, 2, [1, 2, 3, 4, 5, 6, 7, 9, 10]), (2, 1, [1, 2, 3, 4, 5, 6, 7, 9, 10]), (3, 1, [1, 6, 7, 9, 10]),
    (4, 1, [2, 5, 6, 7, 8]), (6, 1, [1, 2, 3, 4, 5, 6]), (7, 1, [2, 5, 6]), (8, 4, [2, 5, 6, 7, 9]),
    (12, 4, [2, 5, 6, 7, 9, 10]), (16, 8, [2, 5, 6]), (24, 4, [1, 2, 3, 4, 5, 6]), (28, 4, [1, 3, 4, 5, 6]),
    (32, 4, [1, 2, 3, 4, 5, 6]), (36, 4, [1, 3, 4, 5, 6]), (40, 4, [2, 5]), (44, 4, [5]), (48, 4, [2, 5]),
    (52, 1, [2, 3, 5, 6]), (53, 1, [2, 3, 5]), (54, 1, [2, 3, 5]), (55, 1, [4, 5]), (56, 8, []) ]

/-- The FLAGS bits that a kind uses (55). -/
def attnFlagBits (k : Nat) : Nat :=
  match k with
  | 1 => 0x04
  | 2 => 0x07
  | 3 => 0x08
  | 4 => 0x04
  | 5 => 0x06
  | 6 => 0x18
  | 7 => 0x60
  | _ => 0

/-- The first row of R200. -/
def attnReserved (w : BitVec 128) (d : List Byte) : Bool :=
  let k := At.kind w
  w &&& ~~~At.used != 0 || k == 0 || decide (10 < k)
    || attnFields.any (fun f => !f.2.2.contains k && !zeroAt d f.1 f.2.1)
    || At.flags d &&& attnFlagBits k != At.flags d
    || decide (2 < At.src d) || decide (128 < At.rows d) || decide (4 < At.qlog d)
    || decide (2 ^ 48 ≤ At.qpos d) || decide (2 ^ 21 ≤ At.addr0 d) || decide (2 ^ 21 ≤ At.addr1 d)
    || decide (31 < At.vm d) || decide (31 < At.vl d) || decide (31 < At.vd d)

/-- The kind uses accumulator tiles. -/
def attnUsesAcc (k : Nat) (d : List Byte) : Bool := k == kFwd || k == kFinal || k == kBwd || (k == kGfinal && At.qgrad d)

/-- Accumulator tiles used at a head dimension (R200). -/
def attnTileCount (hd : Nat) : Nat := if hd = 256 then 2 else 1

/-- The accumulator tiles that an operation uses. -/
def attnTiles (k : Nat) (d : List Byte) (hd : Nat) : List Nat :=
  if attnUsesAcc k d then ((List.range (attnTileCount hd)).map (· + At.acc d)).filter (· < 4) else []

/-- The head dimension of a slot; 64 when it does not exist. -/
def State.slotHd (s : State) (q : Nat) : Nat :=
  (((s.slot q).bind s.poolOf).map (·.hd)).getD 64

/-! ### Rows in the scratchpad -/

/-- Bytes of a row of hd values. -/
def attnRow (wide : Bool) (hd : Nat) : Nat := if wide then 4 * hd else 2 * hd

/-- Rows of an operation at ADDR0 (0) or ADDR1 (1). -/
def attnRowCount (k : Nat) (d : List Byte) : Nat :=
  if k = kAppend then At.rows d * At.nheads d
  else if k = kGfinal ∧ !At.qgrad d then 16 * At.nleaves d
  else At.rows d

/-- The byte ranges at ADDR0 and ADDR1: reads, then writes. -/
def attnRanges (k : Nat) (d : List Byte) (hd : Nat) : List (Nat × Nat) × List (Nat × Nat) :=
  let n := attnRowCount k d
  let at0 (b : Bool) := (List.range n).map fun r => (At.addr0 d + At.stride0 d * r, attnRow b hd)
  let at1 (b : Bool) := (List.range n).map fun r => (At.addr1 d + At.stride1 d * r, attnRow b hd)
  let wi := At.wideIn d
  let wo := At.wideOut d
  match k with
  | 1 => (at0 wi ++ at1 wi, [])
  | 2 => (at0 wi, [])
  | 3 => ([], at0 wo ++ [(At.addr1 d, 8 * n)])
  | 4 => (at0 wi ++ at1 wi, [])
  | 5 => (at0 wi ++ at1 wi, [])
  | 6 => ([], at0 wo ++ if At.qgrad d then [] else at1 wo)
  | _ => ([], [])

/-- The values of a row. -/
def readRow (m : Mem) (wide : Bool) (a n : Nat) : List (BitVec 32) :=
  let bs := Mem.readN m a (attnRow wide n)
  (List.range n).map fun i =>
    if wide then BitVec.ofNat 32 (fieldAt bs (4 * i) 4) else BitVec.ofNat 32 (fieldAt bs (2 * i) 2 * 2 ^ 16)

/-- The bytes of a row of values in OUTFMT. -/
def rowBytes (wide : Bool) (xs : List (BitVec 32)) : List Byte :=
  xs.flatMap fun x => if wide then natLe 4 x.toNat else natLe 2 (convertFp bf16 true .rne (val32 x)).1

/-- A value rounded to BF16 (R204). -/
def bf16Of (v : Num) : Num := decodeFp bf16 (convertFp bf16 true .rne v).1

/-! ### Checks (R200) -/

/-- The ADDR_RANGE row of R200. -/
def attnAddrBad (t : Nat) (w : BitVec 128) (d : List Byte) (s : State) : Bool :=
  let k := At.kind w
  match s.slot (At.slot w) with
  | none => true
  | some x =>
    let hd := s.slotHd (At.slot w)
    let counted := [kAppend, kQsend, kLfetch, kTrunc, kGfinal].contains k
    let n := if counted then At.nheads d else 1
    let heads := (List.range n).map (· + At.head0 d)
    let r := attnRanges k d hd
    let grad := k == kBwd || (k == kGfinal && !At.qgrad d) || k == kQrelease || (k == kQsend && At.bwdq d)
    (k != kQrelease && (decide (x.layers ≤ At.layer d) || decide (x.heads < At.head0 d + n)
        || n == 0 || decide (16 < n)))
      || !(r.1 ++ r.2).all (fun p => decide (p.1 + p.2 ≤ 0x100000))
      || (k == kAppend && heads.any fun h => decide (x.maxTokens < x.len (At.layer d) h + At.rows d))
      || (k == kTrunc && (At.nleaves d % 16 != 0 || heads.any fun h => decide (x.len (At.layer d) h < At.nleaves d)))
      || (k == kGfinal && !At.qgrad d && (n != 1 || decide (8 < At.nleaves d)))
      || (k == kQsend && (match x.ring with
        | some g => g.sender != t || decide (g.nr ≤ 1)
        | none => true))
      || ((At.src d != 0 || grad) && (match x.ring with
        | some g => g.lbSize == 0
        | none => true))

/-- The fault of an ATTN operation, 0 for none. -/
def attnKind (t th : Nat) (w : BitVec 128) (d : List Byte) (s : State) : Nat :=
  let k := At.kind w
  let hd := s.slotHd (At.slot w)
  let fmt : Nat := (((s.slot (At.slot w)).bind s.poolOf).map (·.fmt)).getD 5
  if attnReserved w d then 2
  else if fmt ≠ 5 ∧ fmt ≠ 11 then 3
  else if attnUsesAcc k d && decide (4 < At.acc d + attnTileCount hd) then 4
  else if (s.tile t).ownedByOther th (attnTiles k d hd) then 5
  else if attnAddrBad t w d s then 6
  else 0

/-! ### The channel that uses a slot (R213) -/

/-- The running channel whose ATTN operations use a slot: the one that issued the last, or the one that holds the
ring's sender tile. -/
def State.slotChan (s : State) (x : Slot) : Option (Nat × Chan) :=
  let live (c : Option Nat) : Option (Nat × Chan) :=
    c.bind fun c => (s.chan c).bind fun y => if y.running then some (c, y) else none
  x.users.findSome? (fun c => live (some c)) <|> live (x.ring.bind fun g => (s.tile g.sender).chan)

/-- The consumer tiles of a slot, ascending. -/
def State.consumers (s : State) (x : Slot) : List Nat := ((s.slotChan x).map (·.2.tileList)).getD []


/-- Every consumer tile has released a buffer. -/
def State.releasedBy (s : State) (x : Slot) (b : Nat) : Bool :=
  (s.consumers x).all fun t => (x.buf b).released.contains t

end Sys2Proof.Machine
end

