-- ==== Sys2Proof/Machine/Attention.lean ====
section
/-! DEFINITION. The attention streamer's operations: APPEND (R201 to R203), FWD and FINAL (R204 to R207), BWD_PREP,
BWD and GFINAL (R208 to R211), QSEND, QRELEASE, LFETCH and TRUNC (R215 to R219, R223, R229), and the events of leaves
and quires (R216, R217, R221 to R227). -/

namespace Sys2Proof.Machine

/-- What an operation at the head of the streamer's queue does: it waits there, or its work is done. -/
inductive Turn where
  | waits (s : State)
  | ran (s : State)

/-! ### Blocks of keys (R204, R205) -/

/-- A key that is not beyond the source's valid length: its leaf and token in the source, its global position, its
key and its value, rounded to BF16. -/
structure Key where
  leaf : Nat
  tok : Nat
  pos : Nat
  k : List Num
  v : List Num

/-- The key and value of token j of a frame's bytes. -/
def frameKey (p : LeafPool) (bytes : List Byte) (leaf j pos : Nat) : Key :=
  let te := p.eb / 32
  let ts := p.sb / 32
  let vec (i : Nat) : List Num :=
    (decodeRun p.fmt 0 ((bytes.drop (i * te)).take te) ((bytes.drop (p.eb + i * ts)).take ts) p.hd).map bf16Of
  ⟨leaf, j, pos, vec j, vec (16 + j)⟩

namespace Qh
abbrev dir (h : List Byte) : Nat := fieldAt h 2 1
abbrev layer (h : List Byte) : Nat := fieldAt h 6 2
abbrev head0 (h : List Byte) : Nat := fieldAt h 8 1
abbrev nheads (h : List Byte) : Nat := fieldAt h 9 1
abbrev owner (h : List Byte) : Nat := fieldAt h 10 2
abbrev round (h : List Byte) : Nat := fieldAt h 12 2
abbrev nleaves (h : List Byte) : Nat := fieldAt h 20 4
abbrev valid (h : List Byte) : Nat := fieldAt h 36 4
abbrev kpos (h : List Byte) : Nat := fieldAt h 40 8
end Qh

/-- The VA of a landing buffer or of OB. -/
def Ring.bufVa (r : Ring) (b : Nat) : Nat := if b = 0 then r.lb0 else if b = 1 then r.lb1 else r.ob

/-- The index of a head's leaf in a quire, when the quire holds it. -/
def quireIdx (h : List Byte) (head leaf : Nat) : Option Nat :=
  if Qh.head0 h ≤ head ∧ head < Qh.head0 h + Qh.nheads h ∧ leaf < Qh.nleaves h then
    some ((head - Qh.head0 h) * Qh.nleaves h + leaf)
  else none

/-- A source of keys: a slot's own leaves, or the quire of a landing buffer. -/
structure KeySrc where
  slot : Nat
  pool : LeafPool
  x : Slot
  layer : Nat
  head : Nat
  /-- The landing buffer's VA and header. -/
  quire : Option (Nat × List Byte)

/-- Tokens that the source holds, and the global position of its first. -/
def KeySrc.span (k : KeySrc) : Nat × Nat :=
  match k.quire with
  | some q => (Qh.valid q.2, Qh.kpos q.2)
  | none => (k.x.len k.layer k.head, k.x.posBase)

/-- The bytes of a leaf of the source: none when the source does not hold it. -/
def KeySrc.frame (k : KeySrc) (leaf : Nat) (s : State) : Option (List Byte) × Bool × State :=
  match k.quire with
  | none =>
    if 16 * leaf < k.span.1 then
      let r := leafFrame k.pool k.x (k.x.leafIdx k.layer k.head leaf) s
      (some r.1, r.2.1, r.2.2)
    else (none, false, s)
  | some (va, h) =>
    match quireIdx h k.head leaf with
    | some i =>
      let n := Qh.nheads h * Qh.nleaves h
      let a := vaRead k.pool.part (va + i * k.pool.eb) k.pool.eb s
      let b := vaRead k.pool.part (va + n * k.pool.eb + i * k.pool.sb) k.pool.sb a.2.2
      (some (a.1 ++ b.1), a.2.1 || b.2.1, b.2.2)
    | none => (none, false, s)

/-- The keys of the leaves [first, first + n), sixteen a leaf. -/
def KeySrc.keys (k : KeySrc) (first n : Nat) (s : State) : List (Option Key) × Bool × State :=
  (List.range n).foldl (fun (a : List (Option Key) × Bool × State) i =>
    let leaf := first + i
    let r := k.frame leaf a.2.2
    let new := (List.range 16).map fun j =>
      match r.1 with
      | some b => if 16 * leaf + j < k.span.1 then some (frameKey k.pool b leaf j (k.span.2 + 16 * leaf + j)) else none
      | none => none
    (a.1 ++ new, a.2.1 || r.2.1, r.2.2)) ([], false, s)

/-- Blocks of 128 keys. -/
def keyBlocks (ks : List (Option Key)) : List (List (Option Key)) :=
  (List.range ((ks.length + 127) / 128)).map fun i => (ks.drop (128 * i)).take 128

/-- The position of query row r (R198). -/
def rowPos (d : List Byte) (r : Nat) : Nat := At.qpos d + r / 2 ^ At.qlog d

/-- A key is not masked for row r (R205). -/
def unmasked (d : List Byte) (r : Nat) (k : Key) : Bool :=
  !(At.causal d && decide (rowPos d r < k.pos))
    && !(At.window d != 0 && decide (k.pos + At.window d ≤ rowPos d r))

/-- The keys of a block as a row sees them: none where masked. -/
def rowKeys (d : List Byte) (r : Nat) (b : List (Option Key)) : List (Option Key) :=
  b.map fun o => o.bind fun k => if unmasked d r k then some k else none

/-- A block whose keys are masked for every row. -/
def blockSkipped (d : List Byte) (b : List (Option Key)) : Bool :=
  (List.range (At.rows d)).all fun r => (rowKeys d r b).all (·.isNone)

/-- A dot product from a starting value (R69). -/
def dot (acc : BitVec 32) (a b : List Num) : BitVec 32 := dotAccumulate ((a.length + 31) / 32) acc a b

/-- Zero. -/
abbrev num0 : Num := .fin false 0 0

/-- −Infinity. -/
abbrev negInf32 : BitVec 32 := 0xFF800000

/-! ### Accumulators and row registers -/

/-- The key of element d of row r from accumulator tile `acc` on. -/
def outKey (acc r d : Nat) : Nat := 16384 * (acc + d / 128) + 128 * r + d % 128

/-- A row of hd values. -/
def outRow (m : SMap (BitVec 32)) (acc r hd : Nat) : List (BitVec 32) :=
  (List.range hd).map fun d => SMap.getD m (outKey acc r d) 0

/-- Write a row. -/
def putRow (m : SMap (BitVec 32)) (acc r : Nat) (xs : List (BitVec 32)) : SMap (BitVec 32) :=
  ((List.range xs.length).zip xs).foldl (fun m p => SMap.setD m 0 (outKey acc r p.1) p.2) m

/-- The rotated queries of an operation, rounded to BF16 (R204). -/
def queries (x : Slot) (rope : List Byte) (m : Mem) (d : List Byte) (hd : Nat) : List (List Num) :=
  (List.range (At.rows d)).map fun r =>
    (rotate false x.halfSplit x.rotDims rope (rowPos d r)
      (readRow m (At.wideIn d) (At.addr0 d + At.stride0 d * r) hd)).map fun v => bf16Of (val32 v)

/-! ### FWD and FINAL (R206, R207) -/

/-- The state of one row: maximum, sum and output. -/
structure SoftRow where
  m : BitVec 32
  l : BitVec 32
  o : List (BitVec 32)

/-- The scaled score of a row and a key (R204). -/
def scaledScore (d : List Byte) (q : List Num) (k : Key) : BitVec 32 := (mul32 (dot 0 q k.k) (At.scale d)).1

/-- Fold a block into a row (R206). -/
def foldRow (d : List Byte) (q : List Num) (ks : List (Option Key)) (x : SoftRow) : SoftRow :=
  let ts := ks.map fun o => o.map (scaledScore d q)
  let live := ts.filterMap id
  match live with
  | [] => x
  | t :: rest =>
    let m2 := max32 x.m (rest.foldl max32 t)
    let alpha := if x.m = negInf32 then 0 else (exp232 (sub32 x.m m2).1).1
    let p := ts.map fun o => match o with
      | some t => (exp232 (sub32 t m2).1).1
      | none => 0
    let l := (round32NV [] (numSum (numMul (val32 x.l) (val32 alpha)) (p.map val32))).1
    let pb := p.map fun v => bf16Of (val32 v)
    let o := ((List.range x.o.length).zip x.o).map fun e =>
      dot (mul32 e.2 alpha).1 pb (ks.map fun k => match k with
        | some k => k.v.getD e.1 num0
        | none => num0)
    ⟨m2, l, o⟩

/-- Bad data that an operation met is reported, and nothing is written (R366). -/
def attnBad (t : Nat) (w : BitVec 128) (s : State) : State :=
  badData (tileRecord 0x03 St.poison t (At.slot w) s) [] s

/-- The words of accumulator tiles. -/
def accRanges (l : List Nat) : List (Nat × Nat) :=
  l.map fun a => (16384 * a, 16384)

/-- The words of accumulator tiles and the row registers that an operation reads. -/
def attnReads (k : Nat) (d : List Byte) : List (Nat × Nat) :=
  let regs := if k = kFwd then (if At.first d then [] else [At.vm d, At.vl d])
    else if k = kFinal then [At.vm d, At.vl d]
    else if k = kBwd then [At.vm d, At.vl d, At.vd d]
    else []
  regs.map fun n => (0x140000 + 512 * n, 4 * At.rows d)

/-- Read what an operation reads of its tile: the tile and accumulators as read, or the state in which the error
has been reported. -/
def attnTile (t th : Nat) (w : BitVec 128) (d : List Byte) (hd : Nat) (s : State) :
    Option (Tile × SMap (BitVec 32)) × State :=
  let k := At.kind w
  let x := sramRead t ((attnRanges k d hd).1 ++ attnReads k d) s
  if x.1 != .good then (none, reportFound t th false x.1 x.2.2)
  else
    let y := accRead t (if k = kFwd && At.first d then [] else accRanges (attnTiles k d hd)) x.2.2
    if y.1 != .good then (none, reportFound t th true y.1 y.2.2)
    else (some (x.2.1, y.2.1), y.2.2)

/-- The source of FWD and BWD: none when the landing buffer holds no quire (60). -/
def keySrc (w : BitVec 128) (d : List Byte) (x : Slot) (p : LeafPool) : Option KeySrc :=
  let k : KeySrc := ⟨At.slot w, p, x, At.layer d, At.head0 d, none⟩
  if At.src d = 0 then some k
  else match (x.buf (bufOf (At.src d))).header, x.ring with
    | some h, some r => some { k with quire := some (r.bufVa (bufOf (At.src d)), h) }
    | _, _ => none

/-- Local leaves that an operation names. -/
def namedLeaves (d : List Byte) (x : Slot) (heads : List Nat) : List Nat :=
  if At.src d ≠ 0 then []
  else heads.flatMap fun h =>
    ((List.range (At.nleaves d)).filter fun i => decide (16 * (At.firstLeaf d + i) < x.len (At.layer d) h)).map
      fun i => x.leafIdx (At.layer d) h (At.firstLeaf d + i)

/-- FWD. -/
def runFwd (t th : Nat) (w : BitVec 128) (d : List Byte) (s : State) : Turn :=
  let q := At.slot w
  match s.slot q, (s.slot q).bind s.poolOf with
  | some x, some p =>
    match keySrc w d x p with
    | none => .waits s
    | some src =>
      let named := namedLeaves d x [At.head0 d]
      let n := readLeaves t q named s
      if !n.1 then .waits n.2
      else
        let g := attnTile t th w d p.hd n.2
        match g.1 with
        | none => .ran g.2
        | some (tile, acc) =>
          let rope := readRope x p.part g.2
          let ks := src.keys (At.firstLeaf d) (At.nleaves d) rope.2.2
          if rope.2.1 || ks.2.1 then .ran (attnBad t w ks.2.2)
          else
            let qs := queries x rope.1 tile.scratch d p.hd
            let blocks := keyBlocks ks.1
            let skips := (blocks.filter (blockSkipped d)).length
            let rows := ((List.range (At.rows d)).zip qs).map fun e =>
              let x0 : SoftRow := if At.first d then ⟨negInf32, 0, List.replicate p.hd 0⟩
                else ⟨tile.vlane (At.vm d) e.1, tile.vlane (At.vl d) e.1, outRow acc (At.acc d) e.1 p.hd⟩
              blocks.foldl (fun x b => foldRow d e.2 (rowKeys d e.1 b) x) x0
            let idx := (List.range rows.length).zip rows
            let s := ks.2.2.modTile t fun y =>
              { ((y.setLanes (At.vm d) (idx.map fun e => (e.1, e.2.m))).setLanes (At.vl d)
                  (idx.map fun e => (e.1, e.2.l))) with
                acc := idx.foldl (fun m e => putRow m (At.acc d) e.1 e.2.o) y.acc }
            .ran ((touchLeaves q named s).leafCtr fun c => if skips = 0 then c else Ctrs.sat c 11 skips)
  | _, _ => .ran s

/-- FINAL. -/
def runFinal (t th : Nat) (w : BitVec 128) (d : List Byte) (s : State) : Turn :=
  let hd := s.slotHd (At.slot w)
  let g := attnTile t th w d hd s
  match g.1 with
  | none => .ran g.2
  | some (tile, acc) =>
    .ran ((List.range (At.rows d)).foldl (fun s r =>
      let l := tile.vlane (At.vl d) r
      let empty := l == 0
      let rho := if empty then 0 else (div32 0x3F800000 l).1
      let mu := if empty then 0 else tile.vlane (At.vm d) r
      let out := (outRow acc (At.acc d) r hd).map fun o => if empty then 0 else (mul32 o rho).1
      let s := landScratch t (At.addr0 d + At.stride0 d * r) (rowBytes (At.wideOut d) out) (fun _ => false) s
      let s := landScratch t (At.addr1 d + 8 * r) (natLe 4 mu.toNat ++ natLe 4 rho.toNat) (fun _ => false) s
      s.modTile t fun y => (y.setLanes (At.vm d) [(r, mu)]).setLanes (At.vl d) [(r, rho)]) g.2)

/-! ### BWD_PREP and BWD (R208 to R210) -/

/-- BWD_PREP. -/
def runPrep (t th : Nat) (w : BitVec 128) (d : List Byte) (s : State) : Turn :=
  let hd := s.slotHd (At.slot w)
  let g := attnTile t th w d hd s
  match g.1 with
  | none => .ran g.2
  | some (tile, _) =>
    let row (a st r : Nat) : List Num := (readRow tile.scratch (At.wideIn d) (a + st * r) hd).map val32
    .ran (g.2.modTile t fun y => y.setLanes (At.vd d) ((List.range (At.rows d)).map fun r =>
      (r, (round32NV [] (numSum num0 (List.zipWith numMul (row (At.addr0 d) (At.stride0 d) r)
        (row (At.addr1 d) (At.stride1 d) r)))).1)))

/-- The key of an element of OB's gradient section: value or key gradient, head, leaf, token, dimension (51). -/
def obKey (isV : Bool) (head leaf tok dim : Nat) : Nat :=
  (((head * 2 ^ 18 + leaf) * 2 + isV.toNat) * 16 + tok) * 256 + dim

/-- The VA of token `tok` of a leaf in the gradient section of a landing buffer (R214). -/
def sectionVa (p : LeafPool) (va : Nat) (h : List Byte) (isV : Bool) (i tok : Nat) : Nat :=
  let n := Qh.nheads h * Qh.nleaves h
  va + (if Qh.dir h = 2 then 0 else n * (p.eb + p.sb)) + (if isV then n * 64 * p.hd else 0)
    + (i * 16 + tok) * 4 * p.hd

/-- The gradient of one token in a source's section: its values, whether they came marked bad, the state. -/
def sectionRead (k : KeySrc) (isV : Bool) (leaf tok : Nat) (s : State) : List (BitVec 32) × Bool × State :=
  match k.quire with
  | none =>
    ((List.range k.pool.hd).map fun d =>
      SMap.getD (((s.slot k.slot).map (·.ob)).getD []) (obKey isV k.head leaf tok d) 0, false, s)
  | some (va, h) =>
    match quireIdx h k.head leaf with
    | some i =>
      let r := vaRead k.pool.part (sectionVa k.pool va h isV i tok) (4 * k.pool.hd) s
      ((List.range k.pool.hd).map fun d => BitVec.ofNat 32 (fieldAt r.1 (4 * d) 4), r.2.1, r.2.2)
    | none => (List.replicate k.pool.hd 0, false, s)

/-- Write it. -/
def sectionWrite (k : KeySrc) (isV : Bool) (leaf tok : Nat) (xs : List (BitVec 32)) (s : State) : State :=
  match k.quire with
  | none => s.modSlot k.slot fun x => { x with
      ob := ((List.range xs.length).zip xs).foldl (fun m e => SMap.setD m 0 (obKey isV k.head leaf tok e.1) e.2) x.ob }
  | some (va, h) =>
    match quireIdx h k.head leaf with
    | some i => vaWrite k.pool.part (sectionVa k.pool va h isV i tok) (xs.flatMap fun x => natLe 4 x.toNat) s
    | none => s

/-- What an operation has done so far: whether a read met bad data, from which on it writes nothing (R93, R366). -/
abbrev Halting := Bool × State

/-- Go on with an operation unless a read met bad data. -/
def Halting.andThen (a : Halting) (f : State → Halting) : Halting := if a.1 then a else f a.2

/-- Add a token's contribution to the section, each element with one rounding (R209). -/
def sectionAdd (t : Nat) (w : BitVec 128) (k : KeySrc) (isV : Bool) (leaf tok : Nat) (c : List (BitVec 32)) (s : State) :
    Halting :=
  let r := sectionRead k isV leaf tok s
  if r.2.1 then (true, attnBad t w r.2.2)
  else (false, sectionWrite k isV leaf tok (List.zipWith (fun a b => (add32 a b).1) r.1 c) r.2.2)

/-- p and dS of one row and key (R209); none when masked. -/
def gradPair (d : List Byte) (mu rho dd : BitVec 32) (q dO : List Num) (k : Key) : BitVec 32 × BitVec 32 :=
  let t := scaledScore d q k
  let p := (mul32 (exp232 (sub32 t mu).1).1 rho).1
  let dp := dot 0 dO k.v
  (p, (mul332 p (sub32 dp dd).1 (At.gscale d)).1)

/-- The column sums of a block: Σ over rows of a coefficient and a row vector, from +0, for one key. -/
def colDot (cs : List Num) (rows : List (List Num)) (hd : Nat) : List (BitVec 32) :=
  (List.range hd).map fun i => dot 0 cs (rows.map fun r => r.getD i num0)

/-- A row of dQ after a block: each key that is not masked adds its part, and a row with none keeps its values
(R205, R209). -/
def bwdRow (ks : List (Option (Key × BitVec 32 × BitVec 32))) (old : List (BitVec 32)) : List (BitVec 32) :=
  if ks.all (·.isNone) then old
  else
    let ds := ks.map fun o => (o.map fun g => bf16Of (val32 g.2.2)).getD num0
    ((List.range old.length).zip old).map fun a =>
      dot a.2 ds (ks.map fun o => (o.map fun g => g.1.k.getD a.1 num0).getD num0)

/-- A key's contribution to its gradient: over the rows for which it is not masked, a coefficient by the row's vector
(R205, R209). -/
def bwdCol (hd : Nat) (rows : List (Option (BitVec 32) × List Num)) : List (BitVec 32) :=
  colDot (rows.map fun r => (r.1.map fun v => bf16Of (val32 v)).getD num0)
    (rows.map fun r => if r.1.isSome then r.2 else []) hd

/-- One block of BWD: dQ accumulates, and each key's contributions are added. -/
def bwdBlock (t : Nat) (w : BitVec 128) (d : List Byte) (k : KeySrc) (tile : Tile) (qs dOs : List (List Num))
    (b : List (Option Key)) (s : State) : Halting :=
  if blockSkipped d b then (false, s.leafCtr fun c => Ctrs.sat c 11 1)
  else
    let rows := ((List.range (At.rows d)).zip (qs.zip dOs)).map fun e =>
      (rowKeys d e.1 b).map fun o => o.map fun y =>
        (y, gradPair d (tile.vlane (At.vm d) e.1) (tile.vlane (At.vl d) e.1) (tile.vlane (At.vd d) e.1) e.2.1 e.2.2 y)
    let s := s.modTile t fun y => { y with
      acc := ((List.range rows.length).zip rows).foldl (fun m e =>
        putRow m (At.acc d) e.1 (bwdRow e.2 (outRow m (At.acc d) e.1 k.pool.hd))) y.acc }
    ((List.range b.length).zip b).foldl (fun (a : Halting) e =>
      match e.2 with
      | none => a
      | some y =>
        let col (f : BitVec 32 × BitVec 32 → BitVec 32) : List (Option (BitVec 32)) :=
          rows.map fun r => ((r[e.1]?).bind id).map fun g => f g.2
        if (col (·.1)).all (·.isNone) then a
        else
          (a.andThen (sectionAdd t w k false y.leaf y.tok (bwdCol k.pool.hd ((col (·.2)).zip qs)))).andThen
            (sectionAdd t w k true y.leaf y.tok (bwdCol k.pool.hd ((col (·.1)).zip dOs)))) (false, s)

/-- Every lower-numbered consumer tile has released the buffer (R210). -/
def State.turnOf (s : State) (x : Slot) (b t : Nat) : Bool :=
  ((s.consumers x).filter (· < t)).all fun u => (x.buf b).released.contains u

/-- BWD. -/
def runBwd (t th : Nat) (w : BitVec 128) (d : List Byte) (s : State) : Turn :=
  let q := At.slot w
  match s.slot q, (s.slot q).bind s.poolOf with
  | some x, some p =>
    match keySrc w d x p with
    | none => .waits s
    | some src =>
      let named := namedLeaves d x [At.head0 d]
      let n := readLeaves t q named s
      if !n.1 then .waits n.2
      else if !s.turnOf x (bufOf (At.src d)) t then .waits (n.2.leafCtr fun c => Ctrs.sat c 12 1)
      else
        let g := attnTile t th w d p.hd n.2
        match g.1 with
        | none => .ran g.2
        | some (tile, _) =>
          let rope := readRope x p.part g.2
          let ks := src.keys (At.firstLeaf d) (At.nleaves d) rope.2.2
          if rope.2.1 || ks.2.1 then .ran (attnBad t w ks.2.2)
          else
            let qs := queries x rope.1 tile.scratch d p.hd
            let dOs := (List.range (At.rows d)).map fun r =>
              (readRow tile.scratch (At.wideIn d) (At.addr1 d + At.stride1 d * r) p.hd).map fun v => bf16Of (val32 v)
            let a := (keyBlocks ks.1).foldl (fun (a : Halting) b => a.andThen (bwdBlock t w d src tile qs dOs b))
              (false, ks.2.2)
            .ran (touchLeaves q named a.2)
  | _, _ => .ran s

/-! ### GFINAL (R211) -/

/-- GFINAL. -/
def runGfinal (t th : Nat) (w : BitVec 128) (d : List Byte) (s : State) : Turn :=
  let q := At.slot w
  match s.slot q, (s.slot q).bind s.poolOf with
  | some x, some p =>
    let g := attnTile t th w d p.hd s
    match g.1 with
    | none => .ran g.2
    | some (_, acc) =>
      let rope := readRope x p.part g.2
      let unrotate (pos : Nat) (v : List (BitVec 32)) := rotate true x.halfSplit x.rotDims rope.1 pos v
      let put (a st r : Nat) (v : List (BitVec 32)) (s : State) : State :=
        landScratch t (a + st * r) (rowBytes (At.wideOut d) v) (fun _ => false) s
      if rope.2.1 then .ran (attnBad t w rope.2.2)
      else if At.qgrad d then
        .ran ((List.range (At.rows d)).foldl (fun s r =>
          put (At.addr0 d) (At.stride0 d) r (unrotate (rowPos d r) (outRow acc (At.acc d) r p.hd)) s) rope.2.2)
      else
        match keySrc w d x p with
        | none => .waits s
        | some src =>
          let row (isV : Bool) (i : Nat) (land : List (BitVec 32) → State → State) (s : State) : Halting :=
            let r := sectionRead src isV (At.firstLeaf d + i / 16) (i % 16) s
            if r.2.1 then (true, attnBad t w r.2.2) else (false, land r.1 r.2.2)
          .ran ((List.range (16 * At.nleaves d)).foldl (fun (a : Halting) i =>
            (a.andThen (row false i fun v =>
              put (At.addr0 d) (At.stride0 d) i (unrotate (src.span.2 + 16 * At.firstLeaf d + i) v))).andThen
              (row true i (put (At.addr1 d) (At.stride1 d) i))) (false, rope.2.2)).2
  | _, _ => .ran s

/-! ### APPEND (R201 to R203, R226) -/

/-- Encode a vector of hd values as a leaf does: element bytes, scale bytes, flags, and blocks with scale 0xFF. -/
def leafEncode (fmt : Nat) (xs : List (BitVec 32)) : List Byte × List Byte × Flags × Nat :=
  let gs := (laneGroups (blockLen fmt) (xs.map val32)).map fun g => blockEncode fmt (fun _ => .rne) g
  (packElems (elemBits fmt) (gs.flatMap (·.2.1)), gs.flatMap (fun g => natLe (scaleBytes fmt) g.1),
    allFlags (gs.map (·.2.2)), (gs.filter (·.2.2.nb)).length)

/-- New leaves that an append of n tokens takes in a track of a length. -/
def newLeaves (len n : Nat) : Nat := (len + n + 15) / 16 - (len + 15) / 16

/-- Give leaf i of the table a new frame (R201 step 3); a RETIRING leaf at that index is kept aside (53). -/
def takeLeaf (q i : Nat) (s : State) : State :=
  match s.slot q, (s.slot q).bind s.poolOf with
  | some x, some p =>
    match p.freeFrame with
    | none => s
    | some f =>
      let old := x.leaf i
      let s := if old.state = 3 then s.modLeaf q (retiredKey i) fun _ => old else s
      let s := s.modPool x.pool fun p => { p with used := NSet.insert p.used f }
      (s.modLeaf q i fun _ => { Leaf.free with frame := f, tier := 1, state := 1 }).leafCtr fun c => Ctrs.sat c 0 1
  | _, _ => s

/-- The far copy of a leaf that is written is stale and is released. -/
def dropCopy (q i : Nat) (s : State) : State :=
  match (s.slot q).bind fun x => (x.leaf i).far with
  | some _ => s.modLeaf q i fun l => { l with far := none, farcopy := false }
  | none => s

/-- Append one token to a track: its key and its value. -/
def appendToken (th t q layer head : Nat) (rope : List Byte) (k v : List (BitVec 32)) (s : State) : State :=
  match s.slot q, (s.slot q).bind s.poolOf with
  | some x, some p =>
    let n := x.len layer head
    let i := x.leafIdx layer head (n / 16)
    let j := n % 16
    let s := dropCopy q i (if j = 0 then takeLeaf q i s else s)
    let f := (((s.slot q).map fun x => x.leaf i).getD Leaf.free).frame
    let rk := rotateFlags false x.halfSplit x.rotDims rope (x.posBase + n) k
    let ek := leafEncode p.fmt (rk.map (·.1))
    let ev := leafEncode p.fmt v
    let te := p.eb / 32
    let ts := p.sb / 32
    let put (at_ : Nat) (b : List Byte) (s : State) : State := vaWriteMarks p.part at_ b [] s
    let s := put (p.elemBase + f * p.eb + j * te) ek.1 s
    let s := put (p.elemBase + f * p.eb + (16 + j) * te) ev.1 s
    let s := put (p.scaleBase + f * p.sb + j * ts) ek.2.1 s
    let s := put (p.scaleBase + f * p.sb + (16 + j) * ts) ev.2.1 s
    let s := s.modLeaf q i fun l => { l with fill := j + 1, state := if j = 15 then 2 else 1, lastUse := s.useStep }
    let s := s.modSlot q fun x => { x with lens := SMap.setD x.lens 0 (x.track layer head) (n + 1) }
    let flags := allFlags (ek.2.2.1 :: ev.2.2.1 :: rk.map (·.2))
    countNb (ek.2.2.2 + ev.2.2.2) (modTh t th (fun h => h.raise flags) s)
  | _, _ => s

/-- The first head of an append that lacks a frame, when `free` frames can be taken (R202). -/
def firstShort (x : Slot) (layer n : Nat) : List Nat → Nat → Option Nat
  | [], _ => none
  | h :: hs, free =>
    let k := newLeaves (x.len layer h) n
    if free < k then some h else firstShort x layer n hs (free - k)

/-- APPEND: last leaves that are in another tier, as a replay may leave them, come back first (R230). -/
def runAppend (t th : Nat) (w : BitVec 128) (d : List Byte) (s : State) : Turn :=
  let q := At.slot w
  match s.slot q, (s.slot q).bind s.poolOf with
  | some x, some p =>
    let layer := At.layer d
    let heads := (List.range (At.nheads d)).map (· + At.head0 d)
    let lasts := (heads.filter fun h => x.len layer h % 16 != 0).map fun h => x.leafIdx layer h (x.len layer h / 16)
    let n := needLeaves q lasts s
    match firstShort x layer (At.rows d) heads p.freeCount with
    | some h =>
      if (SMap.lookup x.stalls t).isSome then .waits n.2
      else .waits ((n.2.modSlot q fun y => { y with
        stalls := SMap.put y.stalls t (s.spine.tick, layer, h, x.len layer h) }).leafCtr fun c => Ctrs.sat c 1 1)
    | none =>
    if !n.1.isEmpty then .waits n.2
    else
      let g := attnTile t th w d p.hd n.2
      match g.1 with
      | none => .ran g.2
      | some (tile, _) =>
        let rope := readRope x p.part g.2
        if rope.2.1 then .ran (attnBad t w rope.2.2)
        else
          let row (a st r : Nat) := readRow tile.scratch (At.wideIn d) (a + st * r) p.hd
          let s := heads.foldl (fun s h => (List.range (At.rows d)).foldl (fun s n =>
            let r := n * At.nheads d + (h - At.head0 d)
            appendToken th t q layer h rope.1 (row (At.addr0 d) (At.stride0 d) r) (row (At.addr1 d) (At.stride1 d) r) s) s) rope.2.2
          .ran (s.modSlot q fun x => { x with stalls := SMap.del x.stalls t })
  | _, _ => .ran s

/-! ### QSEND, QRELEASE, LFETCH and TRUNC -/

/-- Send a quire's bytes to a position, cut into packets and striped over its links. Class 0x4 has no CLASS_WORD in
the spec (28). -/
def sendQuire (pos : Nat) (bytes : List Byte) (s : State) : State :=
  let ls := s.linkSet pos
  (List.range ((bytes.length + 65519) / 65520)).foldl (fun s n =>
    match ls[n % ls.length]? with
    | some l =>
      let d := s.draw
      let b := (bytes.drop (65520 * n)).take 65520
      sendOn l ⟨4, 2, s.myPos, pos, (List.range 8).map (Config.freeByte d.1), padTo (roundUp b.length 16) b⟩ d.2
    | none => s) s

/-- The header of a quire (R214). -/
def quireHeader (dir fmt hdCode ring layer head0 nheads owner round first nleaves step epoch valid kpos : Nat) : List Byte :=
  natLe 2 0x5157 ++ natLe 1 dir ++ natLe 1 (fmt + 16 * hdCode) ++ natLe 2 ring ++ natLe 2 layer ++ natLe 1 head0
    ++ natLe 1 nheads ++ natLe 2 owner ++ natLe 2 round ++ natLe 2 0 ++ natLe 4 first ++ natLe 4 nleaves
    ++ natLe 8 step ++ natLe 4 epoch ++ natLe 4 valid ++ natLe 8 kpos ++ natLe 16 0

/-- The frames of local leaves: elements, then scales. -/
def leavesBytes (p : LeafPool) (x : Slot) (is : List Nat) (s : State) : List Byte × Bool × State :=
  let r := is.foldl (fun (a : List Byte × List Byte × Bool × State) i =>
    let f := leafFrame p x i a.2.2.2
    (a.1 ++ f.1.take p.eb, a.2.1 ++ f.1.drop p.eb, a.2.2.1 || f.2.1, f.2.2)) ([], [], false, s)
  (r.1 ++ r.2.1, r.2.2.1, r.2.2.2)

/-- OB's gradient sections for the named leaves: dK, then dV. -/
def obBytes (x : Slot) (hd : Nat) (heads leaves : List Nat) : List Byte :=
  [false, true].flatMap fun v => heads.flatMap fun h => leaves.flatMap fun l => (List.range (16 * hd)).flatMap fun e =>
    natLe 4 (SMap.getD x.ob (obKey v h l (e / hd) (e % hd)) 0).toNat

/-- The quire that a QSEND sends, header and payload, and whether some of it came marked bad: from local leaves, or
the one that a landing buffer holds (57). None when it cannot be formed yet. -/
def quireOf (d : List Byte) (x : Slot) (p : LeafPool) (g : Ring) (s : State) : Option (List Byte × Bool × State) :=
  let dir := if At.gradOnly d then 2 else if At.bwdq d then 1 else 0
  if At.src d = 0 then
    let heads := (List.range (At.nheads d)).map (· + At.head0 d)
    let leaves := (List.range (At.nleaves d)).map (· + At.firstLeaf d)
    let exist := heads.all fun h => leaves.all fun l => decide (16 * l < x.len (At.layer d) h)
    if !exist then none
    else
      let valid := (heads.map fun h => min (16 * At.nleaves d) (x.len (At.layer d) h - 16 * At.firstLeaf d)).foldl min (16 * At.nleaves d)
      let h := quireHeader dir p.fmt p.hdCode g.ringId (At.layer d) (At.head0 d) (At.nheads d) g.pos 1 (At.firstLeaf d)
        (At.nleaves d) s.spine.step s.cle.epoch valid (x.posBase + 16 * At.firstLeaf d)
      let b := if dir = 2 then ([], false, s)
        else leavesBytes p x (heads.flatMap fun h => leaves.map fun l => x.leafIdx (At.layer d) h l) s
      some (h ++ b.1 ++ (if dir = 0 then [] else obBytes x p.hd heads leaves), b.2.1, b.2.2)
  else
    let b := bufOf (At.src d)
    (x.buf b).header.map fun h =>
      let n := Qh.nheads h * Qh.nleaves h
      let plain := n * (p.eb + p.sb)
      let grads := n * 128 * p.hd
      let from_ := if dir = 2 ∧ Qh.dir h = 1 then plain else 0
      let len := (if dir = 2 then 0 else plain) + (if dir = 0 then 0 else grads)
      let r := vaRead p.part (g.bufVa b + from_) len s
      (splice (splice h 2 (natLe 1 dir)) 12 (natLe 2 (Qh.round h + 1)) ++ r.1, r.2.1, r.2.2)

/-- QSEND (R215, R217 to R219). -/
def runQsend (t : Nat) (w : BitVec 128) (d : List Byte) (s : State) : Turn :=
  let q := At.slot w
  match s.slot q, (s.slot q).bind s.poolOf, (s.slot q).bind (·.ring) with
  | some x, some p, some g =>
    let b := bufOf (At.src d)
    let back := At.bwdq d || At.gradOnly d
    let heads := (List.range (At.nheads d)).map (· + At.head0 d)
    let named := namedLeaves d x heads
    let n := readLeaves t q named s
    if !n.1 then .waits n.2
    else if back && !s.releasedBy x b then .waits n.2
    else if !x.credits.contains (x.sent % 2) then .waits (n.2.leafCtr fun c => Ctrs.sat c 10 1)
    else match quireOf d x p g n.2 with
      | none => .waits n.2
      | some (bytes, bad, s) =>
        let s := s.modSlot q fun x => x.modBuf b QBuf.unsend
        if bad then .ran (attnBad t w s)
        else
          let s := sendQuire g.next bytes (touchLeaves q named s)
          let s := s.modSlot q fun x => x.modBuf b fun y => { y with left := true }
          .ran ((s.modSlot q fun x => { x with credits := NSet.erase x.credits (x.sent % 2), sent := x.sent + 1 }).leafCtr
            fun c => Ctrs.sat c 8 1)
  | _, _, _ => .ran s

/-- QRELEASE. -/
def runQrelease (t : Nat) (w : BitVec 128) (d : List Byte) (s : State) : Turn :=
  .ran (s.modSlot (At.slot w) fun x => x.modBuf (bufOf (At.src d)) fun b => { b with released := NSet.insert b.released t })

/-- LFETCH: complete when every named leaf is local. -/
def runLfetch (w : BitVec 128) (d : List Byte) (s : State) : Turn :=
  let q := At.slot w
  match s.slot q with
  | none => .ran s
  | some x =>
    let n := needLeaves q (namedLeaves d x ((List.range (At.nheads d)).map (· + At.head0 d))) s
    if n.1.isEmpty then .ran n.2 else .waits n.2

/-- Truncate a track (R229). -/
def truncTrack (q layer head n : Nat) (s : State) : State :=
  match s.slot q with
  | none => s
  | some x =>
    let tr := x.track layer head
    let clen := SMap.getD x.clens tr 0
    let s := (x.leaves.filter fun l =>
        decide (l.1 < retiredKey 0 ∧ l.1 / x.perTrack = tr ∧ n ≤ 16 * (l.1 % x.perTrack)) && l.2.state != 0).foldl (fun s l =>
      if clen ≤ 16 * (l.1 % x.perTrack) ∨ (SMap.lookup x.leaves (retiredKey l.1)).isSome then
        if l.2.state = 3 then s else freeLeaf q l.1 s
      else s.modLeaf q l.1 fun l => { l with state := 3 }) s
    s.modSlot q fun x => { x with lens := SMap.setD x.lens 0 tr n }

/-- A read of a track's leaves is in flight: an operation of some tile's streamer waits for leaves of it. -/
def State.trackRead (s : State) (q layer head : Nat) : Bool :=
  s.tiles.any fun t => t.2.leafWaits.isSome &&
    match t.2.queue 2 with
    | e :: _ =>
      let d := Mem.readN t.2.scratch e.base.toNat 64
      let n := if At.kind e.word = kQsend then At.nheads d else 1
      At.slot e.word == q && At.layer d == layer && decide (At.head0 d ≤ head ∧ head < At.head0 d + n)
    | [] => false

/-- TRUNC: it waits for reads of its tracks that are in flight (R229). -/
def runTrunc (w : BitVec 128) (d : List Byte) (s : State) : Turn :=
  let heads := (List.range (At.nheads d)).map (· + At.head0 d)
  if heads.any fun h => s.trackRead (At.slot w) (At.layer d) h then .waits s
  else .ran (heads.foldl (fun s h => truncTrack (At.slot w) (At.layer d) h (At.nleaves d) s) s)

/-! ### The streamer's queue (R199) -/

/-- Run a checked operation. -/
def runAttn (t th : Nat) (w : BitVec 128) (d : List Byte) (s : State) : Turn :=
  match At.kind w with
  | 1 => runAppend t th w d s
  | 2 => runFwd t th w d s
  | 3 => runFinal t th w d s
  | 4 => runPrep t th w d s
  | 5 => runBwd t th w d s
  | 6 => runGfinal t th w d s
  | 7 => runQsend t w d s
  | 8 => runQrelease t w d s
  | 9 => runLfetch w d s
  | _ => runTrunc w d s

/-- Bytes of the payload of a quire (R214). -/
def quireLen (p : LeafPool) (h : List Byte) : Nat :=
  let n := Qh.nheads h * Qh.nleaves h
  (if Qh.dir h = 2 then 0 else n * (p.eb + p.sb)) + (if Qh.dir h = 0 then 0 else n * 128 * p.hd)

/-- The virtual ranges that an operation reads, or writes (true), beside its leaves' frames: the rotary table, and the
quire of a landing buffer. -/
def attnVas (k : Nat) (d : List Byte) (x : Slot) (p : LeafPool) : List (Nat × Nat × Bool) :=
  (if x.rotDims != 0 && [kAppend, kFwd, kBwd, kGfinal].contains k then [(x.ropeTable, 4 * x.rotDims, false)] else [])
  ++ if At.src d = 0 ∨ k = kQrelease then []
    else match (x.buf (bufOf (At.src d))).header, x.ring with
      | some h, some g => [(g.bufVa (bufOf (At.src d)), quireLen p h, k == kBwd)]
      | _, _ => []

/-- What holds up the virtual ranges of an operation, if anything does. -/
def attnPages (t : Nat) (w : BitVec 128) (d : List Byte) (s : State) : Option (Nat × Nat) × State :=
  match s.slot (At.slot w), (s.slot (At.slot w)).bind s.poolOf with
  | some x, some p =>
    let mine := ownPage (SMap.lookup (s.tile t).lateLines 16)
    (attnVas (At.kind w) d x p).foldl (fun (a : Option (Nat × Nat) × State) v =>
      if a.1.isSome then a else vaReady mine p.part v.1 v.2.1 v.2.2 a.2) (none, s)
  | _, _ => (none, s)

/-- Start a checked operation once the pages that it needs can be accessed (R332). -/
def tryAttn (t th : Nat) (w : BitVec 128) (d : List Byte) (s : State) : Turn :=
  match attnPages t w d s with
  | (some c, s) => .waits (s.modTile t fun x => { x with lateLines := SMap.put x.lateLines 16 c })
  | (none, s) => runAttn t th w d (if (s.tile t).leafWaits.isSome then s else endStreamWait t s)

/-- The operation at the head of a tile's streamer queue starts when it can. FWD and BWD wait for the matrix
instructions issued before them. A fault, or a descriptor that cannot be read, ends it: nothing of its buffer remains
held (R200). -/
def headAttn (t : Nat) (s : State) : State :=
  match (s.tile t).queue 2 with
  | [] => s
  | q :: _ =>
    let k := At.kind q.word
    if q.ran || ((k == kFwd || k == kBwd) && ((s.tile t).queue 0).any fun m => decide (m.id < q.id)) then s
    else
      let a := q.base.toNat
      let f := sramRead t [(a, 64)] s
      let d := Mem.readN f.2.1.scratch a 64
      let fin (s : State) : State := (endStreamWait t s).modTile t fun x => x.ranHead 2 []
      let drop (s : State) : State :=
        if k = kQsend then s.modSlot (At.slot q.word) fun x => x.modBuf (bufOf (At.src d)) QBuf.unsend else s
      if f.1 != .good then fin (drop (reportFound t q.th false f.1 f.2.2))
      else
        let e := attnKind t q.th q.word d s
        if e ≠ 0 then tileFault t q.th e q.pc 0x40 St.ok (fin (drop f.2.2))
        else match tryAttn t q.th q.word d f.2.2 with
          | .waits s => s
          | .ran s => fin s

/-- Every tile's streamer tries the operation at its head, in ascending tile number. -/
def kickStreamers (s : State) : State :=
  (s.tiles.filter fun t => !(SMap.getD t.2.queues 2 []).isEmpty).foldl (fun s t => headAttn t.1 s) s

/-- A channel issues an ATTN operation on a slot: it is the last that uses the slot (R213). -/
def Slot.usedBy (x : Slot) (c : Option Nat) : Slot :=
  match c with
  | some c => { x with users := c :: x.users.filter (· != c) }
  | none => x

/-- Issue an ATTN instruction: it enters the streamer's queue, and the slot notes its channel. -/
def issueAttn (t th : Nat) (w : BitVec 128) (s : State) : State :=
  let h := (s.tile t).thread th
  let a := baseAddr h (At.dg w) (At.doff w)
  let k := descAddrKind a 64
  let d := if k = 0 then Mem.readN (s.tile t).scratch a 64 else []
  let ts := attnTiles (At.kind w) d (s.slotHd (At.slot w))
  let wr := if At.kind w = kFwd ∨ At.kind w = kBwd then ts else []
  issueUnit 0x40 t th w 2 ts wr k (fun s =>
    let s := s.modSlot (At.slot w) fun x =>
      let x := x.usedBy (s.tile t).chan
      if At.kind w = kQsend then x.modBuf (bufOf (At.src d)) fun b => { b with sending := b.sending + 1 } else x
    kickStreamers (enqueueInsn t 2 (queued th h.pc w (BitVec.ofNat 64 a) 0 ts wr 0 0 false) s)) s

/-- An ATTN row of one kind. -/
def attnRow_ (ks : List Nat) (t th : Nat) (w : BitVec 128) (s : State) : State :=
  if ks.contains (At.kind w) then issueAttn t th w s else s

/-- APPEND. -/
def execAppend (t : Fin 256) (th : Fin 8) (w : BitVec 128) (s : State) : Host.Outcome State Fault Refusal :=
  done (attnRow_ [1] t th w s)
/-- FWD. -/
def execFwd (t : Fin 256) (th : Fin 8) (w : BitVec 128) (s : State) : Host.Outcome State Fault Refusal :=
  done (attnRow_ [2] t th w s)
/-- FINAL. -/
def execAttnFinal (t : Fin 256) (th : Fin 8) (w : BitVec 128) (s : State) : Host.Outcome State Fault Refusal :=
  done (attnRow_ [3] t th w s)
/-- BWD_PREP. -/
def execBwdPrep (t : Fin 256) (th : Fin 8) (w : BitVec 128) (s : State) : Host.Outcome State Fault Refusal :=
  done (attnRow_ [4] t th w s)
/-- BWD. -/
def execBwd (t : Fin 256) (th : Fin 8) (w : BitVec 128) (s : State) : Host.Outcome State Fault Refusal :=
  done (attnRow_ [5] t th w s)
/-- GFINAL. -/
def execGfinal (t : Fin 256) (th : Fin 8) (w : BitVec 128) (s : State) : Host.Outcome State Fault Refusal :=
  done (attnRow_ [6] t th w s)
/-- QSEND. -/
def execQsend (t : Fin 256) (th : Fin 8) (w : BitVec 128) (s : State) : Host.Outcome State Fault Refusal :=
  done (attnRow_ [7] t th w s)
/-- QRELEASE. -/
def execQrelease (t : Fin 256) (th : Fin 8) (w : BitVec 128) (s : State) : Host.Outcome State Fault Refusal :=
  done (attnRow_ [8] t th w s)
/-- LFETCH. -/
def execLfetch (t : Fin 256) (th : Fin 8) (w : BitVec 128) (s : State) : Host.Outcome State Fault Refusal :=
  done (attnRow_ [9] t th w s)
/-- TRUNC. -/
def execTrunc (t : Fin 256) (th : Fin 8) (w : BitVec 128) (s : State) : Host.Outcome State Fault Refusal :=
  done (attnRow_ [10] t th w s)
/-- A reserved KIND (R196). -/
def execAttnReservedKind (t : Fin 256) (th : Fin 8) (w : BitVec 128) (s : State) : Host.Outcome State Fault Refusal :=
  done (attnRow_ [0, 11, 12, 13, 14, 15] t th w s)

/-- UNIT_INSTRUCTION_COMPLETE: the array and the streamer may go on. -/
def execUnitInstructionComplete (t : Fin 256) (u : Fin 4) (s : State) : Host.Outcome State Fault Refusal :=
  done (headAttn t (completeUnit t u s))

/-! ### Quires that arrive and buffers that become free (R215 to R217) -/

/-- What an arriving quire meets: 0 accepted, 1 an old epoch, 2 a mismatch. -/
def quireCheck (x : Slot) (p : LeafPool) (g : Ring) (h : List Byte) (len : Nat) (s : State) : Nat :=
  if fieldAt h 32 4 < s.cle.epoch then 1
  else if fieldAt h 4 2 ≠ g.ringId ∨ x.layers ≤ Qh.layer h ∨ x.heads < Qh.head0 h + Qh.nheads h
      ∨ fieldAt h 3 1 ≠ p.fmt + 16 * p.hdCode ∨ fieldAt h 24 8 ≠ s.spine.step
      ∨ Qh.owner h ≠ (g.pos + g.nr - Qh.round h % g.nr) % g.nr ∨ g.lbSize < len then 2
  else 0

/-- A quire arrives. -/
def quireArrives (q : Nat) (h payload : List Byte) (s : State) : State :=
  match s.slot q, (s.slot q).bind s.poolOf, (s.slot q).bind (·.ring) with
  | some x, some p, some g =>
    let b := x.got % 2
    if (x.buf b).header.isSome || decide (s.cle.epoch < fieldAt h 32 4) then s
    else match quireCheck x p g h payload.length s with
      | 1 => s.modSlot q fun x => { x with lastErr := St.epoch }
      | 2 => reportFault (LogRec.make 6 0x32 St.collMismatch q)
          (s.modSlot q fun x => { x with lastErr := St.collMismatch })
      | _ =>
        match vaReady none p.part (g.bufVa b) payload.length true s with
        | (some _, s) => s
        | (none, s) =>
        let s := vaWrite p.part (g.bufVa b) payload s
        let s := s.modSlot q fun x => ({ x with got := x.got + 1 } : Slot).modBuf b fun _ => { QBuf.reset with header := some h }
        let s := (s.consumers x).foldl (fun s t => s.modTile t fun y => y.bumpEc g.arriveEc) s
        kickStreamers (s.leafCtr fun c => Ctrs.sat c 9 1)
  | _, _, _ => s

/-- QUIRE_ARRIVAL. -/
def execQuireArrival (q : Fin 16) (h payload : List (BitVec 8)) (s : State) : Host.Outcome State Fault Refusal :=
  done (quireArrives q h payload s)

/-- QUIRE_CREDIT: the credit for a landing buffer of NEXT returns. -/
def execQuireCredit (c : BufferCredit) (s : State) : Host.Outcome State Fault Refusal :=
  done (kickStreamers (s.modSlot c.slot fun x => { x with credits := NSet.insert x.credits c.buf }))

/-- A buffer may become free: every consumer tile has released it and its sends have completed; what a backward
pass has added is sent on first (56). -/
def State.bufFree (s : State) (x : Slot) (g : Ring) (b : Nat) : Bool :=
  let y := x.buf b
  let mustSend := if b = 2 then decide (1 < g.nr) else (y.header.map fun h => Qh.dir h == 1).getD false
  (b == 2 || y.header.isSome) && s.releasedBy x b && !(s.consumers x).isEmpty && y.sending == 0 && (y.left || !mustSend)

/-- A buffer becomes free: its granules are unwritten, and the credit of a landing buffer goes back to PREV. -/
def freeBuffer (q b : Nat) (s : State) : State :=
  match s.slot q, (s.slot q).bind s.poolOf, (s.slot q).bind (·.ring) with
  | some x, some p, some g =>
    if !s.bufFree x g b then s
    else
      let s := clearVa p.part (g.bufVa b) g.lbSize s
      let s := s.modSlot q fun x => ({ x with ob := if b = 2 then [] else x.ob } : Slot).modBuf b fun _ => QBuf.reset
      if b = 2 then s
      else match s.linkSet g.prev with
        | l :: _ =>
          let d := s.draw
          sendOn l ⟨4, 2, s.myPos, g.prev, (List.range 8).map (Config.freeByte d.1), []⟩ d.2
        | [] => s
  | _, _, _ => s

/-- LANDING_BUFFER_FREE. -/
def execLandingBufferFree (q : Fin 16) (b : Fin 3) (s : State) : Host.Outcome State Fault Refusal :=
  done (freeBuffer q b s)

/-! ### Leaves (R220 to R227) -/

/-- Operations that have not run name a leaf: those in streamers' queues that read or move local leaves. -/
def State.leafNamed (s : State) (q i : Nat) : Bool :=
  s.tiles.any fun t => (t.2.queue 2).any fun e =>
    !e.ran && At.slot e.word == q && [kFwd, kBwd, kQsend, kLfetch].contains (At.kind e.word) &&
      (match s.slot q with
        | some x =>
          let d := Mem.readN t.2.scratch e.base.toNat 64
          let n := if At.kind e.word = kFwd ∨ At.kind e.word = kBwd then 1 else At.nheads d
          (namedLeaves d x ((List.range n).map (· + At.head0 d))).contains i
        | none => false)

/-- The eviction candidates of a pool in order: oldest first, ties by slot and table index. -/
def State.leafCandidates (s : State) (pool : Nat) : List (Nat × Nat × Nat) :=
  s.leafs.slots.flatMap fun q =>
    if q.2.pool ≠ pool then []
    else (q.2.leaves.filter fun l =>
        l.1 < retiredKey 0 && l.2.state == 2 && l.2.tier == 1 && !l.2.pin && !l.2.motion && !s.leafNamed q.1 l.1).map
      fun l => (s.age l.2.lastUse, q.1, l.1)

/-- Insert a candidate after those that are as old or older. -/
def insertOld (e : Nat × Nat × Nat) : List (Nat × Nat × Nat) → List (Nat × Nat × Nat)
  | [] => [e]
  | x :: xs => if x.1 < e.1 then e :: x :: xs else x :: insertOld e xs

/-- The eviction of the first candidate that a tier accepts starts (R221). -/
def evictFirst : List (Nat × Nat × Nat) → State → State
  | [], s => s
  | e :: es, s => (startEvictLeaf e.2.1 e.2.2 s).getD (evictFirst es s)

/-- Something of the pool waits for a frame: a stalled APPEND, or a leaf that comes back (R222). -/
def State.poolWaits (s : State) (pool : Nat) : Bool :=
  s.leafs.slots.any fun q => q.2.pool == pool &&
    (!q.2.stalls.isEmpty || q.2.leaves.any fun l => l.2.motion && decide (2 ≤ l.2.tier))

/-- Frames of a pool are wanted: on demand, or since its free frames are below LOW_WATER (R222). -/
def State.leafDemand (s : State) (pool : Nat) (p : LeafPool) : Bool :=
  decide (p.freeCount < p.lowWater) || (s.poolWaits pool && (p.freeCount == 0 ||
    s.leafs.slots.any fun q => q.2.pool == pool && !q.2.stalls.isEmpty))

/-- The oldest eviction in progress of a pool. -/
def State.leafLeaving (s : State) (pool : Nat) : Option (Nat × Nat × FarRef) :=
  s.leafs.evicting.find? fun e => (s.slot e.1).map (·.pool) == some pool

/-- Evict leaves of a pool (R221, R222): the oldest eviction in progress completes, once its copy can be made; with none
in progress, one starts while frames are wanted. -/
def evictPool (pool : Nat) (s : State) : State :=
  match s.leafLeaving pool, SMap.lookup s.leafs.pools pool with
  | some e, _ =>
    if e.2.2.host && s.hif.pcieWidth == 0 then s else kickStreamers (finishEvictLeaf e.1 e.2.1 e.2.2 s)
  | none, some p =>
    if s.leafDemand pool p then
      kickStreamers (evictFirst ((s.leafCandidates pool).foldl (fun l e => insertOld e l) []) s)
    else s
  | none, none => s

/-- LEAF_EVICT. -/
def execLeafEvict (pool : Fin 8) (s : State) : Host.Outcome State Fault Refusal := done (evictPool pool s)

/-- A leaf that was asked for has come back; a copy in a window being reclaimed is not kept (R223, R225). -/
def leafComes (q layer head leaf : Nat) (data : List Byte) (bad : Bool) (s : State) : State :=
  match s.slot q, (s.slot q).bind s.poolOf with
  | some x, some p =>
    let i := x.leafIdx layer head leaf
    let l := x.leaf i
    match p.freeFrame, l.far with
    | some f, some r =>
      if r.host && s.hif.pcieWidth == 0 then s
      else if layer < x.layers ∧ head < x.heads ∧ leaf < x.perTrack ∧ l.motion ∧ 2 ≤ l.tier then
        let host := if r.host then s.copyRead r p.leafBytes else ([], false)
        let b := if r.host then host.1 else padTo p.leafBytes data
        let bad := if r.host then host.2 else bad
        let s := writeFrame p f b (if bad then allMarks p.leafBytes else []) (if r.host then hostErr bad s else s)
        let s := s.modPool x.pool fun p => { p with used := NSet.insert p.used f }
        let keep := r.host || !s.reclaiming r.who r.window
        let s := s.modLeaf q i fun l => { l with
          frame := f, tier := 1, motion := false, farcopy := keep, far := if keep then some r else none }
        kickStreamers (s.leafCtr fun c => Ctrs.sat c 4 1)
      else s
    | _, _ => s
  | _, _ => s

/-- LEAF_RETURN. -/
def execLeafReturn (q : Fin 16) (layer head leaf : Nat) (data : List (BitVec 8)) (bad : Bool) (s : State) :
    Host.Outcome State Fault Refusal :=
  done (leafComes q layer head leaf data bad s)

/-- The tick that stands for that of stalls of a slot which has raised E_LEAF_EXHAUSTED: it does not raise it again. -/
abbrev raisedTick : Nat := 2 ^ 64

/-- An APPEND has stalled for the bound: E_LEAF_EXHAUSTED, stamped with the tick at which the bound expired
(R226, R227). -/
def stallExpires (q : Nat) (s : State) : State :=
  match ((((s.slot q).map (·.stalls)).getD []).map (·.2)).filter fun e => decide (e.1 + s.leafs.bound ≤ s.spine.tick) with
  | [] => s
  | e :: es =>
    let (t, layer, head, len) := es.foldl (fun b e => if e.1 < b.1 then e else b) e
    let s := s.modSlot q fun x => { x with
      stalls := x.stalls.map fun y => (y.1, (raisedTick, y.2.2)), exhausted := some (layer, head, len)
      lastErr := St.leafExhausted }
    let c := ((s.slot q).bind s.slotChan).map (·.1)
    reportAt s.myPos (t + s.leafs.bound) ((LogRec.make 8 0x31 St.leafExhausted q).ofChan c)
      (s.leafCtr fun c => Ctrs.sat c 6 1)

/-- LEAF_STALL_EXPIRY. -/
def execLeafStallExpiry (q : Fin 16) (s : State) : Host.Outcome State Fault Refusal := done (stallExpires q s)

end Sys2Proof.Machine
end

