-- ==== Sys2Proof/Machine/Hash.lean ====
section
/-! DEFINITION. The checks and digests that the spec names: CRC-32C (R447), SHA3-256 of FIPS 202 (R517, R596,
R609) and the XXH64 checksum of a Zstandard frame (R470). -/

namespace Sys2Proof.Machine

/-! ### CRC-32C -/

/-- One bit of the reflected register. -/
def crc32cBit (c : BitVec 32) : BitVec 32 :=
  if c.getLsbD 0 then (c >>> 1) ^^^ 0x82F63B78 else c >>> 1

/-- CRC-32C of some bytes (R447). -/
def crc32c (bs : List Byte) : BitVec 32 :=
  bs.foldl (fun c b => (List.range 8).foldl (fun c _ => crc32cBit c) (c ^^^ BitVec.setWidth 32 b)) 0xFFFFFFFF
    ^^^ 0xFFFFFFFF

/-! ### SHA3-256 -/

/-- Rotation counts of lane x + 5y. -/
def keccakRot : List Nat :=
  [0, 1, 62, 28, 27, 36, 44, 6, 55, 20, 3, 10, 43, 25, 39, 41, 45, 15, 21, 8, 18, 2, 61, 56, 14]

/-- The round constants. -/
def keccakRc : List (BitVec 64) :=
  [0x0000000000000001, 0x0000000000008082, 0x800000000000808A, 0x8000000080008000,
   0x000000000000808B, 0x0000000080000001, 0x8000000080008081, 0x8000000000008009,
   0x000000000000008A, 0x0000000000000088, 0x0000000080008009, 0x000000008000000A]
  ++ [0x000000008000808B, 0x800000000000008B, 0x8000000000008089, 0x8000000000008003,
   0x8000000000008002, 0x8000000000000080, 0x000000000000800A, 0x800000008000000A,
   0x8000000080008081, 0x8000000000008080, 0x0000000080000001, 0x8000000080008008]

/-- Lane x + 5y of a state of 25 lanes. -/
def lane (a : List (BitVec 64)) (x y : Nat) : BitVec 64 := a.getD (x % 5 + 5 * (y % 5)) 0

/-- One round of Keccak-f[1600]. -/
def keccakRound (a : List (BitVec 64)) (rc : BitVec 64) : List (BitVec 64) :=
  let c := (List.range 5).map fun x => lane a x 0 ^^^ lane a x 1 ^^^ lane a x 2 ^^^ lane a x 3 ^^^ lane a x 4
  let d := (List.range 5).map fun x => c.getD ((x + 4) % 5) 0 ^^^ (c.getD ((x + 1) % 5) 0).rotateLeft 1
  let t := (List.range 25).map fun i => a.getD i 0 ^^^ d.getD (i % 5) 0
  -- Lane (x, y) moves to (y, 2x + 3y): the lane that lands at (u, v) came from (u + 3v, u).
  let b := (List.range 25).map fun i =>
    let u := i % 5
    let v := i / 5
    let k := (u + 3 * v) % 5 + 5 * u
    (t.getD k 0).rotateLeft (keccakRot.getD k 0)
  (List.range 25).map fun i =>
    let x := i % 5
    let y := i / 5
    let r := lane b x y ^^^ (~~~(lane b (x + 1) y) &&& lane b (x + 2) y)
    if i = 0 then r ^^^ rc else r

/-- Keccak-f[1600]. -/
def keccakF (a : List (BitVec 64)) : List (BitVec 64) := keccakRc.foldl keccakRound a

/-- Absorb blocks of 136 bytes. -/
def keccakAbsorb : Nat → List (BitVec 64) → List Byte → List (BitVec 64)
  | 0, a, _ => a
  | n + 1, a, bs =>
    if bs.isEmpty then a
    else
      let x := (List.range 25).map fun i =>
        a.getD i 0 ^^^ (if i < 17 then BitVec.ofNat 64 (leNat ((bs.drop (8 * i)).take 8)) else 0)
      keccakAbsorb n (keccakF x) (bs.drop 136)

/-- A message padded for SHA-3 to a multiple of 136 bytes. -/
def sha3Pad (bs : List Byte) : List Byte :=
  let z := 135 - bs.length % 136
  if z = 0 then bs ++ [0x86] else bs ++ [0x06] ++ List.replicate (z - 1) 0 ++ [0x80]

/-- SHA3-256. -/
def sha3 (bs : List Byte) : List Byte :=
  let p := sha3Pad bs
  let a := keccakAbsorb (p.length / 136 + 1) (List.replicate 25 0) p
  (a.take 4).flatMap fun l => natLe 8 l.toNat

/-! ### XXH64 with seed 0 -/

/-- The five primes. -/
def xxP1 : BitVec 64 := 0x9E3779B185EBCA87
def xxP2 : BitVec 64 := 0xC2B2AE3D27D4EB4F
def xxP3 : BitVec 64 := 0x165667B19E3779F9
def xxP4 : BitVec 64 := 0x85EBCA77C2B2AE63
def xxP5 : BitVec 64 := 0x27D4EB2F165667C5

/-- One round of an accumulator. -/
def xxRound (acc x : BitVec 64) : BitVec 64 := ((acc + x * xxP2).rotateLeft 31) * xxP1

/-- The 64-bit word at an offset. -/
def word64 (bs : List Byte) (o : Nat) : BitVec 64 := BitVec.ofNat 64 (leNat ((bs.drop o).take 8))

/-- The stripes of 32 bytes. -/
def xxStripes : Nat → List (BitVec 64) → List Byte → List (BitVec 64) × List Byte
  | 0, v, bs => (v, bs)
  | n + 1, v, bs =>
    if bs.length < 32 then (v, bs)
    else xxStripes n ((List.range 4).map fun i => xxRound (v.getD i 0) (word64 bs (8 * i))) (bs.drop 32)

/-- Merge an accumulator. -/
def xxMerge (h v : BitVec 64) : BitVec 64 := (h ^^^ xxRound 0 v) * xxP1 + xxP4

/-- The words of 8 bytes that remain. -/
def xxTail8 : Nat → BitVec 64 → List Byte → BitVec 64 × List Byte
  | 0, h, bs => (h, bs)
  | n + 1, h, bs =>
    if bs.length < 8 then (h, bs)
    else xxTail8 n (((h ^^^ xxRound 0 (word64 bs 0)).rotateLeft 27) * xxP1 + xxP4) (bs.drop 8)

/-- The last bytes. -/
def xxTail1 (h : BitVec 64) (bs : List Byte) : BitVec 64 :=
  bs.foldl (fun h b => ((h ^^^ (BitVec.setWidth 64 b * xxP5)).rotateLeft 11) * xxP1) h

/-- XXH64 with seed 0. -/
def xxh64 (bs : List Byte) : BitVec 64 :=
  let start :=
    if bs.length < 32 then (xxP5, bs)
    else
      let r := xxStripes (bs.length / 32) [xxP1 + xxP2, xxP2, 0, 0 - xxP1] bs
      let v (i : Nat) : BitVec 64 := r.1.getD i 0
      let h := (v 0).rotateLeft 1 + (v 1).rotateLeft 7 + (v 2).rotateLeft 12 + (v 3).rotateLeft 18
      (r.1.foldl xxMerge h, r.2)
  let h := start.1 + BitVec.ofNat 64 bs.length
  let r := xxTail8 4 h start.2
  let r :=
    if r.2.length < 4 then r
    else
      let k := BitVec.ofNat 64 (leNat (r.2.take 4))
      (((r.1 ^^^ (k * xxP1)).rotateLeft 23) * xxP2 + xxP3, r.2.drop 4)
  let h := xxTail1 r.1 r.2
  let h := (h ^^^ (h >>> 33)) * xxP2
  let h := (h ^^^ (h >>> 29)) * xxP3
  h ^^^ (h >>> 32)

end Sys2Proof.Machine
end

