-- ==== Sys2Proof/Machine/MailboxOps.lean ====
section
/-! DEFINITION. How a mailbox command runs (R547 to R553): its arguments, its pointers (R550, R661), its reply, and
its completion. A command that breaks several of its own rules answers the first of these: a reserved word,
then what its chapter lists, in the order in which this model checks it (102). -/

namespace Sys2Proof.Machine

/-! ### Mailboxes -/

/-- A mailbox. -/
def State.mailbox (s : State) (mb : Nat) : Mailbox := SMap.getD s.hif.mbs mb Mailbox.reset

/-- Change a mailbox. -/
def State.modMailbox (s : State) (mb : Nat) (f : Mailbox → Mailbox) : State :=
  { s with hif := { s.hif with mbs := SMap.updD s.hif.mbs Mailbox.reset mb f } }

/-- OWN. -/
def Mailbox.own (m : Mailbox) : Bool := m.word0.getLsbD 31

/-- CODE. -/
def Mailbox.code (m : Mailbox) : Nat := m.word0.toNat % 2 ^ 16

/-- SEQ. -/
def Mailbox.seq (m : Mailbox) : Nat := bits m.word0.toNat 16 8

/-- Argument word i. -/
def Mailbox.arg (m : Mailbox) (i : Nat) : Nat := (SMap.getD m.args i 0).toNat

/-- The words that follow the first n, up to ARG14, are 0 (R15, R549). -/
def Mailbox.zeroFrom (m : Mailbox) (n : Nat) : Bool := (List.range 15).all fun i => i < n || m.arg i == 0

/-- Write words from RES0 on. -/
def Mailbox.setRes (m : Mailbox) (res : List Nat) : Mailbox :=
  { m with res := ((List.range 15).zip res).foldl (fun (r : SMap (BitVec 64)) p => SMap.setD r 0 p.1 (BitVec.ofNat 64 p.2)) m.res }

/-- Complete a command (R547 steps 5 and 6): results, STATUS and SEQ_ECHO, OWN cleared, MB_DONE set, and the
mailbox's vector sent when IRQ is 1. -/
def finishCmd (mb : Nat) (st : Status) (res : List Nat) (s : State) : State :=
  let irq := (s.mailbox mb).word0.getLsbD 30
  let s := s.modMailbox mb fun m =>
    { (m.setRes res) with
      word4 := BitVec.ofNat 32 (st + m.seq * 2 ^ 16)
      word0 := m.word0 &&& 0x7FFFFFFF }
  let s := { s with hif := { s.hif with mbDone := s.hif.mbDone ||| BitVec.ofNat 16 (2 ^ mb) } }
  if irq then sendVector mb s else s

/-- What a command answers. -/
inductive Reply where
  /-- OK with result words and the state that the command leaves. -/
  | ok (res : List Nat) (s : State)
  /-- A status with the state as it was (R21). -/
  | fail (st : Status)
  /-- A status with the state that the command leaves: what the reads of a record marked bad did (E_POISON), or
  what its rule keeps of a command that did not succeed. -/
  | failed (st : Status) (s : State)
  /-- The command waits for pages that its pointer names (26). -/
  | wait (s : State)

/-- The command of a mailbox has been accepted and waits to be executed. -/
def State.owns (s : State) (mb code : Nat) : Bool := (s.mailbox mb).own && (s.mailbox mb).code == code

/-- Execute the command that a mailbox holds, if it is this one: `n` argument words, then its own checks and
its effect. -/
def runCmd (mb : Fin 16) (code n : Nat) (f : (Nat → Nat) → State → Reply) (s : State) : Host.Outcome State Fault Refusal :=
  if !s.owns mb code then .next s
  else if !(s.mailbox mb).zeroFrom n then .next (finishCmd mb St.badArg [] s)
  else match f (s.mailbox mb).arg s with
    | .ok res s' => done (finishCmd mb St.ok res s')
    | .fail st => .next (finishCmd mb st [] s)
    | .failed st s' => done (finishCmd mb st [] s')
    | .wait s' => .next s'

/-- The first status of a list of checks whose condition holds. -/
def firstErr : List (Bool × Status) → Option Status
  | [] => none
  | (b, e) :: l => if b then some e else firstErr l

/-- A command with checks of its own: the first that holds decides its status. -/
def checked (l : List (Bool × Status)) (r : Reply) : Reply :=
  match firstErr l with
  | some e => .fail e
  | none => r

/-! ### Pointers (R550, R661) -/

/-- What a pointer names. -/
inductive Ptr where
  | va (part va : Nat)
  | pa (a : Nat)
  | host (a : Nat)

/-- The pointer that a word spells; none when its space or a reserved bit is not defined. -/
def ptrOf (w : Nat) : Option Ptr :=
  match bits w 62 2 with
  | 0 => if bits w 54 8 = 0 then some (.va (bits w 52 2) (w % 2 ^ 52)) else none
  | 1 => if bits w 40 22 = 0 then some (.pa (w % 2 ^ 40)) else none
  | 2 => some (.host (w % 2 ^ 62))
  | _ => none

/-- The address of a pointer. -/
def Ptr.addr : Ptr → Nat
  | Ptr.va _ a => a
  | .pa a => a
  | .host a => a

/-- The pointer names device memory. -/
def Ptr.onDevice : Ptr → Bool
  | .host _ => false
  | _ => true

/-- The pointer's n bytes are memory that it may name; `write` asks for memory that the device may write. -/
def Ptr.names (p : Ptr) (n : Nat) (write : Bool) (s : State) : Bool :=
  match p with
  | .va part v =>
    decide (v + n ≤ 2 ^ 52) && (pagePieces v (max n 1)).all fun q =>
      match s.pageAt part q.1 with
      | some (_, g) => g.write || !write
      | none => false
  | .pa a => decide (a + n ≤ reserveBase)
  | .host _ => true

/-- Traffic generators run (R300). -/
def State.generators (s : State) : Bool := s.mem.tgcRes.any fun r => r.2.state == 1

/-- What is wrong with a pointer to n bytes: its form, its alignment, its range, or generators that run. -/
def ptrErr (w n align : Nat) (write : Bool) (s : State) : Option Status :=
  match ptrOf w with
  | none => some St.badArg
  | some p =>
    if p.addr % align ≠ 0 then some St.align
    else if !p.names n write s then some St.range
    else if p.onDevice && s.generators then some St.busy
    else none

/-- Device memory has not been released (R264): what allocates, maps, clears or starts work in it is refused. -/
def State.memOff (s : State) : Bool := !s.mem.trained

/-- A BOUND pair of a running channel overlaps a virtual range. -/
def State.boundsHit (s : State) (part va len : Nat) : Bool :=
  s.chans.table.any fun c => c.2.running && c.2.part == part
    && c.2.bounds.any fun b => decide (b.1 < va + len ∧ va < b.2)

/-- The physical ranges in tier 1 behind a virtual range: base and length. -/
def State.paRanges (s : State) (part va len : Nat) : List (Nat × Nat) :=
  ((s.pagesIn part va len).filter fun p => p.2.tier == 1).map fun p =>
    let lo := max va (keyVa p.1)
    (p.2.pa p.1 lo, min (va + len) (keyVa p.1 + p.2.frames * pageSize) - lo)


/-- What a pointer's bytes are: read whole, or waited for. -/
inductive PtrData where
  | got (data : List Byte) (bad : Bool) (s : State)
  | wait (s : State)


/-- Read the n bytes that a checked pointer names. -/
def ptrRead (w n : Nat) (s : State) : PtrData :=
  match ptrOf w with
  | some (.va part va) =>
    let x := vaReady none part va n false s
    if x.1.isSome then .wait x.2
    else
      let r := vaRead part va n x.2
      .got r.1 r.2.1 r.2.2
  | some (.pa a) =>
    let r := hbmRead a n s
    .got (s.withTables a r.1) (!r.2.1.isEmpty) r.2.2
  | some (.host a) =>
    let r := s.hostRead a n
    .got r.1 r.2 s
  | none => .got [] false s

/-- Write bytes where a checked pointer leads; none while the command must wait. -/
def ptrWrite (w : Nat) (data : List Byte) (s : State) : Except State State :=
  match ptrOf w with
  | some (.va part va) =>
    let x := vaReady none part va data.length true s
    if x.1.isSome then .error x.2 else .ok (vaWrite part va data x.2)
  | some (.pa a) => .ok (taintPa a data.length (hbmWrite a data false s))
  | some (.host a) => .ok (hostWrite a data s)
  | none => .ok s

/-- The state before a command whose read met bad data, with what the read left in error counters and in the error log
(R21). -/
def keepErrors (s t : State) : State :=
  { s with
    rse := t.rse, hif := t.hif, out := t.out
    mem := { s.mem with ctrs := [5, 6, 7, 8, 10, 14].foldl (fun c i => SMap.setD c 0 i (Ctrs.get t.mem.ctrs i)) s.mem.ctrs } }

/-- Read a record of n bytes and go on with it: a record read marked bad gives E_POISON (R539, R550). -/
def withRecord (w n align : Nat) (s : State) (f : List Byte → State → Reply) : Reply :=
  match ptrErr w n align false s with
  | some e => .fail e
  | none =>
    match ptrRead w n s with
    | .wait s' => .wait s'
    | .got data bad s' => if bad then .failed St.poison (keepErrors s s') else f data s'

/-- Write a result at a destination, with result words. -/
def report (w : Nat) (data : List Byte) (res : List Nat) (s : State) : Reply :=
  match ptrErr w data.length 64 true s with
  | some e => .fail e
  | none =>
    match ptrWrite w data s with
    | .ok s' => .ok res s'
    | .error s' => .wait s'

/-- A command that returns counters at a destination: `n` counters in mask-bit order (R17, R18). -/
def reportCtrs (c : State → List Byte) (a : Nat → Nat) (s : State) : Reply := report (a 0) (c s) [] s

/-- A command that clears the counters of a mask of n bits (R18). -/
def clearCtrs (n : Nat) (f : Nat → State → State) (a : Nat → Nat) (s : State) : Reply :=
  checked [(decide (2 ^ n ≤ a 0), St.badArg)] (.ok [] (f (a 0) s))

end Sys2Proof.Machine
end

