-- ==== Sys2Proof/Machine/ChanCmds.lean ====
section
/-! DEFINITION. The commands of channels and tiles (R133 to R146, R370, R555 to R557, R664). -/

namespace Sys2Proof.Machine

/-! ### Entry images (R555, R556) -/

/-- The bounds of an entry image. -/
def imageBounds (r : List Byte) : List (Nat × Nat) :=
  (List.range 4).map fun i => (fieldAt r (48 + 16 * i) 8, fieldAt r (56 + 16 * i) 8)

/-- A bound is unused, or a legal one. -/
def boundOk (b : Nat × Nat) : Bool :=
  b == (0, 0) || decide (b.1 < b.2 ∧ b.2 < 2 ^ 52 ∧ b.1 % pageSize = 0 ∧ b.2 % pageSize = 0)

/-- An entry image breaks no rule of R556, and its reserved fields are 0. -/
def imageOk (r : List Byte) : Bool :=
  let b (i : Nat) : Nat := fieldAt r i 1
  !(b 0).testBit 0 && decide (b 0 < 16) && decide (b 1 < 4) && decide (b 2 < 64) && zeroAt r 3 13
    && !zeroAt r 16 32 && (imageBounds r).all boundOk && zeroAt r 112 16

/-- Put an image's fields into a channel. -/
def Chan.setImage (x : Chan) (r : List Byte) : Chan :=
  let b (i : Nat) : Nat := fieldAt r i 1
  { x with
    relaxed := (b 0).testBit 1, cplRecord := (b 0).testBit 2, cplIrq := (b 0).testBit 3
    part := b 1 % 4, cplVector := b 2 % 64, tiles := BitVec.ofNat 256 (fieldAt r 16 32), bounds := imageBounds r }

/-- A channel with nothing in it. -/
def Chan.blank : Chan := ⟨false, false, false, 0, 0, 0, none, 0, [], 1, false, false, 0, 0, 0, 0, 0, 0, 0, false, false, none⟩

/-- The cached copy of an entry goes (R143). -/
def dropCached (c : Nat) (s : State) : State := { s with chans := { s.chans with cached := s.chans.cached.erase c } }

/-- The channel exists and does not run. -/
def State.stopped (s : State) (c : Nat) : Bool :=
  match s.chan c with
  | some x => !x.running
  | none => false

/-- The channel number is not one of 0 to 4,095. -/
def badChan (c : Nat) : Bool := decide (4095 < c)

/-- CHANNEL_CREATE. -/
def cmdChannelCreate (a : Nat → Nat) (s : State) : Reply :=
  checked [(badChan (a 0), St.range)]
    (withRecord (a 1) 128 128 s fun r s =>
      checked [(!imageOk r, St.badArg), ((s.chan (a 0)).isSome, St.state)]
        (.ok [] (dropCached (a 0) (s.setChan (a 0) (Chan.blank.setImage r)))))

/-- CHANNEL_CREATE (R142, R143, R556). -/
def execChannelCreate (mb : Fin 16) (s : State) : Host.Outcome State Fault Refusal := runCmd mb 0x0101 2 cmdChannelCreate s

/-- CHANNEL_DESTROY. -/
def cmdChannelDestroy (a : Nat → Nat) (s : State) : Reply :=
  checked [(badChan (a 0), St.range), (!s.stopped (a 0), St.state)]
    (let s := dropCached (a 0) s
     .ok [] { s with chans := { s.chans with table := SMap.del s.chans.table (a 0) } })

/-- CHANNEL_DESTROY (R142, R143). -/
def execChannelDestroy (mb : Fin 16) (s : State) : Host.Outcome State Fault Refusal := runCmd mb 0x0102 1 cmdChannelDestroy s

/-- CHANNEL_SET_MODE. -/
def cmdChannelSetMode (a : Nat → Nat) (s : State) : Reply :=
  checked [(badChan (a 0), St.range), (decide (1 < a 1), St.badArg), (!s.stopped (a 0), St.state)]
    (.ok [] (dropCached (a 0) (s.modChan (a 0) fun x => { x with relaxed := a 1 == 1 })))

/-- CHANNEL_SET_MODE (R33, R142, R143). -/
def execChannelSetMode (mb : Fin 16) (s : State) : Host.Outcome State Fault Refusal := runCmd mb 0x0103 2 cmdChannelSetMode s

/-- CHANNEL_UPDATE: the fields of the image are replaced; what the device wrote stays (113). -/
def cmdChannelUpdate (a : Nat → Nat) (s : State) : Reply :=
  checked [(badChan (a 0), St.range)]
    (withRecord (a 1) 128 128 s fun r s =>
      checked [(!imageOk r, St.badArg), (!s.stopped (a 0), St.state)]
        (.ok [] (dropCached (a 0) (s.modChan (a 0) fun x => x.setImage r))))

/-- CHANNEL_UPDATE (R142, R143, R556). -/
def execChannelUpdate (mb : Fin 16) (s : State) : Host.Outcome State Fault Refusal := runCmd mb 0x0105 2 cmdChannelUpdate s

/-! ### Programs (R133, R609) -/

/-- A program header. -/
def Header.of (r : List Byte) : Header :=
  ⟨(fieldAt r 6 1).testBit 0, BitVec.ofNat 8 (fieldAt r 7 1), fieldAt r 8 4, fieldAt r 12 4,
    (List.range 8).map fun i => fieldAt r (16 + 4 * i) 4⟩

/-- A header that R133 allows. -/
def headerOk (r : List Byte) : Bool :=
  let h := Header.of r
  fieldAt r 0 4 == 0x47504B52 && fieldAt r 4 2 == 1 && decide (fieldAt r 6 1 < 2) && zeroAt r 48 16
    && decide (64 ≤ h.codeOffset) && h.codeOffset % 16 == 0
    && decide (16 ≤ h.codeLength ∧ h.codeLength ≤ 2 ^ 24) && h.codeLength % 16 == 0
    && (List.range 8).all fun i =>
      let e := h.entry.getD i 0
      if h.threads.getLsbD i then e % 16 == 0 && decide (e < h.codeLength) else e == 0

/-- Extend a measurement with a digest (R609). -/
def extendMeas (i : Nat) (x : List Byte) (s : State) : State :=
  { s with sec := { s.sec with
      meas := SMap.put s.sec.meas i (sha3 (SMap.getD s.sec.meas i (List.replicate 32 0) ++ x)) } }

/-- PROGRAM_LOAD: the header and the code are read, and measurement 6 is extended. -/
def cmdProgramLoad (a : Nat → Nat) (s : State) : Reply :=
  checked
    [ (badChan (a 0) || decide (2 ^ 52 ≤ a 1), St.range), (a 1 % 4096 != 0, St.align), (!s.stopped (a 0), St.state) ]
    (let w := a 1 + ((s.chan (a 0)).map (·.part)).getD 0 * 2 ^ 52
     withRecord w 64 4096 s fun r s =>
      checked [(!headerOk r, St.badArg)]
        (let h := Header.of r
         withRecord (w + h.codeOffset) h.codeLength 16 s fun code s =>
          .ok [] (extendMeas 6 (sha3 (r ++ code)) (s.modChan (a 0) fun x => { x with
            program := a 1, header := some h, runState := 2, started := false, ran := false }))))

/-- PROGRAM_LOAD (R133, R142, R609). -/
def execProgramLoad (mb : Fin 16) (s : State) : Host.Outcome State Fault Refusal := runCmd mb 0x0104 2 cmdProgramLoad s

/-! ### Starting and stopping (R140, R144, R664) -/

/-- A tile of the channel's set belongs to another running channel (R140). -/
def State.tilesTaken (s : State) (c : Nat) : Bool :=
  match s.chan c with
  | none => false
  | some x => s.chans.table.any fun p => p.1 != c && p.2.running && (p.2.tiles &&& x.tiles) != 0

/-- Armed to run: the fault record is cleared, and its tiles' threads are idle with no fault recorded (R132, R664). -/
def armChan (c step : Nat) (s : State) : State :=
  match s.chan c with
  | none => s
  | some x =>
    let s := x.tileList.foldl (fun s t => s.modTile t fun y =>
      { y.clearFault with threads := [], chan := some c, rank := x.rankOf t }) s
    cacheEntry c (s.modChan c fun x => { x with
      runState := 3, startStep := step, started := false, ran := false
      faultKind := 0, faultTile := 0, faultThread := 0, faultPc := 0, lastStatus := 0 })

/-- A device that rests idle wakes (R588). -/
def wakeIdle (s : State) : State := if s.pcm.sstate = 1 then { s with pcm := { s.pcm with sstate := 0 } } else s

/-- CHANNEL_START (R664). DESIGN CHOICE (log entry 158): between the commit of step n and the first tick of the next step the
running step is n + 1. -/
def cmdChannelStart (a : Nat → Nat) (s : State) : Reply :=
  let next := s.spine.step + 1
  checked
    [ (badChan (a 0) || (s.spine.running && a 1 != 0 && decide (a 1 ≤ s.spine.step)), St.range),
      (s.memOff || !s.stopped (a 0) || ((s.chan (a 0)).bind (·.header)).isNone, St.state),
      (s.tilesTaken (a 0), St.busy) ]
    (let first := if s.spine.running && a 1 == 0 then next else a 1
     .ok [if a 1 = 0 ∧ !s.spine.running then 2 ^ 64 - 1 else first] (wakeIdle (armChan (a 0) first s)))

/-- CHANNEL_START (R142, R664). -/
def execChannelStart (mb : Fin 16) (s : State) : Host.Outcome State Fault Refusal := runCmd mb 0x0106 2 cmdChannelStart s

/-- The last step that a channel ran: the running one while it takes part in it; all ones when it ran none. -/
def lastRun (c : Nat) (s : State) : Nat := ((s.chan c).bind (·.lastRan)).getD (2 ^ 64 - 1)

/-- CHANNEL_STOP. -/
def cmdChannelStop (a : Nat → Nat) (s : State) : Reply :=
  let run := ((s.chan (a 0)).map (·.running)).getD false
  checked
    [ (badChan (a 0), St.range), (decide (1 < a 1), St.badArg),
      (!run || (a 1 == 1 && s.spine.running), St.state) ]
    (.ok [lastRun (a 0) s]
      (if s.spine.running then s.modChan (a 0) fun x => { x with runState := 4 } else stopChan (a 0) 6 s))

/-- CHANNEL_STOP (R142, R144, R664). -/
def execChannelStop (mb : Fin 16) (s : State) : Host.Outcome State Fault Refusal := runCmd mb 0x0107 2 cmdChannelStop s

/-- CHANNEL_STATUS: with no channel every field is 0 (113). -/
def cmdChannelStatus (a : Nat → Nat) (s : State) : Reply :=
  checked [(badChan (a 0), St.range)]
    (.ok (match s.chan (a 0) with
      | some x => [x.runState, if x.nondet then 1 else 0, x.lastStep, x.faultKind, x.faultTile, x.faultThread, x.faultPc]
      | none => [0, 0, 0, 0, 0, 0, 0]) s)

/-- CHANNEL_STATUS (R142). -/
def execChannelStatus (mb : Fin 16) (s : State) : Host.Outcome State Fault Refusal := runCmd mb 0x0108 1 cmdChannelStatus s

/-! ### Tiles (R131, R132, R141, R146, R370) -/

/-- GET_TILE_STATE: the values in the order of R142; those beyond RES14 have no place (111). -/
def cmdGetTileState (a : Nat → Nat) (s : State) : Reply :=
  let t := s.tile (a 0)
  checked [(decide (255 < a 0), St.range)]
    (.ok ([t.threadState, t.faultWord (a 0)] ++ (List.range 8).map (fun n => (t.thread n).pc.toNat)
      ++ (List.range 32).map (fun n => (t.ec n).toNat) ++ (List.range 4).map (SMap.getD t.owner · 8)) s)

/-- GET_TILE_STATE (R131, R132, R142). -/
def execGetTileState (mb : Fin 16) (s : State) : Host.Outcome State Fault Refusal := runCmd mb 0x0109 1 cmdGetTileState s

/-- Every injection slot is cleared: so does every kind of reset (R525, R634). -/
def clearInj (s : State) : State := endDrop (List.range 32) { s with rse := { s.rse with inj := [] } }

/-- The tile goes back to its state after power-on (R141). -/
def resetTile (t : Nat) (s : State) : State := clearInj (dropTickets t (s.setTile t Tile.reset))

/-- TILE_RESET. -/
def cmdTileReset (a : Nat → Nat) (s : State) : Reply :=
  checked
    [ (decide (255 < a 0), St.range),
      (s.chans.table.any (fun p => p.2.running && p.2.tiles.getLsbD (a 0)), St.state) ]
    (.ok [] (resetTile (a 0) s))

/-- TILE_RESET (R141, R142). -/
def execTileReset (mb : Fin 16) (s : State) : Host.Outcome State Fault Refusal := runCmd mb 0x010A 1 cmdTileReset s

/-- A range of tiles lies in 0 to 255. DESIGN CHOICE (log entry 158): a count of 0 is an empty range, at a first tile of 256
too. -/
def tilesOk (a : Nat → Nat) : Bool := decide (a 0 + a 1 ≤ 256)

/-- READ_TILE_COUNTERS. -/
def cmdReadTileCounters (a : Nat → Nat) (s : State) : Reply :=
  checked [(!tilesOk a, St.range)]
    (report (a 2) ((List.range (a 1)).flatMap fun i => Ctrs.bytes (s.tile (a 0 + i)).ctrs 7) [] s)

/-- READ_TILE_COUNTERS (R146). -/
def execReadTileCounters (mb : Fin 16) (s : State) : Host.Outcome State Fault Refusal := runCmd mb 0x010B 3 cmdReadTileCounters s

/-- CLEAR_TILE_COUNTERS. -/
def cmdClearTileCounters (a : Nat → Nat) (s : State) : Reply :=
  checked [(!tilesOk a, St.range), (decide (2 ^ 7 ≤ a 2), St.badArg)]
    (.ok [] ((List.range (a 1)).foldl (fun s i => s.tileCtr (a 0 + i) fun c => Ctrs.clear c (a 2)) s))

/-- CLEAR_TILE_COUNTERS (R146). -/
def execClearTileCounters (mb : Fin 16) (s : State) : Host.Outcome State Fault Refusal := runCmd mb 0x010C 3 cmdClearTileCounters s

/-- READ_TFE_COUNTERS. -/
def cmdReadTfeCounters (a : Nat → Nat) (s : State) : Reply :=
  checked [(!tilesOk a, St.range)]
    (report (a 2) ((List.range (a 1)).flatMap fun i => Ctrs.bytes (s.tile (a 0 + i)).tfeCtrs 6) [] s)

/-- READ_TFE_COUNTERS (R370). -/
def execReadTfeCounters (mb : Fin 16) (s : State) : Host.Outcome State Fault Refusal := runCmd mb 0x010D 3 cmdReadTfeCounters s

/-- CLEAR_TFE_COUNTERS. -/
def cmdClearTfeCounters (a : Nat → Nat) (s : State) : Reply :=
  checked [(!tilesOk a, St.range), (decide (2 ^ 6 ≤ a 2), St.badArg)]
    (.ok [] ((List.range (a 1)).foldl (fun s i => s.tfeCtr (a 0 + i) fun c => Ctrs.clear c (a 2)) s))

/-- CLEAR_TFE_COUNTERS (R370). -/
def execClearTfeCounters (mb : Fin 16) (s : State) : Host.Outcome State Fault Refusal := runCmd mb 0x010E 3 cmdClearTfeCounters s

end Sys2Proof.Machine
end

