-- ==== Sys2Proof/Machine/LinkOps.lean ====
section
/-! DEFINITION. The Tawa Links: control messages (R396), training and admission (R394 to R399), retraining
(R389 to R391), the loss of positions (R400, R401), acknowledgements, and what a link sends and hands on (R383 to R388). -/

namespace Sys2Proof.Machine

/-! ### Control messages (R396) -/

/-- The role that this device states: 0 member, 1 Fawn, 2 unassigned. -/
def State.myRole (s : State) : Nat := (s.links.table.map (·.role)).getD 2

/-- The HELLO message of a link. -/
def helloMsg (l : Nat) (s : State) : List Byte :=
  natLe 1 1 ++ natLe 1 (if (s.link l).hello.isSome then 1 else 0) ++ natLe 2 0x9640
    ++ natLe 2 ((s.links.table.map (·.herdId)).getD 0xFFFF) ++ natLe 2 s.myPos ++ natLe 1 s.myRole ++ natLe 1 l
    ++ natLe 2 0 ++ natLe 4 ((s.links.table.map (·.gen)).getD 0) ++ natLe 8 s.sec.deviceId.toNat
    ++ natLe 8 Config.turnaround

/-- A message of one byte. -/
def shortMsg (m : Nat) : List Byte := padTo 32 (natLe 1 m)

/-- The fields of a HELLO message. -/
def Hello.of (m : List Byte) : Hello :=
  ⟨fieldAt m 1 1, fieldAt m 2 2, fieldAt m 4 2, fieldAt m 6 2, fieldAt m 8 1, fieldAt m 9 1, fieldAt m 12 4,
    fieldAt m 16 8, fieldAt m 24 8⟩

/-! ### Retraining (R389, R390) -/


/-- A link trains again, out of Active from now on (R395, R407). -/
def startRetrain (l : Nat) (s : State) : State :=
  let t := (beginTraining l 4 s).modLink l fun x => { x with outSince := some s.spine.tick }
  linkEvent l 2 St.ok (s.peerOf l) 0 t

/-- An Active link leaves its set: it trains again and loses what it carried, but far-tier pieces that wait for it go to
the links that are still up (R329, R390). The retrain is a transient fault stamped now; with no schedule it is only
logged. `inj` marks one that an injection causes. -/
def leaveActive (l : Nat) (inj : Bool) (s : State) : State :=
  let before := s.favouredEdges
  let far := (SMap.getD (s.link l).queues 3 []).filter fun p => p.cls == 5 || p.cls == 6
  let s := startRetrain l s
  let s := ((List.range far.length).zip far).foldl (fun s p => farSend p.1 p.2 s) s
  checkPlacement before (reportFault ((LogRec.make 5 0x05 St.linkDown l).injected inj) s)

/-- A retrain of R389. -/
def retrain (l : Nat) (s : State) : State :=
  if (s.link l).st != 3 then s
  else leaveActive l (s.link l).dropped (s.linkCtr l fun c => Ctrs.sat c 7 1)

/-- ACK_TIMEOUT (R389): flits have stayed unacknowledged without progress for 16 µs. -/
def execAckTimeout (link : Fin 32) (s : State) : Host.Outcome State Fault Refusal :=
  if (s.link link).replay.isEmpty then .next s else done (retrain link s)

/-- SIGNAL_LOSS (R389): no signal for 1 µs. -/
def execSignalLoss (link : Fin 32) (s : State) : Host.Outcome State Fault Refusal :=
  done ((retrain link s).modLink link fun x => { x with signal := false })

/-- LINK_DOWN (R390): a retrain that has not completed in 10 ms. -/
def execLinkDown (link : Fin 32) (s : State) : Host.Outcome State Fault Refusal :=
  if (s.link link).st == 4 then
    let s := s.modLink link fun x => { x with st := 5, signal := x.signal && x.step != 1 }
    .next (raiseCause Cause.linkEvent (linkEvent link 3 St.linkDown (s.peerOf link) 0 s))
  else .next s

/-! ### Acknowledgements, and a flit's checks (R386 to R389) -/

/-- Take an acknowledgement: the flits up to it leave the replay buffer (R386). -/
def Link.acked (x : Link) (ack : Nat) : Link :=
  match x.replay.findIdx? fun r => r.1 == ack with
  | some i => { x with replay := x.replay.drop (i + 1), ackSeen := some ack, naks := if x.ackSeen = some ack then x.naks else 0 }
  | none => x

/-- Act on a NAK: every flit from ACK + 1 goes again; the eighth in a row that names one ACK retrains the
link (R388, R389). -/
def takeNak (l ack : Nat) (s : State) : State :=
  if (s.link l).st != 3 then s
  else
    let x := (s.link l).acked ack
    let n := if x.ackSeen = some ack then x.naks + 1 else 1
    let s := s.modLink l fun _ => { x with ackSeen := some ack, naks := n }
    if 8 ≤ n then retrain l s
    else
      let s := x.replay.foldl (fun s r => resendFlit l r s) s
      let s := s.modLink l fun y => { y with ctrs := Ctrs.sat (Ctrs.wrap y.ctrs 0 x.replay.length) 6 1 }
      logError { (LogRec.make 5 0 St.ok l) with detail := ack } s

/-- Corrected bytes are counted and logged (R409, R492). -/
def noteFixed (l fixed seq : Nat) (s : State) : State :=
  if fixed = 0 then s
  else
    let s := (s.linkCtr l fun c => Ctrs.wrap c 2 1).linkCtr l fun c => Ctrs.wrap c 3 fixed
    logError { (LogRec.make 5 0x00 St.ok l) with detail := seq } s

/-- CREDITS of a header: a running total modulo 4,096 for its VC. -/
def Link.credited (x : Link) (h : FlitHead) : Link :=
  let old := SMap.getD x.freedSeen h.cvc 0
  { x with freedSeen := SMap.setD x.freedSeen 0 h.cvc (old + (h.credits + 4096 - old % 4096) % 4096) }

/-- What the header of a flit that passed its checks brings: credits, an acknowledgement, a NAK (151). -/
def takeHead (l : Nat) (h : FlitHead) (s : State) : State :=
  let s := s.modLink l fun x => x.credited h
  if !h.ackv then s
  else if h.nak then takeNak l h.ack s
  else s.modLink l fun x => x.acked h.ack

/-- A data flit is discarded: NAK goes out at the first of an episode. -/
def discard (l : Nat) (s : State) : State :=
  if (s.link l).episode then s
  else sendIdle l true (s.modLink l fun x => { x with episode := true })

/-- A flit that does not decode; the eighth in a row retrains the link. -/
def undecoded (l : Nat) (s : State) : State :=
  let s := (s.linkCtr l fun c => Ctrs.sat c 4 1).modLink l fun x => { x with badRun := x.badRun + 1 }
  if 8 ≤ (s.link l).badRun then retrain l s else s

/-- A flit decoded. -/
def decoded (l fixed seq : Nat) (s : State) : State := noteFixed l fixed seq (s.modLink l fun x => { x with badRun := 0 })

/-- A control flit arrives with a message of some kind; one that fails a check is discarded without a NAK (R387, R396). -/
def takeControl (l : Nat) (flit : List Byte) (msg : Nat) (f : List Byte → State → State) (s : State) : State :=
  match flitDecode flit with
  | .uncorrectable => undecoded l s
  | .badCrc fixed => (decoded l fixed 0 s).linkCtr l fun c => Ctrs.sat c 5 1
  | .good h payload fixed =>
    if h.type = 2 ∧ fieldAt payload 0 1 = msg then f (payload.take 32) (takeHead l h (decoded l fixed 0 s)) else s

/-! ### Training (R395) -/

/-- The entry of a link lets it be released: every link before a table is loaded (R394, R633), but none of a die whose
reference clock failed its check, and none at all when D0's did (R659). -/
def State.mayRelease (s : State) (l : Nat) : Bool :=
  !s.sys.refBad.contains 0 && !s.sys.refBad.contains (l / 8) && !s.links.off.contains l && (match s.posEntry l with | some e => e.enable | none => s.links.table.isNone)

/-- The next link that firmware releases, in ascending order (R394, 73). -/
def State.nextRelease (s : State) : Option Nat :=
  (List.range 32).find? fun l => (s.link l).st == 0 && s.mayRelease l

/-- LINK_RELEASE (R394): once HBM is ready, the next link is released and starts training. Its partner counts as present
until an attempt has ended without lane lock (73). -/
def execLinkRelease (s : State) : Host.Outcome State Fault Refusal :=
  if !s.mem.trained || s.mem.selfRefresh then .next s
  else match s.nextRelease with
    | some l => .next (beginTraining l 1 (s.modLink l fun x => { x with signal := true }))
    | none => .next s

/-- LINK_TRAINING_TIMEOUT (R395): without partner lock for 10 ms, and when Down or refused, a link restarts at
step 1. An attempt without lane lock has met no partner signal. -/
def execLinkTrainingTimeout (link : Fin 32) (s : State) : Host.Outcome State Fault Refusal :=
  let x := s.link link
  if (x.st == 1 && decide (x.step ≤ 3)) || x.st == 5 || x.st == 6 then
    .next (beginTraining link 1 (s.modLink link fun x => { x with signal := x.signal && x.step != 1 }))
  else .next s


/-- LANE_LOCK (R395): all lanes are locked; reversal and polarity are detected and corrected (R375). A Held link whose
partner leaves S2 retrains (R405). -/
def execLaneLock (link : Fin 32) (reversed : Bool) (polarity : BitVec 8) (s : State) :
    Host.Outcome State Fault Refusal :=
  let s := if (s.link link).st == 8 && !s.mem.selfRefresh then startRetrain link s else s
  if (s.link link).training && (s.link link).step == 1 && !s.mem.selfRefresh then
    .next (s.modLink link fun x => { x with step := 3, reversed := reversed, polarity := polarity, signal := true })
  else .next s

/-- FLIT_LOCK (R395): HELLO messages and the echo exchanges begin. -/
def execFlitLock (link : Fin 32) (s : State) : Host.Outcome State Fault Refusal :=
  if (s.link link).training && (s.link link).step == 3 then
    let s := s.modLink link fun x => { x with step := 4 }
    .next (sendControl link (shortMsg 2) (sendControl link (helloMsg link s) s))
  else .next s

/-- The link exchanges HELLO: from step 4 until it is Active. -/
def Link.greets (x : Link) : Bool := (x.training && decide (4 ≤ x.step)) || x.st == 2

/-- HELLO_RESEND (R396). -/
def execHelloResend (link : Fin 32) (s : State) : Host.Outcome State Fault Refusal :=
  if (s.link link).greets then .next (sendControl link (helloMsg link s) s) else .next s

/-- The first reason of R399 that applies; reasons 5 and 6 are judged once the latency is measured (72). -/
def refuseReason (s : State) (e : PosEntry) (h : Hello) (x : Link) : Option Nat :=
  if h.family ≠ 0x9640 then some 1
  else if some h.herdId ≠ s.links.table.map (·.herdId) then some 2
  else if h.position ≠ e.peerPos ∧
      !(e.standby && h.position == e.standsFor && s.links.rebinds.any fun r => r.1 == e.standsFor && r.2 == e.peerPos)
    then some 3
  else if e.peerLink ≠ 0xFF ∧ e.peerLink ≠ h.link then some 4
  else if x.echoes < 16 then none
  else if 1200 < x.latency ∨ e.maxClass < x.cls then some 5
  else if some h.generation ≠ s.links.table.map (·.gen) then some 6
  else none

/-- A link is refused; the first refusal since its counters were cleared raises the link-event cause (R399, R407). -/
def refuseLink (l reason : Nat) (h : Hello) (s : State) : State :=
  let first := !(s.link l).refused
  let s := s.modLink l fun x => { x with st := 6, refusal := reason, refused := true, ctrs := Ctrs.sat x.ctrs 8 1 }
  let s := linkEvent l 4 St.ok h.position reason s
  if first then raiseCause Cause.linkEvent s else s

/-- Step 5 of training: with the partner's HELLO and a table the link is refused, or, once its latency is
measured, it waits in Admit. -/
def checkPartner (l : Nat) (s : State) : State :=
  let x := s.link l
  if !(x.training && decide (4 ≤ x.step)) then s
  else match x.hello, s.posEntry l with
    | some h, some e =>
      match refuseReason s e h x with
      | some r => refuseLink l r h s
      | none => if x.echoes < 16 then s else s.modLink l fun x => { x with st := 2, step := 6 }
    | _, _ => s

/-- One-way latency in ns: half of the shortest round trip less the partner's turnaround, rounded up to 2 ns
(R392). -/
def oneWay (trip turn : Nat) : Nat := roundUp ((trip - turn + 1999) / 2000) 2

/-- The length class of a latency (R392). -/
def lengthClass (ns : Nat) : Nat := if ns ≤ 40 then 0 else if ns ≤ 200 then 1 else if ns ≤ 600 then 2 else 3

/-- The latency follows from sixteen echoes and the partner's turnaround. -/
def Link.measure (x : Link) : Link :=
  match x.hello with
  | some h =>
    if x.echoes < 16 then x
    else
      let n := oneWay x.minTrip h.turnaround
      { x with latency := n, cls := lengthClass n }
  | none => x

/-- A HELLO message is checked against the table (R396, R399). -/
def takeHello (l : Nat) (msg : List Byte) (s : State) : State :=
  checkPartner l (s.modLink l fun x => ({ x with hello := some (Hello.of msg) } : Link).measure)

/-- HELLO (R396, R399). -/
def execHello (link : Fin 32) (flit : List Byte) (s : State) : Host.Outcome State Fault Refusal :=
  if (s.link link).greets then done (takeControl link flit 1 (takeHello link) s) else .next s

/-- The positions that a link reaches are no longer lost: their loss is reported anew when it happens (R400). -/
def foundAgain (l : Nat) (s : State) : State :=
  { s with links := { s.links with lostPos := s.links.lostPos.filter fun p => !(s.assigned p).contains l } }

/-- LINK_ADMIT (R395): a link in Admit becomes Active once every lower-numbered released link is Active,
Refused, Disabled or without partner signal; it joins its set at once when no schedule runs (R391). -/
def execLinkAdmit (link : Fin 32) (s : State) : Host.Outcome State Fault Refusal :=
  let settled (l : Nat) : Bool :=
    let x := s.link l
    x.st == 0 || x.st == 3 || x.st == 6 || x.st == 7 || !x.signal
  if (s.link link).st == 2 && (List.range link.val).all settled then
    let s := s.modLink link fun x => { x with st := 3, step := 7, outSince := none, joined := !s.spine.running }
    .next (linkEvent link 1 St.ok (s.peerOf link) 0 (resendFar (foundAgain link s)))
  else .next s

/-- PING (R396): it is answered with PONG. -/
def execPing (rx : ControlFlit) (s : State) : Host.Outcome State Fault Refusal :=
  if (s.link rx.link).greets || (s.link rx.link).st == 3 then
    done (takeControl rx.link rx.bytes 2 (fun _ => sendControl rx.link (shortMsg 3)) s)
  else .next s

/-- One echo exchange is over (R392); the next is started until sixteen are in. -/
def takeEcho (l roundTripPs : Nat) (s : State) : State :=
  let n := (s.link l).echoes + 1
  let s := s.modLink l fun x => ({ x with
    echoes := x.echoes + 1
    minTrip := if x.echoes = 0 then roundTripPs else min x.minTrip roundTripPs } : Link).measure
  checkPartner l (if n < 16 then sendControl l (shortMsg 2) s else s)

/-- PONG (R392). -/
def execPong (rx : ControlFlit) (roundTripPs : Nat) (s : State) : Host.Outcome State Fault Refusal :=
  let x := s.link rx.link
  if !(x.training && decide (4 ≤ x.step)) || decide (16 ≤ x.echoes) then .next s
  else done (takeControl rx.link rx.bytes 3 (fun _ => takeEcho rx.link roundTripPs) s)

/-- The partner enters S2, and the link is Held (R405). -/
def takeHold (l : Nat) (s : State) : State :=
  if (s.link l).st == 3 then
    let s := s.modLink l fun x => { x with st := 8, signal := false }
    linkEvent l 8 St.ok (s.peerOf l) 0 s
  else s

/-- HOLD (R405). -/
def execHold (rx : ControlFlit) (s : State) : Host.Outcome State Fault Refusal :=
  if (s.link rx.link).st == 3 then done (takeControl rx.link rx.bytes 4 (fun _ => takeHold rx.link) s) else .next s

/-- POSITION_CHANGE (R403): the partner's position is the one it took over from then on (160). -/
def execPositionChange (link : Fin 32) (flit : List Byte) (s : State) : Host.Outcome State Fault Refusal :=
  if (s.link link).st == 3 then
    done (takeControl link flit 5 (fun m s => s.modLink link fun x =>
      { x with hello := x.hello.map fun (h : Hello) => { h with position := fieldAt m 2 2 } }) s)
  else .next s

/-! ### Loss of a position (R400, R401) -/

/-- The link has been out of Active for the bound, or was never Active; a Held link counts as present. -/
def State.outFor (s : State) (l : Nat) : Bool :=
  let x := s.link l
  x.st != 3 && x.st != 8 && (match x.outSince with
    | some t => decide (t + 1000 * s.links.bound ≤ s.spine.tick)
    | none => true)

/-- Links of a position that have been in its set. -/
def State.everIn (s : State) (p : Nat) : List Nat :=
  (s.assigned p).filter fun l => (s.link l).st == 3 || (s.link l).st == 8 || (s.link l).outSince.isSome

/-- PEER_LOST (R400): every link of the position's set has been out for the bound. -/
def execPeerLost (pos : Fin 1024) (s : State) : Host.Outcome State Fault Refusal :=
  let ls := s.everIn pos
  if ls.isEmpty || !(ls.all s.outFor) || s.links.lostPos.contains pos.val then .next s
  else
    let s := { s with links := { s.links with lostPos := NSet.insert s.links.lostPos pos } }
    let s := raiseCause Cause.linkEvent (linkEvent (ls.headD 0) 5 St.peerLost pos 0 s)
    let s := if pos.val = s.rse.mirror.twinPos ∨ pos.val = s.rse.mirror.mirrorOf then failTakeover 2 s else s
    done (reportAt pos s.spine.tick (LogRec.make 5 0x20 St.peerLost (ls.headD 0)) s)

/-- Isolate the device (R401): its channels stop, its links carry nothing more, and the host is told. -/
def isolate (s : State) : State :=
  let s := { s with links := { s.links with isolated := true } }
  let s := s.runningChans.foldl (fun s c => stopChan c 6 s) s
  let l := ((List.range 32).find? fun l => (s.posEntry l).any (·.enable)).getD 0
  raiseCause Cause.linkEvent (linkEvent l 7 St.peerLost 0xFFFF 0 s)

/-- SELF_ISOLATE (R401): every enabled link has been out for the bound while a schedule runs. -/
def execSelfIsolate (s : State) : Host.Outcome State Fault Refusal :=
  let ls := (List.range 32).filter fun l => (match s.posEntry l with | some e => e.enable | none => false)
    && !s.links.off.contains l
  if !s.spine.running || s.links.isolated || ls.isEmpty || !(ls.all s.outFor) then .next s
  else done (isolate s)

/-- LINK_TEST_END (R408): the test's duration is over; its results stay and the link trains again. -/
def execLinkTestEnd (link : Fin 32) (bits errors : List Nat) (s : State) : Host.Outcome State Fault Refusal :=
  if (s.link link).st == 9 then
    let s := if s.mayRelease link then beginTraining link 1 s else s.modLink link fun x => x.fresh 7
    .next (s.modLink link fun x => { x with testBits := bits.take 8, testErrs := errors.take 8 })
  else .next s

/-! ### Sending packets (R385, R388) -/

/-- The slots that wait go out; the last flit is filled up with zeros when no packet can follow (70). -/
def sendSlots (l : Nat) (s : State) : State := pushSlots l (s.link l).choose.isNone 166 s

/-- PACKET_SEND (R385, R386): what a full replay buffer held back goes first; else a packet with credit starts. With the
replay buffer full, or nothing to send, the flit is idle (71). -/
def execPacketSend (link : Fin 32) (s : State) : Host.Outcome State Fault Refusal :=
  let x := s.link link
  let l := link.val
  if x.st != 3 || s.links.isolated then .next s
  else if x.full then .next (sendIdle l false s)
  else if 400 ≤ x.txSlots.length then .next (sendSlots l s)
  else match x.choose with
    | some (v, p) => .next (sendSlots l (startPacket l v p s))
    | none => .next (if x.txSlots.isEmpty then sendIdle l false s else sendSlots l s)

/-- NAK_RECEIVE (R388). -/
def execNakReceive (link : Fin 32) (ack : BitVec 12) (s : State) : Host.Outcome State Fault Refusal :=
  done (takeNak link ack.toNat s)

/-! ### Receiving a packet (R383) -/

/-- The packet's class is reserved, its VC does not match, or it is for another position. -/
def State.misrouted (s : State) (p : Packet) : Bool := classVc p.cls != some p.vc || p.dstPos != s.myPos

/-- A discarded packet is counted and reported. -/
def misroute (l : Nat) (s : State) : State :=
  reportFault (LogRec.make 5 0x06 St.uncorrectable l) (s.linkCtr l fun c => Ctrs.sat c 9 1)

/-- Hand a packet of a link to its engine, when the link is Active and the packet is one that the engine
expects. -/
def takePacket (l : Nat) (p : Packet) (mine : Bool) (f : State → State) (s : State) :
    Host.Outcome State Fault Refusal :=
  if (s.link l).st != 3 then .next s
  else if s.misrouted p then done (misroute l s)
  else if mine then done (f s)
  else .next s

end Sys2Proof.Machine
end

