-- ==== Sys2Proof/Machine/CleOps.lean ====
section
/-! DEFINITION. The collective engine: an entry's trees and digest (R435, R447), the wire format (R441, R448),
reduction (R440, R442), admission (R444 to R446), the flows of a chunk (R434, R441), seal and abort (R449 to
R451), and what goes to the twin (R508 to R512). -/

namespace Sys2Proof.Machine

/-! ### Trees (R435) -/

/-- This device's place in a tree: the size of the group, the root's rank, its own relative rank, and those of
its parent and of its children. -/
structure Node where
  g : Nat
  root : Nat
  q : Nat
  up : Option Nat
  kids : List Nat

/-- The rank of this device in an entry's group. -/
def State.myRank (s : State) (e : Entry) : Nat :=
  ((s.group e.group).bind fun g => g.pos.findIdx? (· == s.myPos)).getD 0

/-- The place in an entry's tree with root o. -/
def State.nodeFor (s : State) (e : Entry) (o : Nat) : Node :=
  let g := s.groupSize e
  let q := relRank g o (s.myRank e)
  ⟨g, o, q, if q = 0 then none else some ((q - 1) / e.radix), treeKids e.radix g q⟩

/-- The place in the tree of chunk j. -/
def State.nodeAt (s : State) (e : Entry) (j : Nat) : Node := s.nodeFor e (e.chunkRoot (s.groupSize e) j)

/-- The position at a relative rank. -/
def State.posAt (s : State) (e : Entry) (x : Node) (q : Nat) : Nat :=
  ((s.group e.group).map fun (g : Group) => g.pos.getD (rankAt x.g x.root q) 0xFFFF).getD 0xFFFF

/-! ### The digest (R447) -/

/-- The 40 bytes that the digest covers. -/
def digestRecord (e : Entry) (g epoch step fmt : Nat) (texp : Int) : List Byte :=
  natLe 1 e.op ++ natLe 1 e.red ++ natLe 1 fmt ++ natLe 1 (twos 8 texp) ++ natLe 2 e.group ++ natLe 2 g
    ++ natLe 4 epoch ++ natLe 8 e.count ++ natLe 8 (step % 2 ^ 40 * 2 ^ 24 + e.ordinal % 2 ^ 24)
    ++ natLe 2 e.root ++ natLe 1 e.radix ++ natLe 1 e.outfmt ++ natLe 4 e.chunkElems ++ natLe 4 0

/-- The digest of a run. -/
def State.digest (s : State) (e : Entry) (r : Run) : BitVec 32 :=
  crc32c (digestRecord e (s.groupSize e) s.cle.epoch r.step r.fmt r.texp)

/-- The digest that an entry will have in the step after the running one: the decisions for it are written before
any member can commit the running step (R424). -/
def State.nextDigest (s : State) (e : Entry) : BitVec 32 :=
  let f : Nat × Int := if e.gov then
      match SMap.lookup s.num.decided e.tensor with
      | some d => (d.format, d.texp)
      | none => s.govFormat e.tensor
    else (e.fmt, e.texp)
  crc32c (digestRecord e (s.groupSize e) s.cle.epoch (s.spine.step + 1) f.1 f.2)

/-! ### The wire format (R441, R444, R448) -/

/-- Bytes of n elements on the wire. -/
def wireLen (f n : Nat) : Nat :=
  if isBlockFmt f then (elemBits f * n + 7) / 8 + (n + 31) / 32 else elemBits f / 8 * n

/-- The tensor exponent that a format uses (R54). -/
def wireExp (f : Nat) (t : Int) : Int := if f = 3 ∨ f = 4 then t else 0

/-- Blocks of 32 values, the last filled up with +0. -/
def blocksOf32 (vs : List Num) : List (List Num) :=
  (List.range ((vs.length + 31) / 32)).map fun b =>
    let x := (vs.drop (32 * b)).take 32
    x ++ List.replicate (32 - x.length) (.fin false 0 0)

/-- Encode values: elements, then the scale bytes of their blocks. -/
def wireEncode (f : Nat) (t : Int) (vs : List Num) : List Byte :=
  if isBlockFmt f then
    let bs := (blocksOf32 vs).map fun b => blockEncode f (fun _ => .rne) b
    packElems (elemBits f) ((bs.flatMap fun b => b.2.1).take vs.length) ++ bs.map fun b => BitVec.ofNat 8 b.1
  else packElems (elemBits f) (vs.map fun v => (scalarEncode f true .rne (wireExp f t) v).1)

/-- Decode n values. -/
def wireDecode (f : Nat) (t : Int) (n : Nat) (d : List Byte) : List Num :=
  if isBlockFmt f then
    let plane := (elemBits f * n + 7) / 8
    (List.range n).map fun i => blockDecode f (fieldAt d (plane + i / 32) 1) i (elemAt (elemBits f) d i)
  else (List.range n).map fun i => scalarDecode f (wireExp f t) (elemAt (elemBits f) d i)

/-- Bytes of the twin section of k elements (R509). -/
def twinLen (f k : Nat) : Nat := (if f = 1 then 4 * k else 0) + 2 * k + 2 * (k / 32)

/-- Elements in a packet of `len` bytes after its first slot, of which at most n follow. -/
def elemsIn (f : Nat) (twin : Bool) (len n : Nat) : Nat :=
  let size (k : Nat) : Nat := wireLen f k + if twin then twinLen f k else 0
  if size n ≤ len then n else min n (len / size 32 * 32)

/-- Elements of one packet that this device cuts (R509). -/
def pieceElems : Nat := 4096

/-- The pieces of n elements: the first element and the number of each. -/
def piecesFor (n : Nat) : List (Nat × Nat) :=
  (List.range ((n + pieceElems - 1) / pieceElems)).map fun i => (i * pieceElems, min pieceElems (n - i * pieceElems))

/-! ### Packets (R448) -/

/-- PKIND. -/
def collKind (p : Packet) : Nat := fieldAt p.cword 4 1

/-- The packet's TWIN bit. -/
def collTwin (p : Packet) : Bool := (fieldAt p.cword 5 1).testBit 0

/-- A collective packet's first data slot. -/
def collSlot (s : State) (e : Entry) (j off : Nat) : List Byte :=
  natLe 4 s.cle.epoch ++ natLe 4 j ++ natLe 4 off ++ natLe 2 (s.myRank e) ++ natLe 2 e.ordinal

/-- A collective packet of an entry to a position. -/
def collPacket (s : State) (e : Entry) (r : Run) (kind flags dst j off : Nat) (body : List Byte) : Packet :=
  let data := collSlot s e j off ++ body
  ⟨if e.op = 7 then 3 else 2, 1, s.myPos, dst,
    natLe 4 (s.digest e r).toNat ++ natLe 1 kind ++ natLe 1 flags ++ natLe 2 e.group,
    padTo (roundUp data.length 16) data⟩

/-- The bytes of a statistics record in a packet: six counts, the bins, and the step's amax (46). -/
def Stats.bytes (t : Stats) : List Byte :=
  natLe 8 t.nonzero ++ natLe 8 t.zero ++ natLe 8 t.nonfinite ++ natLe 8 t.mx6uf ++ natLe 8 t.mx8uf ++ natLe 8 t.sat
    ++ (List.range 64).flatMap (fun i => natLe 8 (SMap.getD t.hist i 0)) ++ natLe 4 t.amax.toNat

/-- The record in a packet. -/
def Stats.of (d : List Byte) : Stats :=
  let c (i : Nat) : Nat := fieldAt d (8 * i) 8
  ⟨c 0, c 1, c 2, c 3, c 4, c 5, (List.range 64).foldl (fun m i => SMap.setD m 0 i (c (6 + i))) [],
    BitVec.ofNat 32 (fieldAt d 560 4)⟩

/-! ### Reduction (R440, R442) -/

/-- IEEE 754-2019 maximum of exact values. -/
def numMax (a b : Num) : Num :=
  if numIsNaN a || numIsNaN b then .nan
  else if numLt a b then b
  else if numLt b a then a
  else match a with
    | .fin true _ _ => b
    | _ => a

/-- Combine the inputs of one element in order; none with no input. -/
def nodeValue (red : Nat) (ins : List Num) : Option Num :=
  ins.foldl (fun (a : Option Num) v =>
    match a with
    | none => some v
    | some x => some (if red = 1 then numMax x v else val32 (round32 (numAdd x v)).1)) none

/-- A free value as an FP32 value. -/
def freeNum (draw i : Nat) : Num :=
  val32 (BitVec.ofNat 32 (leNat ((List.range 4).map fun k => Config.freeByte draw (4 * i + k))))

/-- The values of n elements from the inputs in order; an element with no input is a free value (`draw`). -/
def nodeValues (red n draw : Nat) (ins : List (SMap Num)) : List Num :=
  (List.range n).map fun i => (nodeValue red (ins.filterMap fun m => SMap.lookup m i)).getD (freeNum draw i)

/-- Combine two statistics records (R79, R442). -/
def Stats.merge (a b : Stats) : Stats where
  nonzero := satAdd a.nonzero b.nonzero
  zero := satAdd a.zero b.zero
  nonfinite := satAdd a.nonfinite b.nonfinite
  mx6uf := satAdd a.mx6uf b.mx6uf
  mx8uf := satAdd a.mx8uf b.mx8uf
  sat := satAdd a.sat b.sat
  hist := (List.range 64).foldl (fun m i => SMap.setD m 0 i (satAdd (SMap.getD a.hist i 0) (SMap.getD b.hist i 0))) []
  amax := max32 a.amax b.amax

/-- Values as a map from element to value. -/
def valueMap (off : Nat) (vs : List Num) (m : SMap Num) : SMap Num :=
  ((List.range vs.length).zip vs).foldl (fun m p => SMap.put m (off + p.1) p.2) m

/-! ### Own contributions (R437, R438, R452) -/

/-- The partition of SRC and DST (44). -/
def State.entryPart (s : State) (e : Entry) : Nat := ((s.chan e.doneChan).map (·.part)).getD 0

/-- The bindings of an entry that supply elements of [a, a + n): their indices, and the span in the chunk. -/
def State.bindsFor (s : State) (k a n : Nat) : List (Nat × Nat × Nat) :=
  let bs := (s.spine.sched.map (·.binds)).getD []
  (((List.range bs.length).zip bs).filter fun p =>
    p.2.entry == k % 4096 && decide (p.2.offset < a + n ∧ a < p.2.offset + p.2.elems)).map fun p =>
      (p.1, p.2.offset - a, min (p.2.offset + p.2.elems) (a + n) - a)

/-- The bindings that supply a chunk of a run: a tail, or a run of an earlier step, takes none. -/
def State.chunkBinds (s : State) (k : Nat) (r : Run) (a n : Nat) : List (Nat × Nat × Nat) :=
  if r.step = s.spine.step ∧ k < 4096 then s.bindsFor k a n else []

/-- Every binding is covered by some tile (42). -/
def Chunk.covered (c : Chunk) (bs : List (Nat × Nat × Nat)) : Bool :=
  bs.all fun b => c.own.any fun o =>
    o.1 % 2 ^ 16 == b.1 && ((List.range (b.2.2 - b.2.1)).all fun i => (SMap.lookup o.2 (b.2.1 + i)).isSome)

/-- The address of SRC for a chunk: an ALL_GATHER's SRC holds the owner's shard (43). -/
def srcAddr (e : Entry) (g a : Nat) : Nat := e.src + 4 * (if e.op = 4 then a % (e.count / g) else a)

/-- SRC of a chunk in FP32; none when a byte is marked bad, which is a bad-data event (R366). -/
def readSrc (e : Entry) (g a n : Nat) (s : State) : Option (List Num) × State :=
  let part := s.entryPart e
  let va := srcAddr e g a
  let r := vaRead part va (4 * n) s
  if r.2.1 then
    let rec0 := (LogRec.make 6 0x03 St.poison 0).atVa part va
    (none, badData rec0 ((s.vaPa part va).toList) r.2.2)
  else (some ((List.range n).map fun i => val32 (BitVec.ofNat 32 (fieldAt r.1 (4 * i) 4))), r.2.2)

/-- The statistics of an entry's tensor close when every reduce-scatter of the tensor in the step is complete on the
device; with none, when the entry is completed (R254, 41). -/
def State.statsClosed (s : State) (e : Entry) (force : Bool) : Bool :=
  let rs := s.cle.runs.filter fun r => decide (r.1 < 4096) &&
    (match s.entryOf r.1 with | some x => x.op == 1 && x.tensor == e.tensor | none => false)
  if rs.isEmpty then force else rs.all fun r => s.runDone r.1 r.2

/-! ### Admission (R444, R445) -/

/-- The bytes that a chunk claims at this member. -/
def State.claimOf (s : State) (e : Entry) (r : Run) (j : Nat) : Nat :=
  let x := s.nodeAt e j
  let n := (e.chunkSpan x.g j).2
  let w := wireLen r.fmt n
  let c := x.kids.length
  match e.op with
  | 6 => 768 * (c + 1)
  | 1 => 4 * n + c * w
  | 3 => 4 * n + c * w
  | 2 => 4 * n + (c + 1) * w
  | 7 => if x.q = 0 then 0 else w
  | _ => w

/-- Runs in schedule order: tails first, the oldest before the others (R445, R452). -/
def State.runOrder (s : State) : List (Nat × Run) :=
  let top := ((s.cle.runs.getLast?).map fun r => r.1 / 4096).getD 0
  (List.range (top + 1)).reverse.flatMap fun b => s.cle.runs.filter fun r => r.1 / 4096 == b

/-- The runs of a section in schedule order, with their entries. -/
def State.sectionRuns (s : State) (sect : Nat) : List (Nat × Entry × Run) :=
  s.runOrder.filterMap fun r =>
    match s.entryOf r.1 with
    | some e => if e.sect = sect ∧ !r.2.aborted then some (r.1, e, r.2) else none
    | none => none

/-- The bytes that a section's chunks claim now. -/
def State.claimed (s : State) (sect : Nat) : Nat :=
  ((s.sectionRuns sect).flatMap fun x =>
    (x.2.2.chunks.filter fun c => c.2.admitted && !c.2.closed).map fun c => s.claimOf x.2.1 x.2.2 c.1).foldl (· + ·) 0

/-- The next chunk that a section admits: its run and index. -/
def State.nextChunk (s : State) (sect : Nat) : Option (Nat × Entry × Run × Nat) :=
  (s.sectionRuns sect).findSome? fun x =>
    ((List.range (x.2.1.chunkCount (s.groupSize x.2.1))).find? fun j => !(x.2.2.chunk j).admitted).map fun j =>
      (x.1, x.2.1, x.2.2, j)

/-- The size of a section's share of the reduction buffer. -/
def sectionBytes : Nat := 2 ^ 24

/-! ### Results (R439, R450) -/

/-- Where the result of a chunk lies from DST on: within the shard for REDUCE_SCATTER (43). -/
def dstOffset (e : Entry) (g a : Nat) : Nat :=
  (if e.outfmt = 1 then 2 else 4) * (if e.op = 1 then a % (e.count / g) else a)

/-- Write a chunk's result in OUTFMT by plain writes. -/
def writeResult (e : Entry) (j : Nat) (c : Chunk) (s : State) : State :=
  match c.statRes with
  | some t => { s with num := { s.num with combined := SMap.put s.num.combined e.tensor t } }
  | none =>
    if c.result.isEmpty then s
    else
      let g := s.groupSize e
      let w := if e.outfmt = 1 then 2 else 4
      vaWrite (s.entryPart e) (e.dst + dstOffset e g (e.chunkSpan g j).1)
        (c.result.flatMap fun v => natLe w (scalarEncode e.outfmt true .rne 0 v).1) s

/-- The last TWIN entry of the schedule. -/
def State.lastTwin (s : State) : Option Nat :=
  let es := (s.spine.sched.map (·.entries)).getD []
  (((List.range es.length).zip es).filter fun p => p.2.twin).getLast?.map (·.1)

/-- The state packets of R512 have been delivered on both sides of this member. -/
def State.twinDone (s : State) (k : Nat) (r : Run) : Bool :=
  s.lastTwin != some k ||
    ((s.rse.mirror.twinPos == 0xFFFF || r.stateSent) && (s.rse.mirror.mirrorOf == 0xFFFF || r.stateGot))

/-- Count chunks complete in order: each increments DONE_EC in every tile of DONE_CHAN. -/
def advance (k : Nat) (e : Entry) : Nat → State → State
  | 0, s => s
  | n + 1, s =>
    match SMap.lookup s.cle.runs k with
    | none => s
    | some r =>
      let last := e.chunkCount (s.groupSize e) ≤ r.complete + 1
      if (r.chunk r.complete).closed && (!last || s.twinDone k r) then
        let s := s.modRun k fun r => { r with complete := r.complete + 1 }
        let tiles := ((s.chan e.doneChan).map Chan.tileList).getD []
        advance k e n (tiles.foldl (fun s t => s.modTile t fun x => x.bumpEc e.doneEc) s)
      else s

/-- Write the results of finished chunks once SEAL has come, and release their claims. -/
def settleRun (k : Nat) (s : State) : State :=
  match SMap.lookup s.cle.runs k, s.entryOf k with
  | some r, some e =>
    if !r.sealed || r.aborted then s
    else
      let s := (r.chunks.filter fun c => c.2.done && !c.2.closed).foldl (fun s c =>
        ((writeResult e c.1 c.2 s).modChunk k c.1 fun _ => { Chunk.reset with admitted := true, done := true, closed := true }).cleCtr
          fun n => Ctrs.wrap n 0 1) s
      advance k e (e.chunkCount (s.groupSize e)) s
  | _, _ => s

/-! ### The twin (R508 to R512) -/

/-- The elements of this device's shard that earlier TWIN entries cover. -/
def State.twinBase (s : State) (k : Nat) : Nat :=
  let es := (s.spine.sched.map (·.entries)).getD []
  (((es.take (k % 4096)).filter (·.twin)).map fun e => e.count / s.groupSize e).foldl (· + ·) 0

/-- The alternate bank in the running step (R506). -/
def State.altBank (s : State) (mirror : Bool) : Nat :=
  let m := s.rse.mirror
  if s.spine.step % 2 = 0 then (if mirror then m.mbank0 else m.bank0) else (if mirror then m.mbank1 else m.bank1)

/-- The bytes of a twin section that follow LOW and DELTA, and where they lie in a bank of n elements. -/
def momentPlanes (n e k : Nat) : List (Nat × Nat) :=
  [(4 * n + e, k), (5 * n + e / 32, k / 32), (5 * n + n / 32 + e, k), (6 * n + n / 32 + e / 32, k / 32)]

/-- LOW and DELTA of k parameters (R509). -/
def lowDelta (params wire : List Byte) (k : Nat) : List Byte :=
  (List.range k).flatMap (fun i => natLe 2 (fieldAt params (4 * i) 2))
    ++ (List.range k).flatMap fun i => natLe 2 (fieldAt params (4 * i + 2) 2 + 2 ^ 16 - fieldAt wire (2 * i) 2)

/-- The twin section for elements e to e + k − 1 of the shard, whose wire elements are given. -/
def twinSection (f e k : Nat) (wire : List Byte) (s : State) : List Byte × State :=
  let m := s.rse.mirror
  let bank := s.altBank false
  let p := vaRead m.part (bank + 4 * e) (4 * k) s
  let head := if f = 1 then lowDelta p.1 wire k else []
  (momentPlanes m.n e k).foldl (fun (a : List Byte × State) q =>
    let r := vaRead m.part (bank + q.1) q.2 a.2
    (a.1 ++ r.1, r.2.2)) (head, if f = 1 then p.2.2 else s)

/-- The parameter patterns that the twin rebuilds (R511). -/
def twinParams (f k : Nat) (wire sec : List Byte) : List Byte :=
  if f = 1 then (List.range k).flatMap fun i =>
    natLe 2 (fieldAt sec (2 * i) 2) ++ natLe 2 (fieldAt wire (2 * i) 2 + fieldAt sec (2 * k + 2 * i) 2)
  else wire.take (4 * k)

/-- The twin keeps elements e to e + k − 1 in its alternate mirror bank. -/
def keepMirror (f e k : Nat) (wire sec : List Byte) (s : State) : State :=
  let m := s.rse.mirror
  let bank := s.altBank true
  let s := vaWrite m.part (bank + 4 * e) (twinParams f k wire sec) s
  let o := if f = 1 then 4 * k else 0
  let r := (momentPlanes m.mn e k).foldl (fun (a : Nat × State) q =>
    (a.1 + q.2, vaWrite m.part (bank + q.1) ((sec.drop a.1).take q.2) a.2)) (o, s)
  let s := r.2
  ({ s with rse := { s.rse with mirroredU := s.rse.mirroredU + k } } : State).rseCtr fun c => Ctrs.wrap c 8 k

/-- The ready word (R510). -/
def readyWord (s : State) : Nat × State :=
  let r := vaRead s.rse.mirror.part s.rse.mirror.readyVa 8 s
  (leNat r.1, r.2.2)

/-- The 48 bytes of an ingest state record (R484). -/
def IgeState.bytes (r : IgeState) : List Byte :=
  natLe 8 r.epoch ++ natLe 8 r.pos ++ natLe 8 (r.carried.getD (2 ^ 64 - 1)) ++ natLe 8 r.offset ++ natLe 8 r.j
    ++ natLe 8 r.limitsGen

/-- The ingest record that the commit of the running step will retain. -/
def State.nextIngest (s : State) : IgeState := (SMap.lookup s.ige.marks (s.spine.step + 1)).getD s.ige.cur

/-- The owner state of R512. -/
def ownerState (s : State) : List Byte :=
  padTo 64 s.nextIngest.bytes ++ s.mem.fx.flatMap fun r => (List.range r.2.frames.length).flatMap fun i =>
    let b := SMap.getD r.2.blocks i FxBlock.reset
    natLe 1 (twos 8 (b.eNext.getD b.e)) ++ natLe 1 (if b.satU then 1 else 0) ++ natLe 2 0 ++ natLe 4 b.amaxU.toNat

/-- Chunks of an entry that this device owns. -/
def State.ownChunks (s : State) (e : Entry) : List Nat :=
  (List.range (e.chunkCount (s.groupSize e))).filter fun j => (s.nodeAt e j).q == 0

/-- Send the state packets once the decisions are written and every own chunk of the last TWIN entry has gone. Their
ELEM_OFFSET is the chunk's length and the byte offset, and a packet with less than 4,096 bytes is the last (46). -/
def sendOwnerState (s : State) : State :=
  match s.lastTwin with
  | none => s
  | some k =>
    match SMap.lookup s.cle.runs k, s.entryOf k with
    | some r, some e =>
      let mine := s.ownChunks e
      if r.stateSent || !s.num.govDone || s.rse.mirror.twinPos = 0xFFFF || !(mine.all fun j => (r.chunk j).valued || (r.chunk j).closed)
      then s
      else
        let d := ownerState s
        let j := mine.getLast?.getD 0
        let n := (e.chunkSpan (s.groupSize e) j).2
        let s := (List.range (d.length / 4096 + 1)).foldl (fun s i =>
          sendTo (collPacket s e r 1 3 s.rse.mirror.twinPos j (n + 4096 * i) ((d.drop (4096 * i)).take 4096)) s) s
        settleRun k (s.modRun k fun r => { r with stateSent := true })
    | _, _ => s

/-- The twin takes state packets. -/
def takeOwnerState (k off : Nat) (d : List Byte) (s : State) : State :=
  let s := { s with rse := { s.rse with ownerU := splice (padTo (max off s.rse.ownerU.length) s.rse.ownerU) off d } }
  if 4096 ≤ d.length then s else settleRun k (s.modRun k fun r => { r with stateGot := true })

/-! ### The flows of a chunk (R434, R440, R441) -/

/-- Send a chunk's encoded value up, in pieces. -/
def sendUp (e : Entry) (r : Run) (j : Nat) (x : Node) (vs : List Num) (s : State) : State :=
  match x.up with
  | none => s
  | some q => (piecesFor vs.length).foldl (fun s p =>
      sendTo (collPacket s e r 0 (if vs.length ≤ p.1 + p.2 then 2 else 0) (s.posAt e x q) j p.1
        (wireEncode r.fmt r.texp ((vs.drop p.1).take p.2))) s) s

/-- One piece of a root's value on its way down: to every child, and to the twin of a TWIN chunk's owner, with
one packet where the twin is a child (R508). -/
def sendPieceDown (k j : Nat) (e : Entry) (r : Run) (x : Node) (n : Nat) (p : Nat × Nat) (wire : List Byte) (s : State) : State :=
  let last := if n ≤ p.1 + p.2 then 2 else 0
  let t := s.rse.mirror.twinPos
  let twin := e.twin && t != 0xFFFF
  let s := if !twin then s
    else
      let e0 := s.twinBase k + (e.chunkSpan x.g j).1 % (e.count / x.g) + p.1
      let sec := twinSection r.fmt e0 p.2 wire s
      sendTo (collPacket sec.2 e r 1 (last + 1) t j p.1 (wire ++ sec.1)) sec.2
  x.kids.foldl (fun s q =>
    let dst := s.posAt e x q
    if twin && dst == t then s else sendTo (collPacket s e r 1 last dst j p.1 wire) s) s

/-- A root's value goes down; the root's own result is the decoded value. -/
def sendDown (k j : Nat) (e : Entry) (r : Run) (x : Node) (vs : List Num) (s : State) : List Num × State :=
  (piecesFor vs.length).foldl (fun (a : List Num × State) p =>
    let wire := wireEncode r.fmt r.texp ((vs.drop p.1).take p.2)
    (a.1 ++ wireDecode r.fmt r.texp p.2 wire, sendPieceDown k j e r x vs.length p wire a.2)) ([], s)

/-- The statistics of an entry are formed: own, then the children's (R442). -/
def formStats (k j : Nat) (e : Entry) (r : Run) (c : Chunk) (x : Node) (s : State) : State :=
  let own := SMap.getD s.num.gathered e.tensor Stats.reset
  let t := c.statKids.foldl (fun a p => a.merge p.2) own
  let s := s.modChunk k j fun c => { c with valued := true }
  match x.up with
  | some q => sendTo (collPacket s e r 0 2 (s.posAt e x q) j 0 t.bytes) s
  | none =>
    let s := x.kids.foldl (fun s q => sendTo (collPacket s e r 1 2 (s.posAt e x q) j 0 t.bytes) s) s
    s.modChunk k j fun c => { c with statRes := some t, done := true }

/-- The value of a chunk is formed at a member with an up flow, and goes to the parent; a root keeps it, or sends it
down. -/
def formUp (k j : Nat) (e : Entry) (r : Run) (c : Chunk) (x : Node) (n : Nat) (src : List (SMap Num)) (s : State) : State :=
  let d := s.draw
  let vs := nodeValues e.red n d.1 (c.own.map (·.2) ++ src ++ c.kids.map (·.2))
  let s := d.2
  match x.up with
  | some _ =>
    let s := sendUp e r j x vs s
    s.modChunk k j fun c => { c with valued := true, done := e.op != 2, own := [], kids := [] }
  | none =>
    if e.op = 2 then
      let y := sendDown k j e r x vs s
      y.2.modChunk k j fun c => { c with valued := true, done := true, result := y.1, own := [], kids := [] }
    else s.modChunk k j fun c => { c with valued := true, done := true, result := vs, own := [], kids := [] }

/-- The root of a down flow sends its data. -/
def formDown (k j : Nat) (e : Entry) (r : Run) (c : Chunk) (x : Node) (n : Nat) (src : List (SMap Num)) (s : State) : State :=
  let d := s.draw
  let vs := nodeValues e.red n d.1 (c.own.map (·.2) ++ src)
  let y := sendDown k j e r x vs d.2
  y.2.modChunk k j fun c => { c with valued := true, done := true, result := if e.op = 7 then [] else y.1, own := [] }

/-- A map holds the n elements of a chunk. -/
def wholeMap (n : Nat) (m : SMap Num) : Bool := n ≤ m.length

/-- The input of a chunk that came last: it counts for its sender's position, with the ticks by which it trailed the input
before it (R461). -/
def noteLast (pos at_ : Nat) (before : Option Nat) (s : State) : State :=
  { s with spine := { s.spine with
    lateInput := SMap.updD s.spine.lateInput (0, 0) pos fun v => (v.1 + 1, v.2 + (at_ - before.getD at_)) } }

/-- The member's own streams came after every child's input. -/
def noteOwn (bs : List (Nat × Nat × Nat)) (c : Chunk) (x : Node) (s : State) : State :=
  if c.noted || bs.isEmpty || x.kids.isEmpty then s
  else noteLast s.myPos (c.ownAt.getD s.spine.tick) (c.lastIn.map (·.1)) s

/-- The bank ready word lets the twin section of a chunk be read (R510). -/
def twinReady (k j : Nat) (e : Entry) (x : Node) (n : Nat) (s : State) : Bool × State :=
  if !e.twin || s.rse.mirror.twinPos = 0xFFFF then (true, s)
  else
    let w := readyWord s
    (decide (s.twinBase k + (e.chunkSpan x.g j).1 % (e.count / x.g) + n ≤ w.1), w.2)

/-- Move a chunk on as far as its inputs allow. Chunks that take streams are formed only when they are completed
(`force`, 42). -/
def progress (k j : Nat) (force : Bool) (s : State) : State :=
  match SMap.lookup s.cle.runs k, s.entryOf k with
  | some r, some e =>
    let c := r.chunk j
    if !r.started || r.aborted || r.stopped || !c.admitted || c.done then s
    else
      let x := s.nodeAt e j
      let span := e.chunkSpan x.g j
      let n := span.2
      if e.op = 6 then
        if c.valued then s
        else if (x.kids.all fun q => (SMap.lookup c.statKids q).isSome) && (x.up.isNone || c.credit)
            && s.statsClosed e force then settleRun k (formStats k j e r c x s)
        else s
      else
        let upOp := e.op == 1 || e.op == 2 || e.op == 3
        let bs := s.chunkBinds k r span.1 n
        let fed := bs.isEmpty || (force && c.covered bs)
        let forms :=
          if upOp then !c.valued && fed && (x.up.isNone || c.credit) && (x.kids.all fun q => wholeMap n (SMap.getD c.kids q []))
          else !c.valued && fed && x.q == 0
        if forms then
          let w := twinReady k j e x n s
          if !w.1 then w.2
          else
            let src : Option (List (SMap Num)) × State := if e.src = 0 then (some [], w.2)
              else
                let v := readSrc e x.g span.1 n w.2
                (v.1.map fun l => [valueMap 0 l []], v.2)
            match src.1 with
            | none => src.2.modRun k fun r => { r with stopped := true }
            | some rows =>
              let s := if upOp then formUp k j e r c x n rows (noteOwn bs c x src.2) else formDown k j e r c x n rows src.2
              sendOwnerState (settleRun k s)
        else if x.up.isSome && wholeMap n c.down && (c.valued || !upOp) && (e.op != 1 && e.op != 3) then
          let vs := (List.range n).map fun i => SMap.getD c.down i (.fin false 0 0)
          settleRun k (s.modChunk k j fun c => { c with valued := true, done := true, result := vs, down := [] })
        else s
  | _, _ => s

/-- Move every statistics entry on, when a reduce-scatter may have completed (R254). -/
def progressStats (s : State) : State :=
  (s.cle.runs.filter fun r => match s.entryOf r.1 with | some e => e.op == 6 | none => false).foldl
    (fun s r => progress r.1 0 false s) s

/-- Move a chunk on, and what waits for it. -/
def moveOn (k j : Nat) (force : Bool) (s : State) : State := progressStats (progress k j force s)

/-! ### Seal and abort (R449 to R451) -/

/-- Insert a triple by position; equal digests add up. -/
def addTriple (t : Triple) (l : List Triple) : List Triple :=
  if l.any fun u => u.digest == t.digest then
    l.map fun u => if u.digest = t.digest then { u with count := u.count + t.count, pos := min u.pos t.pos } else u
  else l ++ [t]

/-- Triples in ascending position. -/
def sortTriples (l : List Triple) : List Triple :=
  l.foldl (fun m t => (m.takeWhile fun u => decide (u.pos ≤ t.pos)) ++ [t] ++ m.dropWhile fun u => decide (u.pos ≤ t.pos)) []

/-- The merged list of a member: at most the four lowest positions, and OVERFLOW. -/
def mergeTriples (ls : List (List Triple)) (more : Bool) : List Triple × Bool :=
  let l := sortTriples (ls.foldl (fun a x => x.foldl (fun a t => addTriple t a) a) [])
  (l.take 4, more || decide (4 < l.length))

/-- A list in a packet: count, OVERFLOW, then the triples (46). -/
def tripleBytes (l : List Triple) (more : Bool) : List Byte :=
  natLe 1 l.length ++ natLe 1 (if more then 1 else 0) ++ natLe 6 0
    ++ l.flatMap fun t => natLe 4 t.digest.toNat ++ natLe 2 t.count ++ natLe 2 t.pos

/-- The list in a packet. -/
def triplesOf (d : List Byte) : List Triple × Bool :=
  ((List.range (min 4 (fieldAt d 0 1))).map fun i =>
    ⟨BitVec.ofNat 32 (fieldAt d (8 + 8 * i) 4), fieldAt d (12 + 8 * i) 2, fieldAt d (14 + 8 * i) 2⟩,
    fieldAt d 1 1 != 0)

/-- The position that rank 0 names (R451). -/
def namedPos (g : Nat) (l : List Triple) : Nat :=
  match l.find? fun t => decide (g < 2 * t.count) with
  | some m => (((l.filter fun t => t.digest != m.digest).head?).map (·.pos)).getD 0xFFFF
  | none => ((l.drop 1).head?.map (·.pos)).getD 0xFFFF

/-- An entry is aborted: its claims are released, DST stays, and the mismatch is a deterministic fault. -/
def abortRun (k named : Nat) (l : List Triple) (s : State) : State :=
  match SMap.lookup s.cle.runs k, s.entryOf k with
  | some r, some e =>
    if r.aborted then s
    else
      let rec0 : AbortRec := ⟨e.group, e.ordinal, r.step % 2 ^ 40 * 2 ^ 24 + e.ordinal % 2 ^ 24, named, l⟩
      let s := s.modRun k fun r => { r with aborted := true, chunks := [] }
      let s := ({ s with cle := { s.cle with abort := some rec0 } } : State).cleCtr fun c => Ctrs.sat c 2 1
      reportFault { LogRec.make 6 0x32 St.collMismatch 0 with detail := e.group } s
  | _, _ => s

/-- Send SEAL or ABORT to the children in the tree for root 0. -/
def sealDown (e : Entry) (r : Run) (kind : Nat) (body : List Byte) (s : State) : State :=
  let x := s.nodeFor e 0
  x.kids.foldl (fun s q => sendTo (collPacket s e r kind 0 (s.posAt e x q) 0 0 body) s) s

/-- SEAL reaches a member. -/
def sealRun (k : Nat) (s : State) : State := progressStats (settleRun k (s.modRun k fun r => { r with sealed := true }))

/-- Once a started member has its children's lists, it passes the merged list up; rank 0 decides. -/
def summarise (k : Nat) (s : State) : State :=
  match SMap.lookup s.cle.runs k, s.entryOf k with
  | some r, some e =>
    let x := s.nodeFor e 0
    if !r.started || r.summed || !(x.kids.all fun q => (SMap.lookup r.kids q).isSome) then s
    else
      let m := mergeTriples ([⟨s.digest e r, 1, s.myPos⟩] :: r.kids.map (·.2)) r.overflow
      let s := s.modRun k fun r => { r with summed := true }
      match x.up with
      | some q => sendTo (collPacket s e r 3 0 (s.posAt e x q) 0 0 (tripleBytes m.1 m.2)) s
      | none =>
        if m.1.length = 1 then sealRun k (sealDown e r 4 [] s)
        else
          let named := namedPos x.g m.1
          let body := natLe 2 named ++ natLe 6 0 ++ tripleBytes m.1 m.2
          abortRun k named m.1 (sealDown e r 5 body s)
  | _, _ => s

/-! ### What a packet brings -/

/-- Where a collective packet belongs. -/
inductive CollFor where
  /-- A run, by its key. -/
  | run (k : Nat)
  /-- A run of the running step whose digest differs. -/
  | differs (k : Nat)
  /-- It waits at its link: its step, or its epoch, has not come. -/
  | later
  /-- Its epoch is over. -/
  | refused
  | none
  deriving DecidableEq, Repr

/-- The entry that a packet names: its index and itself. -/
def State.namedEntry (s : State) (p : Packet) : Option (Nat × Entry) :=
  let es := (s.spine.sched.map (·.entries)).getD []
  ((List.range es.length).zip es).find? fun x =>
    x.2.group == fieldAt p.cword 6 2 && x.2.ordinal % 2 ^ 16 == fieldAt p.data 14 2

/-- Find where a packet belongs (R450, R456). -/
def State.collFor (s : State) (p : Packet) : CollFor :=
  let epoch := fieldAt p.data 0 4
  let d := BitVec.ofNat 32 (fieldAt p.cword 0 4)
  if epoch < s.cle.epoch then .refused
  else if s.cle.epoch < epoch then .later
  else match s.namedEntry p with
    | none => .none
    | some (i, e) =>
      match s.cle.runs.find? fun r => r.1 % 4096 == i && s.digest e r.2 == d with
      | some r => .run r.1
      | none =>
        if !s.spine.started || d == s.nextDigest e then .later
        else if (SMap.lookup s.cle.runs i).isSome then .differs i
        else .none

/-- Hold a packet at its link. -/
def holdPacket (l : Nat) (p : Packet) (s : State) : State :=
  { s with cle := { s.cle with heldPkts := s.cle.heldPkts ++ [(l, p)] } }

/-- A child's input is whole: it is the last when the other children's are in and the member's own streams are (R461). -/
def noteInput (k j : Nat) (x : Node) (e : Entry) (src n : Nat) (s : State) : State :=
  match SMap.lookup s.cle.runs k with
  | none => s
  | some r =>
    let c := r.chunk j
    let bs := s.chunkBinds k r (e.chunkSpan x.g j).1 n
    let last := if e.op = 6 then x.kids.all fun q => (SMap.lookup c.statKids q).isSome
      else (x.kids.all fun q => wholeMap n (SMap.getD c.kids q [])) && c.covered bs
    let t := s.spine.tick
    let before := ((c.lastIn.map (·.1)).toList ++ c.ownAt.toList).max?
    (if last then noteLast src t before s else s).modChunk k j fun c => { c with lastIn := some (t, src), noted := last }

/-- Up data of a child (R440). -/
def takeUp (k : Nat) (p : Packet) (s : State) : State :=
  match SMap.lookup s.cle.runs k, s.entryOf k with
  | some r, some e =>
    let j := fieldAt p.data 4 4
    let off := fieldAt p.data 8 4
    let x := s.nodeAt e j
    let n := (e.chunkSpan x.g j).2
    let c := r.chunk j
    let q := relRank x.g x.root (fieldAt p.data 12 2)
    let body := p.data.drop 16
    if r.stopped || r.aborted || c.valued || !x.kids.contains q || e.chunkCount x.g ≤ j then s
    else if e.op = 6 then
      let s := s.modChunk k j fun c => { c with statKids := SMap.put c.statKids q (Stats.of body) }
      moveOn k j false (noteInput k j x e p.srcPos n s)
    else
      let m := elemsIn r.fmt false body.length (n - off)
      let vs := wireDecode r.fmt r.texp m body
      let s := s.modChunk k j fun c => { c with kids := SMap.updD c.kids [] q (valueMap off vs) }
      let s := if n ≤ (SMap.getD c.kids q []).length + m then noteInput k j x e p.srcPos n s else s
      moveOn k j false s
  | _, _ => s

/-- Down data from the parent, or a packet towards the twin (R441, R509). The elements go on down unchanged. -/
def takeDown (k : Nat) (p : Packet) (s : State) : State :=
  match SMap.lookup s.cle.runs k, s.entryOf k with
  | some r, some e =>
    let j := fieldAt p.data 4 4
    let off := fieldAt p.data 8 4
    let x := s.nodeAt e j
    let span := e.chunkSpan x.g j
    let c := r.chunk j
    let rank := fieldAt p.data 12 2
    let q := relRank x.g x.root rank
    let flags := fieldAt p.cword 5 1
    let body := p.data.drop 16
    if r.stopped || r.aborted || e.chunkCount x.g ≤ j then s
    else if flags.testBit 0 && span.2 ≤ off then
      if p.srcPos = s.rse.mirror.mirrorOf ∧ s.lastTwin = some k then takeOwnerState k (off - span.2) body s else s
    else if e.op = 6 then
      if x.up != some q || c.statRes.isSome then s
      else
        let s := x.kids.foldl (fun s d => sendTo (collPacket s e r 1 2 (s.posAt e x d) j 0 (padTo 564 body)) s) s
        progressStats (settleRun k (s.modChunk k j fun c => { c with statRes := some (Stats.of body), valued := true, done := true }))
    else
      let twin := flags.testBit 0
      let m := elemsIn r.fmt twin body.length (span.2 - off)
      let wire := body.take (wireLen r.fmt m)
      let s := if twin && p.srcPos == s.rse.mirror.mirrorOf then
          keepMirror r.fmt (s.twinBase k + span.1 % (e.count / x.g) + off) m wire (body.drop (wireLen r.fmt m)) s
        else s
      if x.up != some q || c.done then s
      else
        let s := x.kids.foldl (fun s d =>
          sendTo (collPacket s e r 1 (flags / 2 % 2 * 2) (s.posAt e x d) j off wire) s) s
        let s := s.modChunk k j fun c => { c with down := valueMap off (wireDecode r.fmt r.texp m wire) c.down }
        moveOn k j false s
  | _, _ => s

/-- A credit of the parent (R446). -/
def takeCredit (k : Nat) (p : Packet) (s : State) : State :=
  match s.entryOf k with
  | some e =>
    let j := fieldAt p.data 4 4
    let x := s.nodeAt e j
    if x.up == some (relRank x.g x.root (fieldAt p.data 12 2)) then
      moveOn k j false (s.modChunk k j fun c => { c with credit := true })
    else s
  | none => s

/-- A seal summary of a child (R449). -/
def takeSummary (k : Nat) (p : Packet) (s : State) : State :=
  match s.entryOf k with
  | some e =>
    let x := s.nodeFor e 0
    let q := relRank x.g 0 (fieldAt p.data 12 2)
    let t := triplesOf (p.data.drop 16)
    if !x.kids.contains q then s
    else summarise k (s.modRun k fun r => { r with kids := SMap.put r.kids q t.1, overflow := r.overflow || t.2 })
  | none => s

/-- SEAL or ABORT from the parent in the tree for root 0: it goes on down, and is applied. -/
def takeSeal (k : Nat) (p : Packet) (s : State) : State :=
  match SMap.lookup s.cle.runs k, s.entryOf k with
  | some r, some e =>
    let x := s.nodeFor e 0
    let q := relRank x.g 0 (fieldAt p.data 12 2)
    let body := p.data.drop 16
    if x.up != some q || r.sealed || r.aborted then s
    else if collKind p = 4 then sealRun k (sealDown e r 4 [] s)
    else abortRun k (fieldAt body 0 2) (triplesOf (body.drop 8)).1 (sealDown e r 5 body s)
  | _, _ => s

/-- The run that a packet of the seal belongs to: its entry's, by the step that its digest tells of, or the running
one when the digests differ. -/
def applyColl (k : Nat) (p : Packet) (s : State) : State :=
  match collKind p with
  | 0 => takeUp k p s
  | 1 => takeDown k p s
  | 2 => takeCredit k p s
  | 3 => takeSummary k p s
  | _ => takeSeal k p s

/-- Take a collective packet (R450, R456): one whose digest differs stops the entry's combining and is discarded; the
seal's own packets carry their sender's digest and are taken. -/
def takeColl (l : Nat) (p : Packet) (s : State) : State :=
  match s.collFor p with
  | .run k => applyColl k p s
  | .differs k =>
    if 3 ≤ collKind p then applyColl k p s
    else s.modRun k fun r => { r with stopped := true }
  | .later => holdPacket l p s
  | .refused => s.cleCtr fun c => Ctrs.sat c 3 1
  | .none => s

/-- Deliver the packets that were held at their links. -/
def redeliver (s : State) : State :=
  s.cle.heldPkts.foldl (fun s x => takeColl x.1 x.2 s) { s with cle := { s.cle with heldPkts := [] } }

/-- A step's first tick, with the packets that waited for it. -/
def enterStep (s : State) : State := redeliver (beginStep s)

end Sys2Proof.Machine
end

