-- ==== Sys2Proof/Machine/SpineOps.lean ====
section
/-! DEFINITION. Spine time (R410 to R415), the STATUS aggregate (R420),
readiness (R424), and how a schedule starts and a step is committed (R425 to R429). -/

namespace Sys2Proof.Machine

/-! ### Packets of the Spine -/

/-- SKIND of a Spine packet. -/
def skindOf (p : Packet) : Nat := fieldAt p.cword 0 1

/-! ### Spine time (R410 to R415) -/

/-- The counter in ns. -/
def Spine.time (x : Spine) : Int := (x.tick * 1000 + x.phase : Nat)

/-- Set the counter. -/
def Spine.setTime (x : Spine) (t : Int) : Spine :=
  { x with tick := (t / 1000 % 2 ^ 48).toNat, phase := (t % 1000).toNat }

/-- A SYNC packet's data (R419). -/
def syncBytes (s : State) : List Byte :=
  natLe 2 s.spine.phase ++ natLe 2 ((s.links.table.map (·.herdId)).getD 0xFFFF) ++ natLe 4 s.spine.gen
    ++ natLe 8 (s.spine.step % 2 ^ 64)

/-- Send SYNC on every Active link but some, with HOPS h; the stamp is put right when the flit leaves. -/
def sendSync (h : Nat) (but : List Nat) (s : State) : State :=
  (s.activeLinks.filter fun l => !but.contains l).foldl (fun s l =>
    sendOn l { spinePacket s 1 (s.peerOf l) (syncBytes s) with
      cword := spineWord 1 h s.spine.cand s.spine.tick } s) s

/-- The neighbour that offers the fewest HOPS over a nonempty link set; ties go to the lowest position. -/
def State.bestParent (s : State) : Option (Nat × Nat) :=
  (s.spine.heard.filter fun h => !(s.linkSet h.1).isEmpty).foldl (fun (b : Option (Nat × Nat)) h =>
    match b with
    | some x => if h.2 < x.2 then some h else b
    | none => some h) none

/-- Choose the Spine parent (R412): the parent stays until it offers more HOPS or its link set empties (77). -/
def chooseParent (s : State) : State :=
  let x := s.spine
  let keep := match x.parent with
    | some p => !(s.linkSet p).isEmpty && decide (SMap.getD x.heard p 16 ≤ x.hops)
    | none => false
  if keep then
    { s with spine := { x with hops := SMap.getD x.heard (x.parent.getD 0) x.hops } }
  else match s.bestParent with
    | some b => { s with spine := { x with parent := some b.1, hops := b.2 } }
    | none => { s with spine := { x with parent := none } }

/-- Follow another acting Stag (R417). -/
def followStag (gen cand : Nat) (s : State) : State :=
  let s := { s with spine := { s.spine with
    gen := gen, cand := cand, stag := false, newStag := false, parent := none, heard := [], children := [] } }
  s.cleCtr fun c => Ctrs.sat c 9 1

/-- The time that a SYNC from the parent brings (R413, R415): a member that has joined a running schedule slews,
and beyond 1 µs raises a fault and then sets its counter. -/
def takeTime (expected : Int) (s : State) : State :=
  let offset := expected - s.spine.time
  let s := { s with spine := { s.spine with offset := offset } }
  if !s.spine.running then { s with spine := { s.spine.setTime expected with slew := 0 } }
  else if 1000 < offset.natAbs then
    let s := reportFault (LogRec.make 6 0x07 St.uncorrectable 0) s
    let s := { s with spine := { s.spine.setTime expected with slew := 0 } }
    s.cleCtr fun c => Ctrs.sat c 7 1
  else { s with spine := { s.spine with slew := offset } }

/-- A SYNC of the herd (R412, R413, R417). -/
def takeSync (l : Nat) (p : Packet) (s : State) : State :=
  let hops := fieldAt p.cword 1 1 % 16
  let cand := fieldAt p.cword 1 1 / 16 % 4
  let gen := fieldAt p.data 4 4
  let x := s.spine
  if some (fieldAt p.data 2 2) ≠ s.links.table.map (·.herdId) then s
  else if gen < x.gen ∨ (gen = x.gen ∧ x.cand < cand) then { s with spine := { x with lastSync := x.tick } }
  else if x.stag ∧ gen = x.gen ∧ cand = x.cand then s
  else
    let s := if x.gen < gen ∨ cand < x.cand then followStag gen cand s else s
    let s := chooseParent { s with spine := { s.spine with heard := SMap.put s.spine.heard p.srcPos hops } }
    if s.spine.parent ≠ some p.srcPos then { s with spine := { s.spine with lastSync := s.spine.tick } }
    else
      let stamp := fieldAt p.cword 2 6 * 1000 + fieldAt p.data 0 2
      let s := takeTime ((stamp + (s.link l).latency : Nat) : Int) s
      let s := { s with spine := { s.spine with lastSync := s.spine.tick } }
      if hops < 15 then sendSync (hops + 1) (s.linkSet p.srcPos) s else s

/-! ### STATUS (R420) -/

/-- The fields of a STATUS packet. -/
def StatusRec.of (d : List Byte) : StatusRec :=
  ⟨fieldAt d 0 8, fieldAt d 8 6, fieldAt d 14 6, fieldAt d 20 2, fieldAt d 22 2, fieldAt d 24 4, fieldAt d 28 2,
    (fieldAt d 30 1).testBit 0, (fieldAt d 30 1).testBit 1⟩

/-- The data of a STATUS packet. -/
def StatusRec.bytes (r : StatusRec) : List Byte :=
  natLe 8 r.applied ++ natLe 6 r.clean ++ natLe 6 r.readyTick ++ natLe 2 r.lastPos ++ natLe 2 r.count
    ++ natLe 4 r.epochPending ++ natLe 2 r.pathNs ++ natLe 1 ((if r.ready then 1 else 0) + if r.drained then 2 else 0)

/-- Every step-periodic channel that has started has ended its step (R138). A channel that is armed for a later
step does not count. -/
def State.chansEnded (s : State) : Bool :=
  s.runningChans.all fun k =>
    match s.chan k with
    | some x => !((x.header.map (·.periodic)).getD false && x.started) || s.chanDone x
    | none => true

/-- Every entry of the running step that the commit needs is complete (R424), but for those that `skip` names. -/
def State.entriesDone (s : State) (skip : Entry → Bool) : Bool :=
  s.cle.runs.all fun r => decide (4096 ≤ r.1) || s.runDone r.1 r.2 ||
    (match s.entryOf r.1 with | some e => !e.commitNeed || skip e | none => false)

/-- The work of the running step is done (R424). -/
def State.workDone (s : State) : Bool := s.chansEnded && s.entriesDone fun _ => false

/-- The member is ready (R424); in a takeover, when no takeover is in progress on it (R516). -/
def State.isReady (s : State) : Bool :=
  if s.rse.window = 2 then s.rse.takeover.isNone && s.spine.sched.isSome
  else s.spine.running && s.spine.started && s.rse.window == 0 && s.num.govDone && s.workDone

/-- Note the tick at which the member became ready. -/
def noteReady (s : State) : State :=
  { s with spine := { s.spine with
    readyTick := if s.isReady then some (s.spine.readyTick.getD s.spine.tick) else none } }

/-- No entry of the current epoch is in flight, tails included (R454). -/
def State.drained (s : State) : Bool := s.cle.runs.all fun r => !r.2.started || s.runDone r.1 r.2

/-- All ones in 48 bits. -/
def ones48 : Nat := 2 ^ 48 - 1

/-- The member's own state. -/
def State.ownStatus (s : State) : StatusRec :=
  { applied := s.spine.committed.getD 0
    clean := match s.spine.stamps with
      | [] => s.spine.tick
      | t :: ts => ts.foldl min t - 1
    readyTick := s.spine.readyTick.getD ones48
    lastPos := s.myPos
    count := 1
    epochPending := (s.cle.pend.map (·.epoch)).getD 0
    pathNs := 0
    ready := s.isReady
    drained := s.drained }

/-- Merge a child's state, over a link of some latency. -/
def StatusRec.merge (a b : StatusRec) (latency : Nat) : StatusRec :=
  let later := a.readyTick < b.readyTick || (a.readyTick == b.readyTick && b.lastPos < a.lastPos)
  { applied := max a.applied b.applied
    clean := min a.clean b.clean
    readyTick := if later then b.readyTick else a.readyTick
    lastPos := if later then b.lastPos else a.lastPos
    count := a.count + b.count
    epochPending := if a.epochPending = b.epochPending then a.epochPending else 0xFFFFFFFF
    pathNs := max a.pathNs (b.pathNs + latency + 200)
    ready := a.ready && b.ready
    drained := a.drained && b.drained }

/-- The aggregate of the member and its children (79). -/
def State.aggregate (s : State) : StatusRec :=
  s.spine.children.foldl (fun a c =>
    match s.linkSet c.1 with
    | l :: _ => a.merge c.2 (s.link l).latency
    | [] => a) s.ownStatus

/-- SPINE_ROUND from the aggregate (R426). -/
def roundOf (pathNs : Nat) : Nat := (2 * pathNs + 999) / 1000 + 4

/-! ### A schedule starts, a commit is decided (R425 to R429, R460) -/

/-- The schedule starts with a step whose first tick is F; a pending epoch takes effect (R455). -/
def startSchedule (first f : Nat) (s : State) : State :=
  let s := match s.cle.pend with
    | some p => switchEpoch p.epoch s
    | none => s
  { s with
    spine := { s.spine with
      running := true, step := first, fTick := f, started := false, readyTick := none, stamps := [], faults := []
      starting := none, stopAfter := none, answered := 0 }
    rse := { s.rse with
      window := 0, winFault := none, replays := 0, restoring := false, late := false, repairs := [], detected := false } }

/-- The Stag sends COMMIT and notes it as seen. -/
def orderCommit (n c f epoch : Nat) (s : State) : State := markSeen 3 n f (flood 3 (commitBytes n c f epoch) none s)

/-- The Stag starts the schedule: COMMIT of the step before the first, with F (31). -/
def orderStart (first f : Nat) (s : State) : State :=
  let e := (s.cle.pend.map (·.epoch)).getD 0
  let n := (first + 2 ^ 64 - 1) % 2 ^ 64
  let s := { s with spine := { s.spine with seen := [] } }
  startSchedule first f (orderCommit n s.spine.tick f e s)

/-- The last step before SPINE_STOP has committed: the Stag ends the schedule there (83). -/
def endSchedule (n : Nat) (s : State) : State :=
  if s.spine.stopAfter = some n then
    let m := s.lastCommit
    let f : FaultRec := ⟨s.myPos, 0, 0, s.spine.tick, 0xFFFF⟩
    let s := markSeen 5 m 0 (flood 5 (rewindBytes m s.spine.commitTick 0 f) none s)
    applyStop m s.spine.commitTick none s
  else s

/-- The Stag commits step n (R425, R426, R429). -/
def decideCommit (s : State) : State :=
  let a := s.aggregate
  let n := s.spine.step
  let sn := (s.spine.fTick + (s.spine.sched.map (·.commitOffset)).getD 0) % 2 ^ 48
  let c := max sn (a.readyTick + 1) % 2 ^ 48
  if s.spine.started && a.count == s.herdSize && a.ready && decide (c ≤ a.clean + 1) && decide (c ≤ s.spine.tick) then
    let s := if sn < c then
        let late := SMap.updD s.spine.lateCommit (0, 0) a.lastPos fun v => (v.1 + 1, v.2 + (c - sn))
        ({ s with spine := { s.spine with lateCommit := late } } : State).cleCtr fun k => Ctrs.sat k 5 1
      else s
    let s := { s with spine := { s.spine with spineRound := roundOf a.pathNs } }
    let f := (s.spine.tick + s.spine.spineRound) % 2 ^ 48
    let e := if a.epochPending ≠ 0xFFFFFFFF && a.drained then a.epochPending else 0
    let s := applyCommit n c e (orderCommit n c f e s)
    endSchedule n { s with spine := { s.spine with fTick := f } }
  else s

/-- A COMMIT that arrives: the commit is applied; one that comes after F starts step n + 1 at once (R427, R428). A
member whose schedule does not run starts it (31); a device with no schedule, such as a Fawn, notes the commit (147). -/
def takeCommit (n c f epoch : Nat) (s : State) : State :=
  if !s.spine.running then
    if s.rse.takeover.isSome then s
    else if s.spine.sched.isSome then startSchedule ((n + 1) % 2 ^ 64) f s
    else { s with spine := { s.spine with step := (n + 1) % 2 ^ 64, committed := some n, commitTick := c } }
  else if s.spine.step ≠ n then s
  else
    let s := applyCommit n c epoch s
    let s := { s with spine := { s.spine with fTick := f } }
    if f < s.spine.tick then enterStep (s.cleCtr fun k => Ctrs.sat k 8 1) else s

/-- An order has been seen (R421): by its key, and REWIND by F′ too; a COMMIT while no schedule runs by F too
(82). -/
def State.orderSeen (s : State) (skind key key2 : Nat) : Bool :=
  s.spine.seen.any fun o => o.1 == s.spine.gen && o.2.1 == skind && o.2.2.1 == key
    && (o.2.2.2 == key2 || (skind == 3 && s.spine.running))

/-- Take an order: the first copy is forwarded on every Active link but the one it came by, and applied. -/
def takeOrder (l : Nat) (p : Packet) (key key2 : Nat) (f : State → State) (s : State) : State :=
  if s.orderSeen (skindOf p) key key2 then s
  else f (markSeen (skindOf p) key key2 (flood (skindOf p) p.data (some l) s))

/-! ### The acting Stag's answers to STATUS (R418, R516) -/

/-- A new acting Stag re-sends the COMMIT of the highest step that any member has applied; its own C is a free
value when it has not applied that step (78). The faults that it holds are answered after that. -/
def resendCommit (s : State) : State :=
  let a := s.aggregate
  let m := a.applied
  let f := (s.spine.tick + s.spine.spineRound) % 2 ^ 48
  let s := { s with spine := { s.spine with newStag := false } }
  if s.spine.committed = some m then orderCommit m s.spine.commitTick f 0 s
  else if s.spine.step = m then
    let d := s.draw
    let c := (Config.freeWord d.1).toNat % 2 ^ 48
    let s := applyCommit m c 0 (orderCommit m c f 0 d.2)
    { s with spine := { s.spine with fTick := f } }
  else s

/-- Positions that held E_PEER_LOST reports name (R418). -/
def State.heldLost (s : State) : NSet := NSet.addAll [] ((s.spine.faults.filter fun f => f.cls == 2).map (·.pos))

/-- A new acting Stag has re-sent the commit: it rewinds the herd to it, for the fault that it raised itself (R418 step 2). -/
def rewindAsNew (s : State) : State :=
  match s.spine.faults.find? fun f => f.cause == 0x08 && f.pos == s.myPos with
  | some f => answerFault f { s with spine := { s.spine with faults := s.spine.faults.erase f } }
  | none => s

/-- What the acting Stag does once the aggregate covers the herd, but, for a new Stag, for positions that are reported
lost (78). -/
def afterStatus (s : State) : State :=
  let a := s.aggregate
  if !s.spine.stag || !s.spine.running then s
  else if s.spine.newStag then
    if s.herdSize ≤ a.count + s.heldLost.length then rewindAsNew (resendCommit s) else s
  else if a.count != s.herdSize then s
  else if s.rse.window = 2 && a.ready then
    orderRewind (s.rse.winFault.getD ⟨s.myPos, 2, 0x20, s.spine.tick, 0xFFFF⟩) s
  else s

end Sys2Proof.Machine
end

