-- ==== Sys2Proof/Machine/CleEvents.lean ====
section
/-! DEFINITION. The events of the collective engine: entries start, sections admit chunks, packets arrive, and chunks
complete (R434, R439 to R452). -/

namespace Sys2Proof.Machine

/-- Start a run whose time has come: the member's summary goes up the tree for root 0. -/
def startRun (k : Nat) (s : State) : State :=
  match SMap.lookup s.cle.runs k, s.entryOf k with
  | some r, some e =>
    let due := s.spine.fTick + if k < 4096 then e.start else 0
    if r.started || decide (s.spine.tick < due) then s
    else summarise k (s.modRun k fun r => { r with started := true })
  | _, _ => s

/-- The runs of an entry: of the running step, and as gather tails. -/
def State.runsOf (s : State) (entry : Nat) : List Nat :=
  (s.cle.runs.filter fun r => r.1 % 4096 == entry).map (·.1)

/-- COLLECTIVE_ENTRY_START (R433, R449): at its START time; a tail that is sent again starts with the replay (R452). -/
def execCollectiveEntryStart (entry : Nat) (s : State) : Host.Outcome State Fault Refusal :=
  if s.spine.running && s.spine.started then
    done ((s.runsOf entry).foldl (fun s k => startRun k s) s)
  else .next s

/-- Admit a chunk: CREDIT goes to each child, and the chunk moves on (R446). -/
def admitChunk (k : Nat) (e : Entry) (r : Run) (j : Nat) (s : State) : State :=
  let s := s.modChunk k j fun c => { c with admitted := true }
  let x := s.nodeAt e j
  let s := if e.op = 7 then s else
    x.kids.foldl (fun s q => sendTo (collPacket s e r 2 0 (s.posAt e x q) j 0 []) s) s
  moveOn k j false s

/-- CHUNK_ADMIT (R445): the next chunk of a section, once its entry has started and its whole claim fits. -/
def execChunkAdmit (sect : Fin 4) (s : State) : Host.Outcome State Fault Refusal :=
  match s.nextChunk sect with
  | some (k, e, r, j) =>
    if r.started && decide (s.claimed sect + s.claimOf e r j ≤ sectionBytes) then done (admitChunk k e r j s)
    else .next s
  | none => .next s

/-- A collective packet of some PKIND. -/
def isColl (kind : Nat) (p : Packet) : Bool := (p.cls == 2 || p.cls == 3) && collKind p == kind

/-- CREDIT (R446). -/
def execCredit (link : Fin 32) (p : Packet) (s : State) : Host.Outcome State Fault Refusal :=
  takePacket link p (isColl 2 p) (takeColl link p) s

/-- UP_DATA (R440). -/
def execUpData (link : Fin 32) (p : Packet) (s : State) : Host.Outcome State Fault Refusal :=
  takePacket link p (isColl 0 p) (takeColl link p) s

/-- DOWN_DATA (R441). -/
def execDownData (link : Fin 32) (p : Packet) (s : State) : Host.Outcome State Fault Refusal :=
  takePacket link p (p.cls == 2 && isColl 1 p) (takeColl link p) s

/-- PIPELINE_TRANSFER (R434): data of a TRANSFER. -/
def execPipelineTransfer (link : Fin 32) (p : Packet) (s : State) : Host.Outcome State Fault Refusal :=
  takePacket link p (p.cls == 3 && isColl 1 p) (takeColl link p) s

/-- SEAL_SUMMARY (R449). -/
def execSealSummary (link : Fin 32) (p : Packet) (s : State) : Host.Outcome State Fault Refusal :=
  takePacket link p (isColl 3 p) (takeColl link p) s

/-- SEAL (R450). -/
def execSeal (link : Fin 32) (p : Packet) (s : State) : Host.Outcome State Fault Refusal :=
  takePacket link p (isColl 4 p) (takeColl link p) s

/-- ABORT (R451). -/
def execAbortEntry (link : Fin 32) (p : Packet) (s : State) : Host.Outcome State Fault Refusal :=
  takePacket link p (isColl 5 p) (takeColl link p) s

/-- CHUNK_COMPLETE (R439): a chunk's own contributions have all come, so it is formed (42); chunks complete in order
then count in DONE_EC. -/
def execChunkComplete (entry chunk : Nat) (s : State) : Host.Outcome State Fault Refusal :=
  done ((s.runsOf entry).foldl (fun s k => settleRun k (moveOn k chunk true s)) s)

end Sys2Proof.Machine
end

