-- ==== Sys2Proof/Machine/Governor.lean ====
section
/-! DEFINITION. The format governor (R82 to R85, R255, R256): a tensor's format and exponent for the next step, and E of
every fixed-point block. -/

namespace Sys2Proof.Machine

/-- The highest bin that holds a value (R83). -/
def binHigh (t : Stats) : Nat :=
  ((List.range 64).filter fun b => SMap.getD t.hist b 0 != 0).getLast?.getD 0

/-- The values in the bins below b. -/
def countBelow (t : Stats) (b : Nat) : Nat := ((List.range b).map fun i => SMap.getD t.hist i 0).foldl (· + ·) 0

/-- The highest bin below which at most N × 2^−cut values lie. -/
def binLow (t : Stats) (cut : Nat) : Nat :=
  ((List.range 64).filter fun b => decide (countBelow t b * 2 ^ cut ≤ t.nonzero)).getLast?.getD 0

/-- The span of a tensor's values. -/
def spanOf (t : Stats) (cut : Nat) : Nat := if t.nonzero = 0 then 0 else binHigh t - binLow t cut

/-- floor(log2) of an FP32 pattern that is not zero. -/
def log2Bits (x : BitVec 32) : Int := log2Of (val32 x)

/-- The largest of some amax values. -/
def maxAmax (l : List (BitVec 32)) : BitVec 32 := l.foldl max32 0

/-- The growth of step n's amax over the fifteen steps before it (R83). -/
def growthOf (old : SMap (BitVec 32)) (n : Nat) (amax : BitVec 32) : Int :=
  let m := maxAmax ((old.filter fun a => a.1 != n % 16).map (·.2))
  if amax = 0 ∨ m = 0 then 0 else log2Bits amax - log2Bits m

/-- The tensor exponent of a format from the amax values of the last sixteen steps (R84). -/
def govTexp (c : GovCfg) (fmt : Nat) (amax : List (BitVec 32)) : Int :=
  let h := maxAmax amax
  if h = 0 then 0
  else match fmt with
    | 3 => clampInt (-127) 127 (log2Bits h - 7 + c.margin)
    | 4 => clampInt (-127) 127 (log2Bits h - 14 + c.margin)
    | _ => 0

/-- The first rule of R83 from the fifth on that matches, with its reason. -/
def chooseFormat (c : GovCfg) (t : Stats) (growth : Int) : Nat × Nat :=
  let span := spanOf t c.lowCut
  if (c.growthLimit : Int) ≤ growth then (5, 3)
  else if span ≤ c.spanE4M3 then (3, 4)
  else if t.mx6uf * 2 ^ c.ufShift ≤ t.nonzero then (8, 5)
  else if t.mx8uf * 2 ^ c.ufShift ≤ t.nonzero then (5, 6)
  else if span ≤ c.spanE5M2 then (4, 7)
  else (1, 8)

/-- A pinned tensor's exponent: the pin's T, or R84's when T is −128. -/
def pinnedTexp (c : GovCfg) (pin : Nat × Int) (amax : List (BitVec 32)) : Int :=
  if pin.1 = 3 ∨ pin.1 = 4 then (if pin.2 = -128 then govTexp c pin.1 amax else pin.2) else 0

/-- The decision for the step after n, from the pin, the committed record and the combined statistics (R83); a pinned
decision and the initial one keep HOLD, and ENABLE 0 gives reason 9 (93). -/
def decideTensor (c : GovCfg) (n : Nat) (pin : Option (Nat × Int)) (old : Option TensorRec) (t : Stats) : Decision :=
  let before := (old.map (·.amax)).getD []
  let amax := (SMap.setD before 0 (n % 16) t.amax).map (·.2)
  let hold := (old.map (·.dec.hold)).getD 0
  let make (f reason hold : Nat) : Decision := ⟨f, govTexp c f amax, reason, hold⟩
  match pin with
  | some p => ⟨p.1, pinnedTexp c p amax, 0, hold⟩
  | none =>
    if old.isNone || !c.enable then make c.initialFormat 9 hold
    else if t.nonfinite != 0 || t.sat != 0 then make 1 1 c.holdSteps
    else if hold != 0 then make 1 2 (hold - 1)
    else
      let x := chooseFormat c t (growthOf before n t.amax)
      make x.1 x.2 hold

/-- E of a block for the step after n (R85, R663). -/
def decideBlock (c : GovCfg) (n : Nat) (b : FxBlock) : FxBlock :=
  let a := maxAmax (b.amaxU :: (b.hist.filter fun h => h.1 != n % 16).map (·.2))
  let e : Int :=
    if b.satU then b.e + c.fxStepUp
    else if a ≠ 0 then log2Bits a + c.fxHeadroom
    else b.d
  { b with eNext := some ((SMap.lookup b.pend (n + 1)).getD (clampInt (-126) 127 e)) }

/-- Decisions of the running step: for every tensor whose statistics have been combined, and for a pinned tensor with
a record (93). -/
def decideAll (s : State) : State :=
  let m := s.num
  let n := s.spine.step
  let pinned := (m.tensors.filter fun t => (m.pinAt (n + 1) t.1).isSome).map (·.1)
  let ids := NSet.addAll (m.combined.map (·.1)) pinned
  let ds := ids.map fun t =>
    (t, decideTensor m.gov n (m.pinAt (n + 1) t) (SMap.lookup m.tensors t) (SMap.getD m.combined t Stats.reset))
  { s with
    num := { m with decided := ds, govDone := true }
    mem := s.mem.mapFx (decideBlock m.gov n) }

/-- The statistics reductions of the step are complete; with none, its other work is, but for the TWIN entries that end
with the owner state (95). -/
def State.statsReduced (s : State) : Bool :=
  let st := s.cle.runs.filter fun r => decide (r.1 < 4096) &&
    (match s.entryOf r.1 with | some e => e.op == 6 | none => false)
  if st.isEmpty then s.chansEnded && s.entriesDone (·.twin) else st.all fun r => s.runDone r.1 r.2

/-- GOVERNOR_DECIDE (R255, R256): the decisions for the next step are written; the owner state can then go to the
twin (R512). -/
def execGovernorDecide (s : State) : Host.Outcome State Fault Refusal :=
  if s.spine.running && s.spine.started && s.rse.window == 0 && !s.num.govDone && s.statsReduced then
    let due := s.spine.fTick + (s.spine.sched.map (·.commitOffset)).getD 0
    let s := if due < s.spine.tick then s.wgbCtr fun c => Ctrs.sat c 4 1 else s
    done (sendOwnerState (decideAll s))
  else .next s

end Sys2Proof.Machine
end

