-- ==== Sys2Proof/Machine/HerdCmds.lean ====
section
/-! DEFINITION. The commands of the herd (R422, R432 to R437, R454, R459 to R462, R503). -/

namespace Sys2Proof.Machine

/-- Change the Spine unit. -/
def State.modSpine (s : State) (f : Spine → Spine) : State := { s with spine := f s.spine }

/-- Change the collective engine. -/
def State.modCle (s : State) (f : Cle → Cle) : State := { s with cle := f s.cle }

/-! ### Configuration and status (R416, R430, R460) -/

/-- HERD_CONFIG: a candidate of 0xFFFF is none (118). -/
def cmdHerdConfig (a : Nat → Nat) (s : State) : Reply :=
  let cs := [a 0, a 1, a 2]
  checked [ (cs.any fun c => decide (1023 < c ∧ c ≠ 0xFFFF), St.range), (decide (a 3 < 1024 ∨ 65536 < a 3), St.range) ]
    (.ok [s.nextApply] (s.modSpine fun x =>
      if x.running then { x with confPend := some (cs, a 3, s.nextApply) }
      else { x with cands := cs, rewindTicks := a 3, confPend := none }))

/-- HERD_CONFIG (R460). -/
def execHerdConfig (mb : Fin 16) (s : State) : Host.Outcome State Fault Refusal := runCmd mb 0x0501 4 cmdHerdConfig s

/-- The result words of HERD_STATUS: role, STAG_GEN, parent, HOPS, offset in ns, SPINE_ROUND, applied step, epoch,
pending epoch, DEGRADED (118). -/
def herdStatus (s : State) : List Nat :=
  let x := s.spine
  [s.myRole, x.gen, x.parent.getD 0xFFFF, if x.stag then 0 else x.hops, twos 64 x.offset, x.spineRound,
    x.committed.getD 0, s.cle.epoch, (s.cle.pend.map (·.epoch)).getD 0, bit x.degraded 0]

/-- HERD_STATUS's reply. -/
def cmdHerdStatus : (Nat → Nat) → State → Reply :=
  fun _ s => .ok (herdStatus s) s

/-- HERD_STATUS (R460). -/
def execHerdStatus (mb : Fin 16) (s : State) :
    Host.Outcome State Fault Refusal :=
  runCmd mb 0x0502 0 cmdHerdStatus s

/-- SPINE_TIME's reply. -/
def cmdSpineTime (ptm : BitVec 64) : (Nat → Nat) → State → Reply :=
  fun _ s => .ok [s.spine.tick, s.spine.phase, ptm.toNat] s

/-- SPINE_TIME (R460): the tick, the phase and the PTM timestamp. -/
def execSpineTime (mb : Fin 16) (ptm : BitVec 64) (s : State) :
    Host.Outcome State Fault Refusal :=
  runCmd mb 0x050C 0 (cmdSpineTime ptm) s

/-! ### Groups (R432) -/

/-- A group from its record. -/
def Group.of (r : List Byte) : Group :=
  ⟨fieldAt r 2 1, fieldAt r 4 4, (List.range (fieldAt r 0 2)).map fun i => fieldAt r (16 + 2 * i) 2⟩

/-- The head of a group record is well formed. -/
def groupHeadOk (r : List Byte) : Bool :=
  decide (1 ≤ fieldAt r 0 2 ∧ fieldAt r 0 2 ≤ 1024 ∧ fieldAt r 2 1 < 4) && zeroAt r 3 1 && zeroAt r 8 8

/-- This device is in the group once, no position repeats, and all lie in the herd. -/
def State.groupOk (s : State) (g : Group) : Bool :=
  g.pos.contains s.myPos && (NSet.addAll [] g.pos).length == g.pos.length && g.pos.all fun p => decide (p < s.herdSize)

/-- Read a group record: its head, then all of it. -/
def withGroup (w : Nat) (s : State) (f : Group → State → Reply) : Reply :=
  withRecord w 16 64 s fun h s =>
    if !groupHeadOk h then .fail St.badArg
    else withRecord w (16 + 2 * fieldAt h 0 2) 64 s fun r s =>
      let g := Group.of r
      if s.groupOk g then f g s else .fail St.badArg

/-- GROUP_DEFINE: a group that an earlier epoch left is replaced (119). -/
def cmdGroupDefine (a : Nat → Nat) (s : State) : Reply :=
  checked [(decide (4095 < a 0), St.range)]
    (withGroup (a 1) s fun g s =>
      checked [(((s.group (a 0)).map fun (o : Group) => o.epoch == s.cle.epoch).getD false, St.state)]
        (.ok [] (s.modCle fun c => { c with groups := SMap.put c.groups (a 0) g })))

/-- GROUP_DEFINE (R432). -/
def execGroupDefine (mb : Fin 16) (s : State) : Host.Outcome State Fault Refusal := runCmd mb 0x0503 2 cmdGroupDefine s

/-- A loaded schedule, in force or waiting, names a group. -/
def State.groupNamed (s : State) (g : Nat) : Bool :=
  ((s.spine.sched.toList ++ (s.spine.schedPend.map (·.1)).toList).any fun d => d.entries.any fun e => e.group == g)

/-- GROUP_RELEASE. -/
def cmdGroupRelease (a : Nat → Nat) (s : State) : Reply :=
  checked [ (decide (4095 < a 0), St.range), ((s.group (a 0)).isNone || s.groupNamed (a 0), St.state) ]
    (.ok [] (s.modCle fun c => { c with groups := SMap.del c.groups (a 0) }))

/-- GROUP_RELEASE (R460). -/
def execGroupRelease (mb : Fin 16) (s : State) : Host.Outcome State Fault Refusal := runCmd mb 0x0504 1 cmdGroupRelease s

/-! ### Schedule images (R422, R433 to R437, R445) -/

/-- Entry i of an image; its ordinal is set apart. -/
def Entry.of (r : List Byte) : Entry :=
  let f := fieldAt r 2 1
  let x := fieldAt r 6 1
  { op := fieldAt r 0 1, red := fieldAt r 1 1, fmt := f % 16, gov := f.testBit 4, outfmt := fieldAt r 3 1
    group := fieldAt r 4 2, sect := x % 4, commitNeed := x.testBit 2, twin := x.testBit 3, radix := fieldAt r 7 1
    tensor := fieldAt r 8 2, texp := signedOf 8 (fieldAt r 10 1), doneEc := fieldAt r 11 1, start := fieldAt r 12 4
    count := fieldAt r 16 8, chunkElems := fieldAt r 24 4, root := fieldAt r 28 2, doneChan := fieldAt r 30 2
    src := fieldAt r 32 8, dst := fieldAt r 40 8, ordinal := 0 }

/-- Each entry's ordinal: its index among the entries that name its group (R433). -/
def numberEntries (l : List Entry) : List Entry :=
  (l.foldl (fun (a : SMap Nat × List Entry) e =>
    let n := SMap.getD a.1 e.group 0
    (SMap.put a.1 e.group (n + 1), { e with ordinal := n } :: a.2)) ([], [])).2.reverse

/-- A stream binding. -/
def Bind.of (r : List Byte) : Bind := ⟨fieldAt r 0 2, fieldAt r 2 2, fieldAt r 4 8, fieldAt r 12 4⟩

/-- A schedule image. -/
def Sched.of (r : List Byte) : Sched :=
  let n := fieldAt r 6 2
  let base := 64 + 64 * n
  ⟨fieldAt r 12 4, fieldAt r 16 4,
    numberEntries ((List.range n).map fun i => Entry.of ((r.drop (64 + 64 * i)).take 64)),
    (List.range (fieldAt r 8 2)).map fun i => Bind.of ((r.drop (base + 16 * i)).take 16)⟩

/-- The header of an image. -/
def schedHeadOk (r : List Byte) : Bool :=
  fieldAt r 0 4 == 0x53484453 && fieldAt r 4 2 == 1 && decide (fieldAt r 6 2 ≤ 4095 ∧ 1 ≤ fieldAt r 12 4)
    && zeroAt r 10 2 && zeroAt r 20 44

/-- The length of an image. -/
def schedLen (r : List Byte) : Nat := 64 + 64 * fieldAt r 6 2 + 16 * fieldAt r 8 2

/-- The reserved bits of entry i of an image are 0. -/
def entryZeros (r : List Byte) (i : Nat) : Bool :=
  let o := 64 + 64 * i
  decide (fieldAt r (o + 2) 1 < 32 ∧ fieldAt r (o + 6) 1 < 16) && zeroAt r (o + 48) 16

/-- A fixed wire format (R433). -/
def wireFmt (f : Nat) : Bool := f == 0 || f == 1 || f == 3 || f == 4 || f == 5 || f == 8

/-- The fields of an entry in themselves (R433, R436, R453). -/
def Entry.fieldsOk (e : Entry) : Bool :=
  decide (1 ≤ e.op ∧ e.op ≤ 7 ∧ e.red ≤ 1 ∧ e.outfmt ≤ 1 ∧ 2 ≤ e.radix ∧ e.radix ≤ 16 ∧ e.group < 4096 ∧ e.tensor < 4096)
    && (if e.gov then e.fmt == 0 else wireFmt e.fmt)
    && decide (e.doneEc < 32 ∧ e.doneChan < 4096)
    && decide (e.chunkElems % 128 = 0 ∧ e.chunkElems ≤ 2 ^ 22 ∧ (e.chunkElems ≠ 0 ∨ e.op = 6))
    && (e.commitNeed || !(e.op == 1 || e.op == 2 || e.op == 3 || e.op == 6 || e.twin))
    && (!e.twin || e.op == 4)

/-- The entry may use an MX wire format. -/
def Entry.mayMx (e : Entry) : Bool := e.gov || isBlockFmt e.fmt

/-- An entry in its group: G, shards, ROOT, and a link set to every neighbour in its trees, that of its seal
among them (R434, R436, R449). -/
def State.entryOk (s : State) (epoch : Nat) (e : Entry) : Bool :=
  match s.group e.group with
  | none => false
  | some g =>
    let n := g.pos.length
    let r := s.myRank e
    let sealKin := treeKids e.radix n r ++ (if r = 0 then [] else [(r - 1) / e.radix])
    let near := e.neighbours n r ++ if e.op = 7 then [] else sealKin
    g.epoch == epoch && (!e.sharded || e.count % n == 0) && (e.op != 7 || n == 2)
      && (!(e.op == 3 || e.op == 5 || e.op == 7) || decide (e.root < n))
      && (!(e.mayMx && e.sharded) || e.count / n % 32 == 0)
      && near.all fun k => !(s.linkSet (g.pos.getD k 0xFFFF)).isEmpty

/-- A binding names an entry of the image and elements of it; those of an MX entry begin at a block. -/
def Sched.bindOk (d : Sched) (b : Bind) : Bool :=
  match d.entries[b.entry]? with
  | some e => decide (b.offset + b.elems ≤ e.count) && (!e.mayMx || b.offset % 32 == 0)
  | none => false

/-- The largest chunk of each tree that an entry has: the first of each root. -/
def Entry.firstChunks (e : Entry) (g : Nat) : List Nat :=
  let n := e.chunkCount g
  (if e.sharded then (List.range g).map (· * e.perShard g)
    else if e.op = 2 then List.range g else [0]).filter (· < n)

/-- A chunk of the entry claims more than a section holds; a governed entry counts its widest format, BF16 unless
its tensor stands at FP32 now (R83, R445, 120). -/
def State.tooLarge (s : State) (e : Entry) : Bool :=
  let f := if e.gov then (if (s.govFormat e.tensor).1 = 0 then 0 else 1) else e.fmt
  (e.firstChunks (s.groupSize e)).any fun j => decide (sectionBytes < s.claimOf e { Run.reset with fmt := f } j)

/-- The TWIN entries cover the shard of N elements exactly once, in BF16 or FP32 (R508); with no twin and no such entry
there is nothing to cover (126). -/
def State.twinOk (s : State) (d : Sched) : Bool :=
  let m := s.rse.mirrorPend.getD s.rse.mirror
  let ts := d.entries.filter (·.twin)
  (ts.isEmpty && m.twinPos == 0xFFFF)
    || (ts.all (fun e => !e.gov && decide (e.fmt < 2))
        && (ts.map fun e => e.count / s.groupSize e).foldl (· + ·) 0 == m.n)

/-- What is wrong with an image, beside the reduction buffer. -/
def State.schedErr (s : State) (r : List Byte) : Option Status :=
  let d := Sched.of r
  firstErr
    [ (!(List.range d.entries.length).all (entryZeros r) || !d.entries.all Entry.fieldsOk, St.badArg),
      (d.entries.any fun e => decide (2 ^ 52 ≤ e.src ∨ 2 ^ 52 ≤ e.dst), St.range),
      (!d.entries.all (s.entryOk d.epoch) || !d.binds.all d.bindOk || !s.twinOk d, St.badArg) ]

/-- Read an image: its header, then all of it. -/
def withSched (w : Nat) (s : State) (f : List Byte → State → Reply) : Reply :=
  withRecord w 64 64 s fun h s =>
    if schedHeadOk h then withRecord w (schedLen h) 64 s f else .fail St.badArg

/-- SCHEDULE_LOAD: with no schedule running the image is in force at once, and its epoch with it; while one runs it
must be of the current epoch, and waits for the next step boundary (35, 119). -/
def cmdScheduleLoad (a : Nat → Nat) (s : State) : Reply :=
  withSched (a 0) s fun r s =>
    let d := Sched.of r
    match s.schedErr r with
    | some e => .fail e
    | none =>
      checked
        [ (s.spine.running && d.epoch != s.cle.epoch, St.badArg), (d.entries.any s.tooLarge, St.reductionBuffer),
          (s.spine.schedPend.isSome, St.state) ]
        (.ok [s.nextApply] (if s.spine.running then s.modSpine fun x => { x with schedPend := some (d, s.nextApply) }
          else (s.modSpine fun x => { x with sched := some d }).modCle fun c => { c with epoch := d.epoch }))

/-- SCHEDULE_LOAD (R422, R436). -/
def execScheduleLoad (mb : Fin 16) (s : State) : Host.Outcome State Fault Refusal := runCmd mb 0x0505 1 cmdScheduleLoad s

/-! ### Starting and stopping (R460, R503) -/

/-- SPINE_START: the acting Stag waits for the STATUS of every position, for at most a second, then gives the start of
the first step (31). -/
def cmdSpineStart (a : Nat → Nat) (s : State) : Reply :=
  let all := s.aggregate.count == s.herdSize
  let f := max (s.spine.tick + s.spine.spineRound) (a 1) % 2 ^ 48
  if 2 ^ 48 ≤ a 1 then .fail St.badArg
  else if (s.spine.sched.isNone && s.cle.pend.isNone) || !s.spine.stag || s.spine.running || s.memOff
      || s.sys.refBad.contains 0 then .fail St.state
  else if all then .ok [f] (orderStart (a 0) f s)
  else match s.spine.starting with
    | none => .wait (s.modSpine fun x => { x with starting := some (a 0, a 1, x.tick) })
    | some w =>
      if w.2.2 + 1000000 ≤ s.spine.tick then .failed St.peerLost (s.modSpine fun x => { x with starting := none })
      else .wait s

/-- SPINE_START (R460). -/
def execSpineStart (mb : Fin 16) (s : State) : Host.Outcome State Fault Refusal := runCmd mb 0x0506 2 cmdSpineStart s

/-- SPINE_STOP: the running step is the last; in a recovery window the herd stops at the window's commit. -/
def cmdSpineStop (_ : Nat → Nat) (s : State) : Reply :=
  checked [(!s.spine.running || !s.spine.stag, St.state)]
    (if s.rse.window = 1 ∨ s.rse.window = 2 then
      let f := s.rse.winFault.getD ⟨s.myPos, 0, 0, s.spine.tick, 0xFFFF⟩
      .ok [s.lastCommit] (orderStop f none s)
    else .ok [s.spine.step] (s.modSpine fun x => { x with stopAfter := some x.step }))

/-- SPINE_STOP (R460, R503). -/
def execSpineStop (mb : Fin 16) (s : State) : Host.Outcome State Fault Refusal := runCmd mb 0x0507 0 cmdSpineStop s

/-! ### Layout epochs (R454) -/

/-- The groups that a list of (number, pointer to its record) names; each is of the epoch. -/
def withGroups (epoch : Nat) : List (Nat × Nat) → SMap Group → State → (SMap Group → State → Reply) → Reply
  | [], m, s, f => f m s
  | p :: ps, m, s, f =>
    withGroup p.2 s fun g s =>
      if g.epoch != epoch || (SMap.lookup m p.1).isSome then .fail St.badArg
      else withGroups epoch ps (SMap.put m p.1 g) s f

/-- An item of the group record list: the group's number and the pointer to its record (121). -/
def groupItem (r : List Byte) (i : Nat) : Nat × Nat := (fieldAt r (64 + 16 * i) 2, fieldAt r (72 + 16 * i) 8)

/-- The group record list: COUNT, then its items. -/
def withGroupList (w epoch : Nat) (s : State) (f : SMap Group → State → Reply) : Reply :=
  withRecord w 64 64 s fun h s =>
    let n := fieldAt h 0 4
    if 4096 < n ∨ !zeroAt h 4 60 then .fail St.badArg
    else withRecord w (64 + 16 * n) 64 s fun r s =>
      let items := (List.range n).map (groupItem r)
      if (List.range n).all fun i => decide (fieldAt r (64 + 16 * i) 8 < 4096) then withGroups epoch items [] s f
      else .fail St.badArg

/-- EPOCH_ADVANCE: the image is checked against the groups that come with it; 0 cancels what waits (121). -/
def cmdEpochAdvance (a : Nat → Nat) (s : State) : Reply :=
  if a 0 = 0 then .ok [0] (s.modCle fun c => { c with pend := none })
  else
    checked
      [ (decide (2 ^ 32 ≤ a 0), St.badArg), (decide (a 0 ≤ s.cle.epoch), St.epoch), (s.cle.pend.isSome, St.state) ]
      (withSched (a 1) s fun r s =>
        withGroupList (a 2) (a 0) s fun gs s =>
          let d := Sched.of r
          let t := s.modCle fun c => { c with groups := gs }
          match t.schedErr r with
          | some e => .fail e
          | none =>
            if d.epoch != a 0 || d.entries.any t.tooLarge then .fail St.badArg
            else .ok [0] (s.modCle fun c => { c with pend := some ⟨a 0, d, gs⟩ }))

/-- EPOCH_ADVANCE (R454). -/
def execEpochAdvance (mb : Fin 16) (s : State) : Host.Outcome State Fault Refusal := runCmd mb 0x0508 3 cmdEpochAdvance s

/-! ### Reports (R451, R459, R461, R462) -/

/-- The lateness tables: 32 bytes for each position (122). -/
def latenessBytes (x : Spine) : List Byte :=
  (List.range 1024).flatMap fun p =>
    let c := SMap.getD x.lateCommit p (0, 0)
    let i := SMap.getD x.lateInput p (0, 0)
    natLe 8 c.1 ++ natLe 8 c.2 ++ natLe 8 i.1 ++ natLe 8 i.2

/-- READ_LATENESS's reply. -/
def cmdReadLateness : (Nat → Nat) → State → Reply :=
  fun a s => report (a 0) (latenessBytes s.spine) [] s

/-- READ_LATENESS (R461). -/
def execReadLateness (mb : Fin 16) (s : State) :
    Host.Outcome State Fault Refusal :=
  runCmd mb 0x0509 1 cmdReadLateness s

/-- CLEAR_CLE_COUNTERS's reply. -/
def cmdClearCleCounters : (Nat → Nat) → State → Reply :=
  clearCtrs 10 fun m s =>
    let s := s.cleCtr fun c => Ctrs.clear c m
    if m.testBit 9 then s.modSpine fun x => { x with lateCommit := [], lateInput := [] } else s

/-- CLEAR_CLE_COUNTERS (R462): bit 9 clears the lateness tables too. -/
def execClearCleCounters (mb : Fin 16) (s : State) :
    Host.Outcome State Fault Refusal :=
  runCmd mb 0x050A 1 cmdClearCleCounters s

/-- READ_CLE_COUNTERS's reply. -/
def cmdReadCleCounters : (Nat → Nat) → State → Reply :=
  reportCtrs fun s => Ctrs.bytes s.cle.ctrs 10

/-- READ_CLE_COUNTERS (R462). -/
def execReadCleCounters (mb : Fin 16) (s : State) :
    Host.Outcome State Fault Refusal :=
  runCmd mb 0x050B 1 cmdReadCleCounters s

/-- The 128 bytes of COLL_STATUS; all 0 while there was no abort (122). -/
def abortBytes (r : Option AbortRec) : List Byte :=
  match r with
  | none => padTo 128 []
  | some x => padTo 128 (padTo 64 (natLe 2 x.group ++ natLe 2 x.pos ++ natLe 4 x.ordinal ++ natLe 8 x.seq ++ natLe 1 x.triples.length)
      ++ x.triples.flatMap fun t => natLe 4 t.digest.toNat ++ natLe 4 t.count ++ natLe 8 t.pos)

/-- COLL_STATUS's reply. -/
def cmdCollStatus : (Nat → Nat) → State → Reply :=
  fun a s => report (a 0) (abortBytes s.cle.abort) [] s

/-- COLL_STATUS (R451). -/
def execCollStatus (mb : Fin 16) (s : State) :
    Host.Outcome State Fault Refusal :=
  runCmd mb 0x050E 1 cmdCollStatus s

/-- The placement records: 16 bytes for each edge of this device (122). -/
def placementBytes (s : State) : List Byte :=
  s.edges.flatMap fun e =>
    let l := s.edgeLinks e.2.2
    natLe 1 e.1 ++ natLe 1 l.1 ++ natLe 1 l.2 ++ natLe 1 (bit (favoured e.1 l.1 l.2) 0)
      ++ natLe 2 e.2.1 ++ natLe 2 e.2.2 ++ natLe 8 0

/-- PLACEMENT_REPORT's reply. -/
def cmdPlacementReport : (Nat → Nat) → State → Reply :=
  fun a s => report (a 0) (placementBytes s) [s.edges.length] s

/-- PLACEMENT_REPORT (R459): the number of records is returned. -/
def execPlacementReport (mb : Fin 16) (s : State) :
    Host.Outcome State Fault Refusal :=
  runCmd mb 0x050F 1 cmdPlacementReport s

end Sys2Proof.Machine
end

