-- ==== Sys2Proof/Machine/DumpOps.lean ====
section
/-! DEFINITION. The identity page (R546), the colophon's bytes (R531), the fatal sequence (R530), and isolation
(R401). -/

namespace Sys2Proof.Machine

/-! ### The identity page -/

/-- Identity word 0x020. -/
def State.stateWord (s : State) : Nat :=
  bit s.sys.ready 0 + s.pcm.sstate % 4 * 2 + s.rse.window % 4 * 2 ^ 3 + bit s.rse.fatal.isSome 5 + bit s.sec.recovery 6
    + s.hif.pcieRate % 16 * 2 ^ 8 + s.hif.pcieWidth % 16 * 2 ^ 12 + s.mem.failed.toNat * 2 ^ 16
    + s.mem.rate % 8 * 2 ^ 36

/-- Words 0x000 to 0x038 of the identity page (R546). -/
def State.identity (s : State) : List Nat :=
  [ 0x0001964000000000 + 0x4B524644,
    0x0100 + 0x04 * 2 ^ 16 + 0x14 * 2 ^ 24 + 0x20 * 2 ^ 32 + 0x10 * 2 ^ 40 + 0x0500 * 2 ^ 48,
    s.sec.deviceId.toNat,
    s.sec.fwVersion.toNat + s.sec.fwBuild.toNat * 2 ^ 32,
    s.stateWord,
    s.sys.cause % 16 + s.rse.colo.slot % 16 * 16,
    s.sec.lotCode.toNat % 2 ^ 64,
    s.sec.lotCode.toNat / 2 ^ 64 ]

/-- The colophon descriptor's words (R532). -/
def State.coloWords (s : State) : List Nat :=
  let c := s.rse.colo
  [ bit c.valid 0 + bit c.complete 1 + bit c.location 2 + c.cause % 256 * 2 ^ 8 + c.seq % 2 ^ 32 * 2 ^ 32,
    c.size % 2 ^ 32, c.offset % 2 ^ 40, c.tick % 2 ^ 48 ]

/-! ### Records that status commands and the colophon share -/

/-- The 64-byte status record of a link (R408). -/
def State.linkRecord (s : State) (l : Nat) : List Byte :=
  let x := s.link l
  let h := x.hello.getD ⟨0, 0, 0, 0, 0, 0, 0, 0, 0⟩
  padTo 64 (natLe 1 (if s.links.off.contains l || s.sys.refBad.contains (l / 8) || s.sys.refBad.contains 0 then 7 else x.st) ++ natLe 1 h.flags
    ++ natLe 2 h.family ++ natLe 2 h.herdId ++ natLe 2 h.position ++ natLe 1 h.role ++ natLe 1 h.link ++ natLe 2 x.latency
    ++ natLe 4 h.generation ++ natLe 8 h.deviceId ++ natLe 8 h.turnaround ++ natLe 1 x.cls ++ natLe 1 (bit x.reversed 0)
    ++ natLe 1 x.polarity.toNat ++ natLe 1 x.refusal)

/-- The 32 bytes of a link event (R407). -/
def LinkEvent.bytes (e : LinkEvent) : List Byte :=
  padTo 32 (natLe 8 e.tick ++ natLe 1 e.link ++ natLe 1 e.event ++ natLe 2 e.status ++ natLe 2 e.pos ++ natLe 1 e.reason
    ++ natLe 1 e.st)

/-- The 256 bytes of a mailbox (R547). -/
def Mailbox.bytes (m : Mailbox) : List Byte :=
  natLe 4 m.word0.toNat ++ natLe 4 m.word4.toNat ++ (List.range 15).flatMap (fun i => natLe 8 (SMap.getD m.args i 0).toNat)
    ++ (List.range 15).flatMap (fun i => natLe 8 (SMap.getD m.res i 0).toNat) ++ natLe 8 m.acceptTick

/-! ### The colophon (R530 to R532) -/

/-- A byte of the dump at or beyond 0x1000: of a piece that the spec lays out, else a free value. -/
def Dump.raw (d : Dump) (o : Nat) : Byte :=
  match d.parts.find? fun p => decide (p.1 ≤ o ∧ o < p.1 + p.2.length) with
  | some p => (p.2.drop (o - p.1)).headD 0
  | none => Config.freeByte d.draw o

/-- A range of the dump at or beyond 0x1000. -/
def Dump.rawN (d : Dump) (o n : Nat) : List Byte := (List.range n).map fun i => d.raw (o + i)

/-- The header, with the two digests. -/
def Dump.signed (d : Dump) : List Byte :=
  padTo 64 d.head ++ sha3 (d.rawN 0x1000 0x4F000) ++ sha3 (d.rawN 0x50000 0x3B0000)

/-- The first 4 KiB: the header, the digests, the signature by the identity key, and free bytes. -/
def Dump.first (d : Dump) : List Byte :=
  d.signed ++ Config.signature 0 d.draw d.signed ++ (List.range (0x1000 - 128 - 2420)).map fun i => Config.freeByte d.draw (128 + 2420 + i)

/-- A range of the dump. -/
def Dump.read (d : Dump) (o n : Nat) : List Byte :=
  (List.range n).map fun i => if o + i < 0x1000 then (d.first.drop (o + i)).headD 0 else d.raw (o + i)

/-- The 64 bytes of a tile in the dump, but for its program counters, whose form the spec does not give (103). -/
def Tile.dumpBytes (t : Tile) (n : Nat) : List Byte :=
  [t.faultWord n, t.threadState, t.descFault.toNat, t.descVa.toNat, t.wgbStatus].flatMap (natLe 8)

/-- The dump of the device as it stands. -/
def makeDump (cause draw size : Nat) (s : State) : Dump :=
  let events := (s.links.events.flatMap LinkEvent.bytes)
  let boxes := (List.range 16).flatMap fun m => (SMap.getD s.hif.mbs m Mailbox.reset).bytes
  ⟨natLe 4 0x4E4C4F43 ++ natLe 2 1 ++ natLe 4 (s.rse.colo.seq + 1) ++ natLe 8 s.spine.tick ++ natLe 1 cause ++ natLe 4 size,
    [ (0x1000, padTo 4096 (s.identity.flatMap (natLe 8))),
      (0x2000, padTo 0x40000 (s.rse.log.flatMap LogRec.bytes)),
      (0x46000, padTo 4096 ((List.range 32).flatMap s.linkRecord ++ padTo 2048 events)),
      (0x47000, padTo 4096 boxes) ]
      ++ (List.range 256).map fun n => (0x42000 + 64 * n, (s.tile n).dumpBytes n),
    draw⟩


/-- FAULT of a class and cause about this device's own position goes out while the Spine is up (R530, R622, R627). -/
def ownFault (cls cause status : Nat) (s : State) : State :=
  if s.spine.running then
    let s := passFault ⟨s.myPos, cls, cause, s.spine.tick, 0xFFFF⟩ status s
    s.activeLinks.foldl (fun s l => sendUrgent l (SMap.getD (s.link l).queues 0 []).length s) s
  else s

/-- The size of the dump: whole, or its summary. -/
abbrev fullDump : Nat := 0x400000

/-- The device becomes fatal (R530): channels stop, FAULT with cause 0x21 goes out, the links are isolated, the dump is
written to the firmware reserve and its summary to the next slot, and the host and the rack are told. A second
fatal event while the dump is being written leaves COMPLETE at 0. -/
def goFatal (cause : Nat) (s : State) : State :=
  if s.rse.fatal.isSome then
    if s.rse.dumping then { s with rse := { s.rse with colo := { s.rse.colo with complete := false }, dumping := false } } else s
  else
    let s := s.runningChans.foldl (fun s c => stopChan c 6 s) s
    let s := isolate (ownFault 2 0x21 St.internal s)
    let s := { s with rse := { s.rse with fatal := some cause } }
    let dr := s.draw
    let s := dr.2
    let d := makeDump cause dr.1 fullDump s
    let c : Colophon :=
      ⟨true, true, false, cause, (s.rse.colo.seq + 1) % 2 ^ 32, fullDump, Config.colophonBase, s.spine.tick, s.rse.colo.slot⟩
    let s := { s with rse := { s.rse with colo := c, dump := some d, dumping := true } }
    noteHealth (pldmEvent (.colophon cause c.seq) (raiseCause Cause.colophon s))

/-- The colophon summary has reached the next flash slot (R601). -/
def summaryDone (s : State) : State :=
  let k := (s.rse.colo.slot + 1) % 16
  match s.rse.dump with
  | some d => { s with rse := { s.rse with
      slots := SMap.put s.rse.slots k d, colo := { s.rse.colo with slot := k }, dumping := false } }
  | none => s

end Sys2Proof.Machine
end

