-- ==== Sys2Proof/Machine/HostOps.lean ====
section
/-! DEFINITION. What the host interface shares: when its windows decode (R537, R632), the telemetry mirror (R565), the
command index with its marks (R566, R662), and the objects that a command holds (R551). -/

namespace Sys2Proof.Machine

/-! ### When the windows decode -/

/-- PowerState in the power management register: D3hot stops BAR decoding (R536, 10). -/
def State.d3hot (s : State) : Bool := (SMap.getD s.hif.cfg Config.cfgPm 0).toNat % 4 == 3

/-- The BARs decode: once firmware has been ready, throughout DEV (R628), and for the boot ROM in image recovery
(R553, 107). -/
def State.decodes (s : State) : Bool := (s.sys.ready || s.sec.recovery || s.sys.running == some .dev) && !s.d3hot

/-! ### The telemetry mirror (R565) -/

/-- The words of the mirror from offset 8 on, as offsets ÷ 8 and values, in rising order. -/
def State.mirrorWords (s : State) : List (Nat × Nat) :=
  let block (off : Nat) (l : List Nat) : List (Nat × Nat) := (List.range l.length).zip l |>.map fun p => (off / 8 + p.1, p.2)
  let ctrs (off n : Nat) (c : Ctrs) : List (Nat × Nat) := block off ((List.range n).map (Ctrs.get c))
  block 0x08 [s.spine.tick, s.stateWord] ++ block 0x40 s.powerBlock
    ++ block 0x100 [s.spine.committed.getD 0, s.spine.commitTick,
        s.spine.loss.toNat + bit s.spine.lossNondet 32, s.rse.replays]
    ++ block 0x1000 ((List.range 256).flatMap fun t => (List.range 7).map (Ctrs.get (s.tile t).ctrs))
    ++ block 0x4800 ((List.range 256).flatMap fun t => (List.range 6).map (Ctrs.get (s.tile t).tfeCtrs))
    ++ block 0x7800 ((List.range 32).flatMap fun l => (List.range 11).map (Ctrs.get (s.link l).ctrs))
    ++ ctrs 0x8400 5 s.num.ctrs ++ ctrs 0x8500 13 s.leafs.ctrs ++ ctrs 0x8600 5 s.num.wgbCtrs
    ++ ctrs 0x8700 16 s.mem.ctrs ++ ctrs 0x8800 19 s.ptu.ctrs ++ ctrs 0x8900 10 s.cle.ctrs ++ ctrs 0x8A00 11 s.ige.ctrs
    ++ ctrs 0x8B00 12 s.rse.ctrs ++ ctrs 0x8C00 6 s.hif.ctrs ++ ctrs 0x8D00 13 s.pcm.ctrs
    ++ block 0x8E00 [s.rse.odfReplay] ++ ctrs 0x8F00 12 s.mem.prg

/-- The update of the mirror: SEQ advances by two (7). -/
def updateMirror (s : State) : State :=
  let q := (SMap.getD s.hif.mirror 0 0).toNat
  let words := (0, (q + 2) % 2 ^ 64) :: s.mirrorWords
  { s with hif := { s.hif with
      mirror := (words.filter fun p => p.2 % 2 ^ 64 != 0).map fun p => (p.1, BitVec.ofNat 64 p.2) } }

/-! ### The command index (R566) -/

/-- Whether a command is a status command, a recovery command, or neither. -/
inductive CmdKind where
  | plain
  | status
  | recovery
  deriving DecidableEq

/-- The status commands. -/
def statusCmds : List Nat :=
  [ 0x0001, 0x0002, 0x0003, 0x0008, 0x0108, 0x0109, 0x010B, 0x010D, 0x0201, 0x0203, 0x0204, 0x0211, 0x0212, 0x0232,
    0x0308, 0x0309, 0x0320, 0x0346, 0x0349, 0x034B, 0x0401, 0x0403, 0x0407, 0x0409, 0x040B, 0x0502, 0x0509, 0x050B,
    0x050C, 0x050E, 0x050F, 0x0606, 0x0607, 0x0608, 0x060B, 0x0701, 0x0704, 0x070B, 0x0711, 0x0730, 0x0801, 0x0804,
    0x0806, 0x0809, 0x080A, 0x0901, 0x0902, 0x0904, 0x0A01, 0x0A04, 0x0A06, 0x0A07, 0x0A0A ]

/-- The recovery commands (R502). -/
def recoveryCmds : List Nat := [0x0507, 0x0713, 0x0715, 0x0720, 0x0802, 0x0803]

/-- The other commands. -/
def plainCmds : List Nat :=
  [ 0x0004, 0x0005, 0x0006, 0x0007, 0x0009, 0x0101, 0x0102, 0x0103, 0x0104, 0x0105, 0x0106, 0x0107, 0x010A, 0x010C,
    0x010E, 0x0202, 0x0205, 0x0206, 0x0210, 0x0220, 0x0221, 0x0230, 0x0231, 0x0233, 0x0301, 0x0302, 0x0303, 0x0304,
    0x0305, 0x0306, 0x0307, 0x0310, 0x0311, 0x0312, 0x0313, 0x0318, 0x0319, 0x0321, 0x0340, 0x0341, 0x0342, 0x0343,
    0x0344, 0x0345, 0x0347, 0x0348, 0x034A, 0x0402, 0x0404, 0x0405, 0x0406, 0x0408, 0x040A, 0x0501, 0x0503, 0x0504,
    0x0505, 0x0506, 0x0508, 0x050A, 0x0601, 0x0602, 0x0603, 0x0604, 0x0605, 0x0609, 0x060A, 0x0702, 0x0703, 0x0705,
    0x0706, 0x0707, 0x0708, 0x0709, 0x070A, 0x0710, 0x0712, 0x0714, 0x0721, 0x0731, 0x0805, 0x0807, 0x0808, 0x080B,
    0x0903, 0x0905, 0x0906, 0x0907, 0x0908, 0x0909, 0x090A, 0x0A02, 0x0A03, 0x0A05, 0x0A08, 0x0A09, 0x0A0B ]

/-- A code's place in the index; none for a code that it does not list. -/
def cmdKind (c : Nat) : Option CmdKind :=
  if statusCmds.contains c then some .status
  else if recoveryCmds.contains c then some .recovery
  else if plainCmds.contains c then some .plain
  else none

/-! ### Objects (R551) -/

/-- The kinds of objects of R551, and a command range. -/
inductive ObjKind where
  | channel
  | tile
  | slot
  | pool
  | partition
  | region
  | group
  | link
  | herd
  | ingest
  | scrub
  | injection
  | mirror
  | granule
  | range
  deriving DecidableEq

/-- A run of objects of one kind: the first and how many. -/
structure Obj where
  kind : ObjKind
  first : Nat
  count : Nat

/-- Two runs share an object. -/
def Obj.meets (a b : Obj) : Bool :=
  a.kind == b.kind && decide (a.first < b.first + b.count ∧ b.first < a.first + a.count)

/-- The objects of a mask. -/
def maskObjs (k : ObjKind) (n v : Nat) : List Obj := (bitsOf n v).map fun i => ⟨k, i, 1⟩

/-- The fixed-point regions that n blocks from a base word touch. -/
def State.regionsAt (s : State) (w n : Nat) : List Obj :=
  (s.mem.fx.filter fun r => r.2.part == bits w 52 2
      && decide (w % 2 ^ 52 < r.2.base + pageSize * r.2.frames.length ∧ r.2.base < w % 2 ^ 52 + pageSize * n)).map
    fun r => ⟨.region, r.1, 1⟩

/-- The objects that a command changes, by code and arguments (R551, 108). -/
def State.objects (s : State) (code : Nat) (a : Nat → Nat) : List Obj :=
  match code with
  | 0x0101 | 0x0102 | 0x0103 | 0x0104 | 0x0105 | 0x0107 => [⟨.channel, a 0, 1⟩]
  | 0x0106 => ⟨.channel, a 0, 1⟩ :: ((s.chan (a 0)).map (·.tileList) |>.getD []).map fun t => ⟨.tile, t, 1⟩
  | 0x010A => [⟨.tile, a 0, 1⟩]
  | 0x010C | 0x010E => [⟨.tile, a 0, a 1⟩]
  | 0x0202 => [⟨.granule, a 0 / 65536, a 1 / 65536⟩]
  | 0x0206 => maskObjs .partition 4 (a 0)
  | 0x0210 | 0x0302 | 0x0303 | 0x0304 | 0x0305 | 0x0306 | 0x0307 | 0x0312 => [⟨.partition, a 0, 1⟩]
  | 0x0220 | 0x0221 => [⟨.region, a 0, 1⟩]
  | 0x0310 => [⟨.partition, a 1, 1⟩]
  | 0x0340 | 0x0341 => [⟨.pool, a 0, 1⟩]
  | 0x0342 | 0x0343 | 0x0344 | 0x0345 | 0x0347 => [⟨.slot, a 0, 1⟩]
  | 0x0402 | 0x0501 | 0x0505 | 0x0506 | 0x0507 | 0x0508 => [⟨.herd, 0, 1⟩]
  | 0x0404 | 0x0406 | 0x040A => maskObjs .link 32 (a 0)
  | 0x0405 => [⟨.link, a 0, 1⟩]
  | 0x0503 | 0x0504 => [⟨.group, a 0, 1⟩]
  | 0x0601 | 0x0602 | 0x0603 | 0x0604 | 0x0605 | 0x0609 | 0x060A => [⟨.ingest, 0, 1⟩]
  | 0x0703 | 0x0705 => [⟨.scrub, 0, 1⟩]
  | 0x0706 => [⟨.injection, a 0, 1⟩]
  | 0x0707 => maskObjs .injection 16 (a 0)
  | 0x0708 => [⟨.granule, a 0 / 65536, 1⟩]
  | 0x0710 => [⟨.mirror, 0, 1⟩]
  | 0x0805 => [⟨.tile, a 0, a 1⟩]
  | 0x0A08 => s.regionsAt (a 0) (a 1)
  | _ => [⟨.range, code / 256, 1⟩]

/-- The objects that the accepted command of a mailbox holds; a status command holds none (R552). -/
def State.heldBy (s : State) (mb : Nat) : List Obj :=
  let m := s.mailbox mb
  match m.own, cmdKind m.code with
  | true, some .plain => s.objects m.code m.arg
  | true, some .recovery => s.objects m.code m.arg
  | _, _ => []

/-- An object that the command of a mailbox would change is held by another mailbox's command. -/
def State.busyFor (s : State) (mb : Nat) : Bool :=
  (s.heldBy mb).any fun o => (List.range 16).any fun n => n != mb && (s.heldBy n).any fun p => o.meets p

/-- A rewind or a takeover runs: from the fault, or its detection, until the replayed step's first tick (R42). A device
that has isolated itself takes no part in one. -/
def State.recovering (s : State) : Bool :=
  s.rse.window == 1 || s.rse.window == 2 || (s.rse.detected && s.spine.running && !s.links.isolated)

/-- The first of the conditions 1 and 3 to 7 of R662 that holds for the command of a mailbox; a code that the index
does not list is answered by UNDEFINED_COMMAND. -/
def State.gateErr (s : State) (mb : Nat) : Option Status :=
  let m := s.mailbox mb
  let c := m.code
  if bits m.word0.toNat 24 6 ≠ 0 then some St.badArg
  else match cmdKind c with
    | none => none
    | some k => firstErr
      [ (s.rse.fatal.isSome && k != .status && c != 0x0720, St.internal),
        (s.sec.recovery && c != 0x0001 && c != 0x0907, St.state),
        (decide (2 ≤ s.pcm.sstate) && k != .status && c != 0x0807 && c != 0x0004, St.state),
        (s.recovering && k == .plain, St.recovery),
        (s.busyFor mb, St.busy) ]

/-- Camlo accepts the command that a write of word 0 hands over (R547 step 3), and answers it at once when one of
these conditions holds. -/
def acceptCmd (mb : Nat) (word : BitVec 32) (s : State) : State :=
  let s := s.modMailbox mb fun m => { m with word0 := word, acceptTick := s.spine.tick }
  let s := s.hifCtr fun c => Ctrs.sat c 0 1
  match s.gateErr mb with
  | some e => finishCmd mb e [] s
  | none => s

/-- A mailbox takes writes: firmware accepts commands, or the boot ROM serves MB0 (R553, R628). -/
def State.mailboxOpen (s : State) (mb : Nat) : Bool := s.sys.ready || (s.sec.recovery && mb == 0)

/-- A write of word 0 of a mailbox (R547, R548). -/
def writeWord0 (mb : Nat) (word : BitVec 32) (s : State) : State :=
  if !s.mailboxOpen mb then s
  else if (s.mailbox mb).own then s.hifCtr fun c => Ctrs.sat c 1 1
  else if word.getLsbD 31 then acceptCmd mb word s
  else s.modMailbox mb fun m => { m with word0 := word }

/-- Put `v` into the half of a 64-bit word that a 4-byte write names, or the whole of it. -/
def mergeWord (old : BitVec 64) (off width : Nat) (v : BitVec 64) : BitVec 64 :=
  if width = 8 then v
  else if off % 8 = 0 then BitVec.ofNat 64 (old.toNat / 2 ^ 32 * 2 ^ 32 + v.toNat % 2 ^ 32)
  else BitVec.ofNat 64 (old.toNat % 2 ^ 32 + v.toNat % 2 ^ 32 * 2 ^ 32)

/-- A write inside a mailbox: word 0, an argument word, or read-only fields. -/
def writeMailbox (mb off width : Nat) (v : BitVec 64) (s : State) : State :=
  if off < 4 then writeWord0 mb (BitVec.setWidth 32 v) s
  else if !s.mailboxOpen mb then s
  else if (s.mailbox mb).own then s.hifCtr fun c => Ctrs.sat c 1 1
  else if 8 ≤ off ∧ off < 0x80 then
    s.modMailbox mb fun m => { m with args := SMap.updD m.args 0 (off / 8 - 1) fun w => mergeWord w off width v }
  else s

/-- W1C bits are cleared where ones are written (R10). -/
def writeCause (v : BitVec 64) (s : State) : State :=
  { s with hif := { s.hif with intCause := s.hif.intCause &&& ~~~(BitVec.setWidth 15 v) } }

/-- A write of INT_MASK: a cleared bit whose cause reads 1 sends its vector (R564). -/
def writeMask (v : BitVec 64) (s : State) : State :=
  let new := BitVec.setWidth 15 v
  let open_ := (List.range 15).filter fun i => s.hif.intMask.getLsbD i && !new.getLsbD i && s.hif.intCause.getLsbD i
  let s := { s with hif := { s.hif with intMask := new } }
  open_.foldl (fun s i => sendVector (s.causeVector i) s) s

/-- A write of MB_DONE. -/
def writeDone (v : BitVec 64) (s : State) : State :=
  { s with hif := { s.hif with mbDone := s.hif.mbDone &&& ~~~(BitVec.setWidth 16 v) } }

/-- A write of CPL_CONSUMED frees ring entries, and held records post (R560). -/
def writeConsumed (v : BitVec 64) (s : State) : State :=
  postHeld 4096 { s with hif := { s.hif with cplConsumed := BitVec.setWidth 32 v } }

/-- A write of an MSI-X table entry (R540, R564): of vector control only the mask bit is kept (17). -/
def writeMsix (off width : Nat) (v : BitVec 64) (s : State) : State :=
  let n := (off - 0x2000) / 8
  let w := mergeWord (s.msixWord n) off width v
  let w := if n % 2 = 1 then w &&& 0x1FFFFFFFF else w
  let d : BitVec 64 := if n % 2 = 1 then 0x100000000 else 0
  sendPending { s with hif := { s.hif with
    msixTable := if w = d then SMap.del s.hif.msixTable n else SMap.put s.hif.msixTable n w } }

/-- A BAR0 offset that no region of the map holds (R540). -/
def bar0Reserved (off : Nat) : Bool :=
  !(decide (off < 0x2400) || decide (0x3000 ≤ off ∧ off < 0x3008) || decide (0x10000 ≤ off ∧ off < 0x11000)
    || decide (0x20000 ≤ off ∧ off < 0x30000) || decide (0x100000 ≤ off ∧ off < 0x100020))

/-- A BAR0 access that returns 0 or is discarded (R541, R565). -/
def bar0Bad (write : Bool) (off width : Nat) : Bool :=
  !(width == 4 || width == 8) || off % width != 0 || bar0Reserved off || (write && decide (0x20000 ≤ off ∧ off < 0x30000))

end Sys2Proof.Machine
end

