-- ==== Sys2Proof/Machine/Tgc.lean ====
section
/-! DEFINITION. The traffic generators and checkers of the memory channels (R299 to R301): the order in which a
generator visits its sectors, the pattern it writes or expects, and what a run leaves in its result. What the
spec leaves open of orders and patterns is entry (61) of the assumption log. -/

namespace Sys2Proof.Machine

/-! ### The record (R299) -/

namespace Tg
abbrev ops (r : List Byte) : Nat := fieldAt r 0 1
abbrev pattern (r : List Byte) : Nat := fieldAt r 1 1
abbrev order (r : List Byte) : Nat := fieldAt r 2 1
abbrev pcMask (r : List Byte) : Nat := fieldAt r 3 1 % 4
abbrev rowFirst (r : List Byte) : Nat := fieldAt r 4 4
abbrev rowLast (r : List Byte) : Nat := fieldAt r 8 4
abbrev bankMask (r : List Byte) : Nat := fieldAt r 16 8
abbrev seed (r : List Byte) : Nat := fieldAt r 24 8 % 2 ^ 31
abbrev const (r : List Byte) : List Byte := (r.drop 32).take 8
abbrev count (r : List Byte) : Nat := fieldAt r 40 8
abbrev stopOnError (r : List Byte) : Bool := (fieldAt r 48 1).testBit 0
abbrev raw (r : List Byte) : Bool := (fieldAt r 48 1).testBit 1
end Tg

/-- A generator's record; one that was never loaded is all zero. -/
def Hbm.tgcRec (m : Hbm) (n : Nat) : List Byte := SMap.getD m.tgc n (List.replicate 64 0)

/-- Some generator runs. -/
def State.tgcRunning (s : State) : Bool := s.mem.tgcRes.any fun r => r.2.state == 1

/-- The physical address of a sector of a stack, the inverse of R268. -/
def hbmUnmap (stack channel pc bank row col : Nat) : Nat :=
  let w := 2 * channel + pc
  let q := row * 2 ^ 11 + (bank ^^^ (row % 64)) * 2 ^ 5 + col
  let x := q / 8
  let u := (w % 8 * 20 + stack + 160 * (53 * x + x / 2 ^ 5) - (53 * x + x / 2 ^ 5)) % 160
  let v := 160 * (q % 8) + u
  (5 * x + v / 256) * 2 ^ 16 + v % 256 * 2 ^ 8 + w / 8 * 2 ^ 5

/-- A sector of a generator's channel. -/
structure TgSector where
  pc : Nat
  bank : Nat
  row : Nat
  col : Nat
  deriving DecidableEq, Repr

/-- How many sectors a generator's whole range has; in order 2 only two rows of each bank belong to it. -/
def tgRange (r : List Byte) : Nat :=
  (bitsOf 2 (Tg.pcMask r)).length * (bitsOf 64 (Tg.bankMask r)).length * 32
    * (if Tg.order r = 2 then 2 else Tg.rowLast r + 1 - Tg.rowFirst r)

/-- How many sectors a generator accesses. -/
def tgCount (r : List Byte) : Nat := if Tg.count r = 0 then tgRange r else Tg.count r

/-- The sector that access `i` visits (61). -/
def tgSector (r : List Byte) (i : Nat) : TgSector :=
  let pcs := bitsOf 2 (Tg.pcMask r)
  let banks := bitsOf 64 (Tg.bankMask r)
  let p := if Tg.order r = 1 then Config.randomPlace (Tg.seed r) i % tgRange r else i % tgRange r
  let pc := pcs.getD (p % pcs.length) 0
  let q := p / pcs.length
  if Tg.order r = 2 then
    ⟨pc, banks.getD (q / 2 % banks.length) 0, if q % 2 = 0 then Tg.rowFirst r else Tg.rowLast r, q / 2 / banks.length % 32⟩
  else ⟨pc, banks.getD (q / 32 % banks.length) 0, Tg.rowFirst r + q / 32 / banks.length, q % 32⟩

/-- One step of PRBS31, x^31 + x^28 + 1: the bit that comes out is the last stage. -/
def prbsStep (v : Nat) : Nat :=
  let b := (v.testBit 30) != (v.testBit 27)
  (2 * v + (if b then 1 else 0)) % 2 ^ 31

/-- `n` bits of the sequence, first in bit 0, and the register after them. -/
def prbsBits : Nat → Nat → List Bool × Nat
  | 0, v => ([], v)
  | n + 1, v =>
    let r := prbsBits n (prbsStep v)
    (v.testBit 30 :: r.1, r.2)

/-- The bytes of a list of bits. -/
def bitsToBytes (b : List Bool) : List Byte :=
  (List.range (b.length / 8)).map fun i =>
    BitVec.ofNat 8 (ofBits ((List.range 8).filter fun j => b.getD (8 * i + j) false))

/-- The register of generator `n` at its start (R299). -/
def prbsStart (n : Nat) (r : List Byte) : Nat :=
  let v := (Tg.seed r ^^^ (n * 0x9E37)) % 2 ^ 31
  if v = 0 then 1 else v

/-- The 32 bytes that access `i` writes or expects, from the register before it (61). -/
def tgData (r : List Byte) (i k reg : Nat) (x : TgSector) : List Byte :=
  match Tg.pattern r with
  | 0 => bitsToBytes (prbsBits 256 reg).1
  | 1 => (List.range 32).map (Config.addressData k)
  | 2 => natLe 32 (2 ^ (i % 256))
  | 3 => Tg.const r ++ Tg.const r ++ Tg.const r ++ Tg.const r
  | _ => List.replicate 32 (if x.row % 2 = 0 then 0x55 else 0xAA)

/-- A generator reads a sector: as the controller code returns it, or as it is stored with RAW. -/
def tgRead (raw : Bool) (k : Nat) (s : State) : List Byte × State :=
  let pa := 32 * k
  if !s.mem.shareWritten pa && !s.mem.shareBad pa then
    (List.replicate 32 0, s.memCtr fun c => Ctrs.wrap c 3 1)
  else if s.mem.poison.contains k || s.mem.shareBad pa then
    let x := sectorRead k s
    (x.1, x.2.2)
  else
    let d := sectorDamage k s
    let x := sectorJudge k d
    (if raw then xorHead (Mem.readN s.mem.bytes pa 32) d.1 else x.1, x.2.2)

/-- Note one checked sector in the result. -/
def TgcRes.check (q : TgcRes) (x : TgSector) (want got : List Byte) : TgcRes :=
  let diff := List.zipWith (· ^^^ ·) want got
  let n := (diff.map fun b => (bitsOf 8 b.toNat).length).foldl (· + ·) 0
  if n = 0 then q
  else if q.bad = 0 then { q with bad := 1, bits := n, row := x.row, bank := x.bank, col := x.col, pc := x.pc, diff := diff }
  else { q with bad := q.bad + 1, bits := q.bits + n }

/-- One pass of a generator over accesses i, i + 1, …: `write` stores the pattern, `check` compares it. Sectors of
the firmware reserve are not reached (R300). Every pass but the first of two counts its sectors. -/
def tgPass (n : Nat) (r : List Byte) (write check count : Bool) : Nat → Nat → Nat → TgcRes → State → TgcRes × State
  | 0, _, _, q, s => (q, s)
  | fuel + 1, i, reg, q, s =>
    let x := tgSector r i
    let k := hbmUnmap (n / 32) (n % 32) x.pc x.bank x.row x.col / 32
    let next := (prbsBits 256 reg).2
    if reserveBase ≤ 32 * k then tgPass n r write check count fuel (i + 1) next q s
    else
      let data := tgData r i k reg x
      let s := if write then
          let s := touchShare (32 * k) (bitmapLookup (32 * k) s)
          sectorStored k false { s with mem := { s.mem with bytes := Mem.writeN s.mem.bytes (32 * k) data } }
        else s
      let y := if write then ([], s) else tgRead (Tg.raw r) k s
      let q := if check then q.check x data y.1 else q
      let q := if count then { q with done := q.done + 1 } else q
      if check && q.bad != 0 && Tg.stopOnError r then ({ q with state := 3 }, y.2)
      else tgPass n r write check count fuel (i + 1) next q y.2

/-- Run generator `n` over its first `c` accesses; `fin` is the state that it ends in. -/
def tgRun (n c fin : Nat) (s : State) : State :=
  let r := s.mem.tgcRec n
  let reg := prbsStart n r
  let q : TgcRes := { TgcRes.reset with state := fin }
  let x : TgcRes × State := match Tg.ops r with
    | 0 => tgPass n r true false true c 0 reg q s
    | 1 => tgPass n r false true true c 0 reg q s
    | 2 =>
      let w := tgPass n r true false false c 0 reg q s
      tgPass n r false true true c 0 reg w.1 w.2
    | _ => tgPass n r false false true c 0 reg q s
  let s := x.2
  { s with mem := { s.mem with tgcRes := SMap.put s.mem.tgcRes n x.1 } }

/-- The numbers of the generators that run, ascending. -/
def State.tgcActive (s : State) : List Nat := (s.mem.tgcRes.filter fun r => r.2.state == 1).map (·.1)

/-- When no generator runs any more, device memory is unwritten but for the firmware reserve (R300). -/
def tgcSettle (s : State) : State :=
  if s.tgcRunning then s else markUnwritten 0 (reserveBase / 2 ^ 16) s

/-- TGC_COMPLETE (R300): the generators that run complete, and every granule becomes unwritten. -/
def execTgcComplete (s : State) : Host.Outcome State Fault Refusal :=
  if s.tgcRunning then
    .next (tgcSettle (s.tgcActive.foldl (fun s n => tgRun n (tgCount (s.mem.tgcRec n)) 2 s) s))
  else .next s

end Sys2Proof.Machine
end

