-- ==== Sys2Proof/Machine/MemEvents.lean ====
section
/-! DEFINITION. The events of the memory controllers: the regulators (R296, R297), line requests and memory-side
operations (R277, R286 to R291), legacy atomic operations (R284, R285), hot banks (R272) and the stacks' own
scrub results (R266). -/

namespace Sys2Proof.Machine

/-! ### The regulators -/

/-- Refill one pair of buckets: 5 × FLOOR and 5 × CEIL bytes, up to BURST (R296). -/
def refillBucket (c p : Nat) (m : Hbm) : Hbm :=
  let r := m.reg p
  { m with
    floorB := SMap.updD m.floorB 0 (4 * c + p) fun v => min (v + 5 * r.floor) (r.burst * 1024)
    ceilB := SMap.updD m.ceilB 0 (4 * c + p) fun v => min (v + 5 * r.ceil) (r.burst * 1024) }

/-- PRG_BUCKET_REFILL (R296): every controller refills its buckets. -/
def execPrgBucketRefill (s : State) : Host.Outcome State Fault Refusal :=
  .next { s with mem := (List.range 20).foldl (fun m c => (List.range 4).foldl (fun m p => refillBucket c p m) m) s.mem }

/-- The request at the front of a partition's queue at a controller, when it may be granted. -/
def Hbm.waiting (m : Hbm) (c p : Nat) : Option Ticket := (SMap.getD m.ingress (4 * c + p) []).head?.filter (·.ready)

/-- The floor bucket holds the cost of the partition's waiting request. -/
def Hbm.floorHolds (m : Hbm) (c p : Nat) : Bool :=
  match m.waiting c p with
  | some k => decide (k.cost ≤ SMap.getD m.floorB (4 * c + p) 0)
  | none => false

/-- The ceiling bucket holds the cost, or the partition has no cap. -/
def Hbm.ceilHolds (m : Hbm) (c p : Nat) : Bool :=
  match m.waiting c p with
  | some k => (m.reg p).ceil == 0 || decide (k.cost ≤ SMap.getD m.ceilB (4 * c + p) 0)
  | none => false

/-- The partition may borrow. -/
def Hbm.borrows (m : Hbm) (c p : Nat) : Bool := (m.waiting c p).isSome && (m.reg p).borrow

/-- The four partitions in round-robin order from one on. -/
def rotation (i : Nat) : List Nat := (List.range 4).map fun k => (i + k) % 4

/-- The partition that a controller's slot grants, with the round-robin position that its choice used
(R297): 0 for step 1, 1 for step 2 and for borrowing (63). -/
def Hbm.grantee (m : Hbm) (c : Nat) : Option (Nat × Nat) :=
  match (rotation (SMap.getD m.rr (2 * c) 0)).find? (m.floorHolds c) with
  | some p => some (p, 0)
  | none =>
    let order := rotation (SMap.getD m.rr (2 * c + 1) 0)
    match order.find? (m.ceilHolds c) with
    | some p => some (p, 1)
    | none => (order.find? (m.borrows c)).map fun p => (p, 1)

/-- Count the slot for the partitions that wait (R298, 63). -/
def countSlot (c : Nat) (g : Option Nat) (m : Hbm) : Hbm :=
  { m with prg := (List.range 4).foldl (fun k p =>
      let k := if g = some p then Ctrs.wrap k (3 * p) 1 else k
      let k := if (m.waiting c p).isSome && !m.ceilHolds c p then Ctrs.wrap k (3 * p + 1) 1 else k
      if g.isSome && g != some p && m.floorHolds c p then Ctrs.wrap k (3 * p + 2) 1 else k) m.prg }

/-- Move a granted request into its bank set's queue and debit both buckets (R296, R297). -/
def grantTicket (c p step : Nat) (k : Ticket) (s : State) : State :=
  let m := s.mem
  let m := { m with
    ingress := SMap.updD m.ingress [] (4 * c + p) (·.drop 1)
    bankQ := SMap.updD m.bankQ [] k.bank fun l => dropServed (l ++ [k])
    floorB := SMap.updD m.floorB 0 (4 * c + p) (· - k.cost)
    ceilB := SMap.updD m.ceilB 0 (4 * c + p) (· - k.cost)
    rr := SMap.setD m.rr 0 (2 * c + step) ((p + 1) % 4) }
  ({ s with mem := m } : State).modTile k.tile fun x =>
    { x with reqs := SMap.upd x.reqs k.req fun r => { r with granted := true } }

/-- The dies that bytes cross from their tile to the controller that writes them (R24); what a read returns crosses when
the request completes. -/
def grantPath (k : Ticket) (r : Req) : List Nat :=
  let out (l : Loc) : List Nat := (l.pa.map fun pa => fabricPath (k.tile / 64) (stackDie pa) pa).getD []
  match k.kind with
  | .read => []
  | .write => out r.loc
  | .copyOut => out r.dst

/-- A controller grants a request and serves it: five failures of its transfer to the controller end in a fault, and it
goes on waiting (R25, R26). -/
def grantServe (c p step : Nat) (k : Ticket) (s : State) : State :=
  match SMap.lookup (s.tile k.tile).reqs k.req, (SMap.lookup (s.tile k.tile).reqs k.req).bind (s.reqDesc k.tile) with
  | some r, some d =>
    match fabricCross (grantPath k r) s with
    | (some die, _, s) => fabricFault die s
    | (none, dmg, s) => serveTicket k r d dmg (grantTicket c p step k s)
  | _, _ => grantTicket c p step k s

/-- The slot goes to traffic of no partition that waits: no partition can be granted, or it has waited in 63 slots. -/
def Hbm.freeSlot (m : Hbm) (c : Nat) : Bool :=
  match SMap.lookup m.freeWait c with
  | some n => decide (n < 64) && ((m.grantee c).isNone || n == 63)
  | none => false

/-- Traffic of no partition has waited for one more slot. -/
def Hbm.freeStep (m : Hbm) (c : Nat) : Hbm :=
  { m with freeWait := SMap.upd m.freeWait c fun n => if m.freeSlot c then 64 else if n < 64 then n + 1 else n }

/-- REGULATOR_GRANT (R297): a controller's grant slot. -/
def execRegulatorGrant (c : Fin 20) (s : State) : Host.Outcome State Fault Refusal :=
  let g := if s.mem.freeSlot c then none else s.mem.grantee c
  let s := { s with mem := s.mem.freeStep c }
  let t := { s with mem := countSlot c (g.map (·.1)) s.mem }
  match g with
  | none => .next t
  | some (p, k) =>
    match s.mem.waiting c p with
    | some q => done (grantServe c p k q t)
    | none => .next t

/-- Traffic of no partition may pass a controller: it holds a slot there, or no partition can be granted. -/
def Hbm.freeMay (m : Hbm) (c : Nat) : Bool := SMap.lookup m.freeWait c == some 64 || (m.grantee c).isNone

/-- Charge an access of the host to its partition, or let it pass as traffic of none (R297, R543): whether it may go, and
the regulators then; one that may not begins to wait. -/
def chargeHost (part pa n : Nat) (m : Hbm) : Bool × Hbm :=
  let cs := NSet.addAll [] ((linePieces pa n).map fun p => stackOf p.1)
  if part < 4 then
    match chargeLines part pa n m with
    | some m => (true, m)
    | none => (false, m)
  else if cs.all m.freeMay then (true, { m with freeWait := cs.foldl (fun w c => SMap.del w c) m.freeWait })
  else (false, { m with
    freeWait := cs.foldl (fun w c => if (SMap.lookup w c).isSome then w else SMap.put w c 0) m.freeWait })

/-! ### Requests of one line -/

/-- The controllers serve requests, and a request of n bytes at an address lies in one line (62). -/
def State.lineOk (s : State) (pa n : Nat) : Bool :=
  s.mem.trained && !s.mem.selfRefresh && decide (0 < n ∧ pa % 256 + n ≤ 256 ∧ pa < hbmEnd)

/-- An access to a line goes to its stack: no slice holds the line, and its share has been written (R277, R281). -/
def State.reachesStack (s : State) (pa : Nat) : Bool :=
  (SMap.lookup s.mem.shc (pa / 256)).isNone && s.mem.shareWritten pa

/-- The first transfer and all four of its retries failed (R273). -/
def busLost (x : LineReport) : Bool := decide (5 ≤ x.fails)

/-- Count what the stack and the bus reported of an access: retries (R275), corrections of on-die ECC (R266), and of the
controller code (R273). -/
def countReport (x : LineReport) (s : State) : State :=
  s.memCtr fun c =>
    let c := if x.fails = 0 then c else Ctrs.sat c 8 (min x.fails 4)
    if x.severity = 1 then Ctrs.sat c 6 1 else if x.severity = 2 ∧ x.bytes = 1 then Ctrs.sat c 5 1 else c

/-- The sectors of a read that its report makes uncorrected: all of them when the transfer was lost, the first when the
controller code cannot correct what the stack could not. -/
def lineUncorrected (x : LineReport) (pa len : Nat) : List Nat :=
  if busLost x then sectorsOf pa len
  else if x.severity = 2 ∧ 2 ≤ x.bytes then (sectorsOf pa len).take 1
  else []

/-- A read of a line: its bytes return with the sectors marked bad, numbered from the first that it touches. -/
def reportedRead (pa len : Nat) (x : LineReport) (s : State) : State :=
  let x := if s.reachesStack pa then x else LineReport.good
  let r := hbmRead pa len (countReport x s)
  let more := (lineUncorrected x pa len).filter fun k => !r.2.1.contains k
  (more.foldl (fun s k => markBad (32 * k) St.uncorrectable false false s) r.2.2).emit
    (.line r.1 (markOffsets pa (NSet.addAll r.2.1 more)))

/-- A write to a line: one whose transfer is lost leaves its sectors poisoned. -/
def reportedWrite (pa : Nat) (data : List Byte) (bad : Bool) (x : LineReport) (s : State) : State :=
  let x := if (SMap.lookup s.mem.shc (pa / 256)).isNone then x else LineReport.good
  taintPa pa data.length (hbmWrite pa data (bad || busLost x) (countReport { x with severity := 0 } s))

/-- WRITE_OR_READ (R277): a plain write, or a read. A request whose tracker fails its parity is not served: a transient
fault (R273). -/
def execWriteOrRead (write : Bool) (pa : BitVec 40) (len : Nat) (data : List Byte) (line : LineAccess) (s : State) :
    Host.Outcome State Fault Refusal :=
  let a := pa.toNat
  if !s.lineOk a (if write then data.length else len) then .next s
  else if line.rep.tracker then done (reportFault (ctrlRecord 0x04 St.uncorrectable a) s)
  else .next (if write then reportedWrite a data line.bad line.rep s else reportedRead a len line.rep s)

/-- A memory-side operation on words of w bytes may be served: whole aligned words. -/
def State.wordsOk (s : State) (pa n w : Nat) : Bool := s.lineOk pa n && pa % w == 0 && n % w == 0

/-- A memory-side operation that an event names, on words that may be a slot's leaf table (R188). -/
def memOpEvent (op pa : Nat) (data : List Byte) (s : State) : State := taintPa pa data.length (memOpLine op false pa data s)

/-- IADD32 (R286). -/
def execIadd32 (pa : BitVec 40) (data : List Byte) (s : State) : Host.Outcome State Fault Refusal :=
  .next (if s.wordsOk pa.toNat data.length 4 then memOpEvent 1 pa.toNat data s else s)

/-- IADD64 (R286). -/
def execIadd64 (pa : BitVec 40) (data : List Byte) (s : State) : Host.Outcome State Fault Refusal :=
  .next (if s.wordsOk pa.toNat data.length 8 then memOpEvent 2 pa.toNat data s else s)

/-- FMAX32 (R286). -/
def execFmax32 (pa : BitVec 40) (data : List Byte) (s : State) : Host.Outcome State Fault Refusal :=
  .next (if s.wordsOk pa.toNat data.length 4 then memOpEvent 3 pa.toNat data s else s)

/-- An FADD of contributions of w bytes each may be served: in relaxed mode outside every region, in
deterministic mode on 8-byte words of one region (R287, R289). -/
def State.faddOk (s : State) (relaxed : Bool) (pa n w : Nat) : Bool :=
  if relaxed then s.wordsOk pa n w && (s.mem.fxFind (pa / 2 ^ 16)).isNone
  else n % w == 0 && s.wordsOk pa (n / w * 8) 8 && (s.mem.fxFind (pa / 2 ^ 16)).isSome

/-- An FADD on behalf of a channel, in its mode; a relaxed one sets NONDET (R33, R36, R78). -/
def faddLine (op w c pa : Nat) (data : List Byte) (s : State) : State :=
  match s.chan c with
  | none => s
  | some x =>
    if !s.faddOk x.relaxed pa data.length w then s
    else
      let t := taintPa pa data.length (memOpLine op x.relaxed pa data s)
      if x.relaxed then setNondet (some c) t else t

/-- FADD32 (R74, R78, R286). -/
def execFadd32 (chan : Fin 4096) (pa : BitVec 40) (data : List Byte) (s : State) : Host.Outcome State Fault Refusal :=
  .next (faddLine 4 4 chan pa.toNat data s)

/-- FADDBF16 (R286). -/
def execFaddbf16 (chan : Fin 4096) (pa : BitVec 40) (data : List Byte) (s : State) : Host.Outcome State Fault Refusal :=
  .next (faddLine 5 2 chan pa.toNat data s)

/-- A finalise of one block of a region: its values line by line, then the granule becomes unwritten
(R77, R291). -/
def finalBlock (wide : Bool) (pa : Nat) (s : State) : State :=
  if s.mem.trained && !s.mem.selfRefresh && pa % pageSize == 0 && (s.mem.fxFind (pa / pageSize)).isSome then
    let r := (List.range 256).foldl (fun (a : List Byte × List Nat × State) i =>
      let x := finalLine wide (pa + 256 * i) a.2.2
      (a.1 ++ x.1, a.2.1 ++ markOffsets pa x.2.1, x.2.2)) ([], [], s)
    markUnwritten (pa / pageSize) 1 (r.2.2.emit (.line r.1 r.2.1))
  else s

/-- FINAL32 (R77). -/
def execFinal32 (pa : BitVec 40) (s : State) : Host.Outcome State Fault Refusal := .next (finalBlock true pa.toNat s)

/-- FINALBF16 (R77). -/
def execFinalbf16 (pa : BitVec 40) (s : State) : Host.Outcome State Fault Refusal := .next (finalBlock false pa.toNat s)

/-! ### Legacy atomic operations -/

/-- A legacy atomic operation on a word, on behalf of a channel: the old value returns, marked when its
sector is (R284, R285). A word in a fixed-point region is a descriptor's fault and does not get here. -/
def legacyAtomic (c code sel pa : Nat) (wide : Bool) (x cmp : Nat) (s : State) : State :=
  let w := if wide then 8 else 4
  match s.chan c with
  | none => s
  | some k =>
    if s.wordsOk pa w w && (s.mem.fxFind (pa / 2 ^ 16)).isNone then
      let r := atomicWord (some c) k.part code sel w pa (x % 2 ^ (8 * w)) (cmp % 2 ^ (8 * w)) (taintPa pa w s)
      if r.2.1 then r.2.2.emit (.line (natLe w r.1) [0]) else r.2.2.emit (.old (BitVec.ofNat 64 r.1))
    else s

/-- ATOMIC_INT_ADD (R284). -/
def execAtomicIntAdd (chan : Fin 4096) (pa : BitVec 40) (wide : Bool) (x : BitVec 64) (s : State) :
    Host.Outcome State Fault Refusal := .next (legacyAtomic chan 1 0 pa.toNat wide x.toNat 0 s)

/-- ATOMIC_SWAP (R284). -/
def execAtomicSwap (chan : Fin 4096) (pa : BitVec 40) (wide : Bool) (x : BitVec 64) (s : State) :
    Host.Outcome State Fault Refusal := .next (legacyAtomic chan 2 0 pa.toNat wide x.toNat 0 s)

/-- ATOMIC_COMPARE_AND_SWAP (R284). -/
def execAtomicCompareAndSwap (chan : Fin 4096) (pa : BitVec 40) (wide : Bool) (x cmp : BitVec 64) (s : State) :
    Host.Outcome State Fault Refusal := .next (legacyAtomic chan 3 0 pa.toNat wide x.toNat cmp.toNat s)

/-- ATOMIC_AND_OR_XOR (R284). -/
def execAtomicAndOrXor (chan : Fin 4096) (pa : BitVec 40) (wide : Bool) (sel : Fin 3) (x : BitVec 64) (s : State) :
    Host.Outcome State Fault Refusal := .next (legacyAtomic chan 4 sel pa.toNat wide x.toNat 0 s)

/-- ATOMIC_MIN_MAX (R284). -/
def execAtomicMinMax (chan : Fin 4096) (pa : BitVec 40) (wide takeMax : Bool) (x : BitVec 64) (s : State) :
    Host.Outcome State Fault Refusal :=
  .next (legacyAtomic chan 5 (if takeMax then 1 else 0) pa.toNat wide x.toNat 0 s)

/-- ATOMIC_FLOAT_ADD (R284): FP32 only. -/
def execAtomicFloatAdd (chan : Fin 4096) (pa : BitVec 40) (x : BitVec 32) (s : State) :
    Host.Outcome State Fault Refusal := .next (legacyAtomic chan 6 0 pa.toNat false x.toNat 0 s)

/-! ### Hot banks and the stacks' scrub results -/

/-- Requests in a bank set's queue. -/
def Hbm.depth (m : Hbm) (bank : Nat) : Nat := (SMap.getD m.bankQ bank []).length

/-- The partition with the most requests in a bank set's queue; ties go to the lowest. -/
def Hbm.mostIn (m : Hbm) (bank : Nat) : Nat :=
  let n (p : Nat) : Nat := ((SMap.getD m.bankQ bank []).filter fun k => k.part == p).length
  [1, 2, 3].foldl (fun b p => if n b < n p then p else b) 0

/-- An episode of a bank set may have these data: it has begun, its queue is hot now, and the depth has peaked at what the
queue holds now or at more than that. -/
def Hbm.episodeOk (m : Hbm) (bank peak part : Nat) : Bool :=
  !m.hot.contains bank && decide (256 ≤ m.depth bank ∧ m.depth bank ≤ peak) && (peak != m.depth bank || part == m.mostIn bank)

/-- HOT_BANK_EPISODE (R272): an episode of 2^16 hot cycles is counted, logged at its controller, and named as
its partition's most recent. -/
def execHotBankEpisode (bank : Fin 10240) (startTick peak : Nat) (part : Fin 4) (s : State) :
    Host.Outcome State Fault Refusal :=
  if !s.mem.episodeOk bank peak part || decide (s.spine.tick < startTick) then .next s
  else
    let m := s.mem
    let m := { m with
      hot := NSet.insert m.hot bank
      lastHot := SMap.put m.lastHot part (bank.val, startTick)
      hotLog := SMap.updD m.hotLog [] (bank / 512) fun l => ((⟨bank, startTick, peak, part⟩ : HotRec) :: l).take 16
      ctrs := Ctrs.sat m.ctrs 9 1 }
    .next { s with mem := m }

/-- HOT_BANK_EPISODE_END (R272): the queue has fallen below 256. -/
def execHotBankEpisodeEnd (bank : Fin 10240) (s : State) : Host.Outcome State Fault Refusal :=
  if 256 ≤ s.mem.depth bank then .next s
  else .next { s with mem := { s.mem with hot := NSet.erase s.mem.hot bank } }

/-- ECS_RESULT_READ (R266): what each stack's own scrub corrected since the last read is counted and
logged (64). -/
def execEcsResultRead (errors : List Nat) (s : State) : Host.Outcome State Fault Refusal :=
  if !s.mem.trained then .next s
  else .next (((List.range 20).zip errors).foldl (fun s e =>
    if e.2 = 0 then s
    else logError { LogRec.make 3 0 St.ok e.1 with detail := e.2 % 2 ^ 64 } (s.memCtr fun c => Ctrs.sat c 6 e.2)) s)

end Sys2Proof.Machine
end

