-- ==== Sys2Proof/Machine/HostEvents.lean ====
section
/-! DEFINITION. The host's accesses (R537 to R548, R561 to R565), the general commands (R567) and the host interface
counters (R568). -/

namespace Sys2Proof.Machine

/-! ### Configuration space (R536, R537) -/

/-- Configuration requests complete normally (R537, 107). -/
def State.configOpen (s : State) : Bool := s.sys.ready || s.sec.recovery || s.sys.running == some .dev

/-- A write of a configuration dword; the resizable BAR control sets BAR2's size, and Initiate Function Level Reset
does not read back (10). -/
def writeConfig (n : Nat) (v : BitVec 32) (s : State) : State :=
  let w := Config.cfgWritable n
  let new := (s.cfgDword n &&& ~~~w) ||| (v &&& w)
  let new := if n = Config.cfgDevCtl then new &&& ~~~(BitVec.ofNat 32 (2 ^ 15)) else new
  let s := { s with hif := { s.hif with cfg := SMap.put s.hif.cfg n new } }
  let k := bits new.toNat 8 5
  let s := if n = Config.cfgRebar ∧ 14 ≤ k ∧ k ≤ 20 then { s with hif := { s.hif with bar2Size := 2 ^ (20 + k) } } else s
  if n = Config.cfgMsix then sendPending s else s

/-- CONFIG_REQUEST (R537). -/
def execConfigRequest (write : Bool) (off : BitVec 12) (data : BitVec 32) (s : State) : Host.Outcome State Fault Refusal :=
  let n := off.toNat / 4
  if !s.configOpen then .next (s.emit .cfgRetry)
  else if write then .next ((writeConfig n data s).emit .cfgWritten)
  else .next (s.emit (.cfgRead (s.cfgDword n)))

/-- PCIE_LINK_UP (R536): the highest common rate, 7 for 128 GT/s down to 1 for 2.5 GT/s, and the width. -/
def execPcieLinkUp (rates : BitVec 7) (width : Nat) (s : State) : Host.Outcome State Fault Refusal :=
  let r := (((List.range 7).filter fun i => rates.getLsbD i).getLast?.map (· + 1)).getD 0
  let w := ([8, 4, 2, 1].find? (· ≤ width)).getD 0
  if !s.sys.pwrGood || !s.sys.perstN || r = 0 || w = 0 then .next s
  else .next { s with hif := { s.hif with pcieRate := r, pcieWidth := w } }

/-! ### BAR0 (R541, R546 to R548, R560 to R564) -/

/-- BAR0_ACCESS_ERROR (R541). -/
def execBar0AccessError (write : Bool) (off : BitVec 21) (width : Nat) (s : State) : Host.Outcome State Fault Refusal :=
  if !s.decodes then .next (s.emit .unsupported)
  else if !bar0Bad write off.toNat width then .next s
  else
    let s := s.hifCtr fun c => Ctrs.sat c 3 1
    .next (if write then s else s.emit (.barRead 0 (List.replicate width 0) false))

/-- MAILBOX_HANDOFF (R547). -/
def execMailboxHandoff (mb : Fin 16) (word : BitVec 32) (s : State) : Host.Outcome State Fault Refusal :=
  if !s.decodes then .next (s.emit .unsupported) else .next (writeWord0 mb word s)

/-- MAILBOX_WRITE_DROP (R548). -/
def execMailboxWriteDrop (mb : Fin 16) (_off : BitVec 8) (s : State) : Host.Outcome State Fault Refusal :=
  if s.decodes && s.mailboxOpen mb && (s.mailbox mb).own then .next (s.hifCtr fun c => Ctrs.sat c 1 1) else .next s

/-- INT_CAUSE_WRITE (R10, R561). -/
def execIntCauseWrite (v : BitVec 64) (s : State) : Host.Outcome State Fault Refusal :=
  if s.decodes then .next (writeCause v s) else .next (s.emit .unsupported)

/-- INT_MASK_WRITE (R561, R564). -/
def execIntMaskWrite (v : BitVec 64) (s : State) : Host.Outcome State Fault Refusal :=
  if s.decodes then .next (writeMask v s) else .next (s.emit .unsupported)

/-- MB_DONE_WRITE (R10, R561). -/
def execMbDoneWrite (v : BitVec 64) (s : State) : Host.Outcome State Fault Refusal :=
  if s.decodes then .next (writeDone v s) else .next (s.emit .unsupported)

/-- CPL_CONSUMED_WRITE (R560). -/
def execCplConsumedWrite (v : BitVec 64) (s : State) : Host.Outcome State Fault Refusal :=
  if s.decodes then .next (writeConsumed v s) else .next (s.emit .unsupported)

/-- REGISTER_WRITE (R12): a write to BAR0 that reaches a register does what the register's access code states; a
read-only field keeps its value (R14). -/
def execRegisterWrite (off : BitVec 21) (width : Nat) (v : BitVec 64) (s : State) : Host.Outcome State Fault Refusal :=
  let o := off.toNat
  let v := if width = 4 then v &&& 0xFFFFFFFF else v
  if !s.decodes then .next (s.emit .unsupported)
  else if bar0Bad true o width then .next s
  else if 0x10000 ≤ o ∧ o < 0x11000 then .next (writeMailbox ((o - 0x10000) / 256) (o % 256) width v s)
  else if 0x2000 ≤ o ∧ o < 0x2400 then .next (writeMsix o width v s)
  else match o with
    | 0x1000 => .next (writeCause v s)
    | 0x1008 => .next (writeMask v s)
    | 0x1010 => .next (writeDone v s)
    | 0x1020 => .next (writeConsumed v s)
    | _ => .next s

/-- TELEMETRY_MIRROR_UPDATE (R565). -/
def execTelemetryMirrorUpdate (s : State) : Host.Outcome State Fault Refusal := .next (updateMirror s)

/-! ### BAR2 and BAR4 (R542 to R545) -/

/-- The full dump of a colophon covers an address, and the host may read it (R532, R542). -/
def State.inDump (s : State) (pa len : Nat) : Option Dump :=
  if s.rse.colo.valid && !s.rse.colo.location && decide (Config.colophonBase ≤ pa ∧ pa + len ≤ Config.colophonBase + fullDump)
  then s.rse.dump else none

/-- The access is dropped (R542, R628). -/
def State.bar2Drops (s : State) (write : Bool) (pa len : Nat) : Bool :=
  !s.sys.ready || s.generators || decide (2 ≤ s.pcm.sstate) || decide (hbmEnd < pa + len)
    || (decide (reserveBase < pa + len) && (write || (s.inDump pa len).isNone))
    || (List.range ((pa + len - 1) / pageSize - pa / pageSize + 1)).any fun i => s.isRetired (pa / pageSize + i)


/-- Serve a BAR2 access: its bytes cross the fabric between D0, which has the host interface, and the die of their stack
(R24, R25). -/
def bar2Serve (write : Bool) (pa n : Nat) (data : List Byte) (poisoned : Bool) (s : State) : State :=
  match fabricCross (fabricPath 0 (stackDie pa) pa) s with
  | (some d, _, s) => fabricFault d s
  | (none, dmg, s) =>
    if write then taintPa pa n (hbmWrite pa (xorHead data dmg) poisoned s)
    else
      let r := hbmRead pa n s
      r.2.2.emit (.barRead 2 (s.withTables pa (xorHead r.1 dmg)) (!r.2.1.isEmpty))

/-- BAR2_ACCESS (R539, R542, R543). -/
def execBar2Access (write : Bool) (off : BitVec 40) (len : Nat) (data : List Byte) (poisoned : Bool) (s : State) :
    Host.Outcome State Fault Refusal :=
  let o := off.toNat
  let pa := s.hif.windowBase + o
  let n := if write then data.length else len
  if !s.decodes then .next (s.emit .unsupported)
  else if n = 0 || decide (s.hif.bar2Size < o + n) then .next s
  else if s.bar2Drops write pa n then
    let s := s.hifCtr fun c => Ctrs.sat c 4 1
    .next (if write then s else s.emit (.barRead 2 (List.replicate n 0) false))
  else if let (false, some d) := (write, s.inDump pa n) then
    .next (s.emit (.barRead 2 (d.read (pa - Config.colophonBase) n) false))
  else
    let r := chargeHost s.hif.windowPart pa n s.mem
    let s := { s with mem := r.2 }
    if r.1 then done (bar2Serve write pa n data poisoned s) else .next s

/-! ### The debug window (R90, R131, R132, R180, R260, R353, R545) -/

/-- A tile control register, by its number from 0x1C0000 on; one that the spec does not name reads 0 (R14). -/
def Tile.ctrlWord (t : Tile) (n k : Nat) : Nat :=
  if k = 0 then t.faultWord n
  else if k = 1 then t.threadState
  else if 8 ≤ k ∧ k < 16 then (t.thread (k - 8)).flags.toNat
  else if k = 16 then t.wgbStatus
  else if k = 24 then t.descFault.toNat
  else if k = 25 then t.descVa.toNat
  else 0

/-- Byte i of a 32-bit word. -/
def wordByte (w : BitVec 32) (i : Nat) : Byte := BitVec.ofNat 8 (w.toNat / 256 ^ (i % 4))

/-- A 32-bit word with byte i replaced. -/
def setWordByte (w : BitVec 32) (i : Nat) (b : Byte) : BitVec 32 :=
  BitVec.ofNat 32 (w.toNat - (wordByte w i).toNat * 256 ^ (i % 4) + b.toNat * 256 ^ (i % 4))

/-- The byte at a tile-local address, as the debug window reads it (R90). -/
def Tile.localByte (t : Tile) (n a : Nat) : Byte :=
  if a < 0x100000 then Mem.get t.scratch a
  else if a < 0x140000 then wordByte (SMap.getD t.wgb ((a - 0x100000) / 4) 0) a
  else if a < 0x144000 then wordByte (SMap.getD t.vregs ((a - 0x140000) / 4) 0) a
  else if 0x180000 ≤ a ∧ a < 0x1C0000 then wordByte (SMap.getD t.acc ((a - 0x180000) / 4) 0) a
  else if 0x1C0000 ≤ a ∧ a < 0x1C1000 then BitVec.ofNat 8 (t.ctrlWord n ((a - 0x1C0000) / 8) / 256 ^ (a % 8))
  else 0

/-- A byte that the debug window writes (R90): tile control registers are read-only, and a reserved range holds nothing. -/
def Tile.setLocalByte (t : Tile) (a : Nat) (b : Byte) : Tile :=
  let put (m : SMap (BitVec 32)) (o : Nat) : SMap (BitVec 32) := SMap.updD m 0 (o / 4) fun w => setWordByte w o b
  if a < 0x100000 then { t with scratch := Mem.writeN t.scratch a [b] }
  else if a < 0x140000 then
    { t with wgb := put t.wgb (a - 0x100000), dirty := NSet.insert t.dirty ((a - 0x100000) / 64) }
  else if a < 0x144000 then { t with vregs := put t.vregs (a - 0x140000) }
  else if 0x180000 ≤ a ∧ a < 0x1C0000 then { t with acc := put t.acc (a - 0x180000) }
  else t

/-- A byte of the window: a tile's (20), or a free value. -/
def State.debugByte (s : State) (draw off : Nat) : Byte :=
  match Config.debugAddr off with
  | some (t, a) => if t < 256 then (s.tile t).localByte t a else Config.freeByte draw off
  | none => Config.freeByte draw off

/-- Write a byte through the window. -/
def debugWrite (off : Nat) (b : Byte) (s : State) : State :=
  match Config.debugAddr off with
  | some (t, a) => if t < 256 then s.modTile t fun x => x.setLocalByte a b else s
  | none => s

/-- BAR4_ACCESS (R545, R616): while debug is closed reads return 0 and writes are discarded. Where the open window shows a
tile-local address is the device's own (20). -/
def execBar4Access (write : Bool) (off : BitVec 24) (width : Nat) (data : BitVec 64) (s : State) :
    Host.Outcome State Fault Refusal :=
  let o := off.toNat
  if !s.decodes then .next (s.emit .unsupported)
  else if s.sec.debug = 0 then
    let s := s.hifCtr fun c => Ctrs.sat c 5 1
    .next (if write then s else s.emit (.barRead 4 (List.replicate width 0) false))
  else if write then
    .next ((List.range width).foldl (fun s i => debugWrite (o + i) (BitVec.ofNat 8 (data.toNat / 256 ^ i)) s) s)
  else
    let d := s.draw
    .next (d.2.emit (.barRead 4 ((List.range width).map fun i => d.2.debugByte d.1 (o + i)) false))

/-! ### General commands (R567, R662) -/

/-- UNDEFINED_COMMAND (R566, R662). -/
def execUndefinedCommand (mb : Fin 16) (s : State) : Host.Outcome State Fault Refusal :=
  if (s.mailbox mb).own && (cmdKind (s.mailbox mb).code).isNone then .next (finishCmd mb St.unknownCmd [] s) else .next s

/-- GET_IDENTITY: the identity words, BAR2's size and W; in image recovery also the boot step that failed and its reason
(R605, 109). -/
def cmdGetIdentity (_a : Nat → Nat) (s : State) : Reply :=
  let boot := match s.sec.recovery, s.sec.bootFail with
    | true, some f => [f.1, f.2]
    | _, _ => []
  .ok (s.identity ++ [s.hif.bar2Size, s.hif.windowBase] ++ boot) s

/-- GET_IDENTITY (R567). -/
def execGetIdentity (mb : Fin 16) (s : State) : Host.Outcome State Fault Refusal := runCmd mb 0x0001 0 cmdGetIdentity s

/-- MB_ECHO: the argument words, unchanged. -/
def cmdMbEcho (a : Nat → Nat) (s : State) : Reply := .ok ((List.range 15).map a) s

/-- MB_ECHO (R567). -/
def execMbEcho (mb : Fin 16) (s : State) : Host.Outcome State Fault Refusal := runCmd mb 0x0002 15 cmdMbEcho s

/-- The sixteen bytes of a mailbox's record. -/
def Mailbox.record (m : Mailbox) : List Byte :=
  natLe 2 m.code ++ natLe 1 (bit m.own 0) ++ natLe 5 0 ++ natLe 6 m.acceptTick ++ natLe 2 0

/-- MB_STATUS: sixteen records. -/
def cmdMbStatus (a : Nat → Nat) (s : State) : Reply :=
  report (a 0) ((List.range 16).flatMap fun n => (s.mailbox n).record) [] s

/-- MB_STATUS (R567). -/
def execMbStatus (mb : Fin 16) (s : State) : Host.Outcome State Fault Refusal := runCmd mb 0x0003 1 cmdMbStatus s

/-- DEVICE_RESET: DEV begins 1 ms later. -/
def cmdDeviceReset (_a : Nat → Nat) (s : State) : Reply :=
  checked [(s.spine.running, St.state)] (.ok [] { s with sys := { s.sys with devPending := true } })

/-- DEVICE_RESET (R567). -/
def execDeviceReset (mb : Fin 16) (s : State) : Host.Outcome State Fault Refusal := runCmd mb 0x0004 0 cmdDeviceReset s

/-- BAR2_WINDOW_SET: the window base and the partition that is charged. -/
def cmdBar2WindowSet (a : Nat → Nat) (s : State) : Reply :=
  checked [(a 0 % s.hif.bar2Size != 0, St.align), (decide (hbmEnd ≤ a 0 ∨ 4 < a 1), St.range)]
    (.ok [] { s with hif := { s.hif with windowBase := a 0, windowPart := a 1 } })

/-- BAR2_WINDOW_SET (R542, R567). -/
def execBar2WindowSet (mb : Fin 16) (s : State) : Host.Outcome State Fault Refusal := runCmd mb 0x0005 2 cmdBar2WindowSet s

/-- INTR_ROUTE: the cause's new vector; the previous one is returned. -/
def cmdIntrRoute (a : Nat → Nat) (s : State) : Reply :=
  checked [(decide (14 < a 0 ∨ 63 < a 1), St.range)]
    (.ok [s.causeVector (a 0)] { s with hif := { s.hif with
      route := if a 1 = 16 + a 0 then SMap.del s.hif.route (a 0) else SMap.put s.hif.route (a 0) (a 1) } })

/-- INTR_ROUTE (R563). -/
def execIntrRoute (mb : Fin 16) (s : State) : Host.Outcome State Fault Refusal := runCmd mb 0x0006 2 cmdIntrRoute s

/-- A power of two from 64 to 65,536. -/
def ringCount (n : Nat) : Bool := (List.range 11).any fun i => n == 2 ^ (6 + i)

/-- CPL_RING_SET: a ring replaces the one in place, or none does; the indices begin at 0 and held records are
discarded. -/
def cmdCplRingSet (a : Nat → Nat) (s : State) : Reply :=
  checked
    [ (a 0 % 4096 != 0, St.align),
      (a 0 == 0 && a 1 != 0, St.badArg),
      (a 0 != 0 && !ringCount (a 1), St.range),
      (a 0 != 0 && bits (a 0) 62 2 != 2, St.badArg),
      (s.chans.table.any fun c => c.2.running && c.2.cplRecord, St.state) ]
    (.ok [s.hif.held.length, highest (s.hif.held.map (·.step))] { s with hif := { s.hif with
      ring := if a 0 = 0 then none else some (a 0 % 2 ^ 62, a 1), held := [], cplProduced := 0, cplConsumed := 0 } })

/-- CPL_RING_SET (R558, R560). -/
def execCplRingSet (mb : Fin 16) (s : State) : Host.Outcome State Fault Refusal := runCmd mb 0x0007 2 cmdCplRingSet s

/-- READ_HIF_COUNTERS (R568). -/
def execReadHifCounters (mb : Fin 16) (s : State) : Host.Outcome State Fault Refusal :=
  runCmd mb 0x0008 1 (reportCtrs fun s => Ctrs.bytes s.hif.ctrs 6) s

/-- CLEAR_HIF_COUNTERS (R568). -/
def execClearHifCounters (mb : Fin 16) (s : State) : Host.Outcome State Fault Refusal :=
  runCmd mb 0x0009 1 (clearCtrs 6 fun m s => s.hifCtr fun c => Ctrs.clear c m) s

end Sys2Proof.Machine
end

