-- ==== Sys2Proof/Machine/Zstd.lean ====
section
/-! DEFINITION. Zstandard frames as RFC 8878 defines them, within the limits of R468: frame headers, blocks, Huffman-coded
literals, FSE-coded sequences, and the content checksum. -/

namespace Sys2Proof.Machine

/-! ### Bit streams -/

/-- A bit stream: the number that its unread bits make, and how many there are. -/
structure Bits where
  v : Nat
  n : Nat
  deriving DecidableEq, Repr

/-- Read k bits from the low end; bits past the end are 0. -/
def Bits.low (b : Bits) (k : Nat) : Nat × Bits := (b.v % 2 ^ k, ⟨b.v / 2 ^ k, b.n - k⟩)

/-- The next k bits from the high end; bits past the end are 0. -/
def Bits.peek (b : Bits) (k : Nat) : Nat :=
  if k ≤ b.n then b.v / 2 ^ (b.n - k) else b.v * 2 ^ (k - b.n)

/-- Drop k bits from the high end. -/
def Bits.drop (b : Bits) (k : Nat) : Bits := ⟨b.v % 2 ^ (b.n - k), b.n - k⟩

/-- Read k bits from the high end. -/
def Bits.high (b : Bits) (k : Nat) : Nat × Bits := (b.peek k, b.drop k)

/-- The stream that is read backwards: its last byte holds a final 1 bit above the first bit to read. -/
def Bits.backward (d : List Byte) : Option Bits :=
  match d.getLast? with
  | some l => if l = 0 then none else
      let v := leNat d
      let n := Nat.log2 v
      some ⟨v % 2 ^ n, n⟩
  | none => none

/-! ### FSE tables -/

/-- A state of an FSE table: symbol, bits to read, base of the next state. -/
structure FseCell where
  sym : Nat
  bits : Nat
  base : Nat
  deriving DecidableEq, Repr

/-- A table of 2^log states. -/
structure FseTable where
  log : Nat
  cells : List FseCell
  deriving DecidableEq, Repr

/-- Zero probabilities that follow a zero: 2 bits at a time, 3 meaning more. -/
def fseZeros : Nat → List Int → Bits → List Int × Bits
  | 0, ps, b => (ps, b)
  | f + 1, ps, b =>
    let r := b.low 2
    let ps := ps ++ List.replicate r.1 0
    if r.1 = 3 then fseZeros f ps r.2 else (ps, r.2)

/-- The probabilities of an FSE table description; −1 stands for "less than 1". -/
def fseProbs (maxSym : Nat) : Nat → Nat → List Int → Bits → Option (List Int × Bits)
  | 0, _, _, _ => none
  | f + 1, left, ps, b =>
    if left = 0 then some (ps, b)
    else if maxSym < ps.length then none
    else
      let w := Nat.log2 (left + 1) + 1
      let v := b.v % 2 ^ w
      let lower := v % 2 ^ (w - 1)
      let threshold := 2 ^ w - 1 - (left + 1)
      let r : Nat × Nat := if lower < threshold then (lower, w - 1)
        else if 2 ^ (w - 1) ≤ v then (v - threshold, w) else (v, w)
      if b.n < r.2 then none
      else
        let b := (b.low r.2).2
        let p : Int := (r.1 : Int) - 1
        let used := if p < 0 then 1 else p.toNat
        if left < used then none
        else if p = 0 then
          let z := fseZeros 128 (ps ++ [0]) b
          fseProbs maxSym f left z.1 z.2
        else fseProbs maxSym f (left - used) (ps ++ [p]) b

/-- Place symbols of probability "less than 1" from the top of the table down. -/
def fseLow (size : Nat) (ps : List Int) : List (Nat × Nat) :=
  let low := (List.range ps.length).filter fun s => ps.getD s 0 == -1
  ((List.range low.length).zip low).map fun p => (size - 1 - p.1, p.2)

/-- The next place of the spread that lies below the "less than 1" symbols. -/
def fseNext (size top : Nat) : Nat → Nat → Nat
  | 0, p => p
  | f + 1, p =>
    let q := (p + size / 2 + size / 8 + 3) % size
    if q < top then q else fseNext size top f q

/-- Spread the other symbols. -/
def fseSpread (size top : Nat) : List Nat → Nat → List (Nat × Nat)
  | [], _ => []
  | s :: ss, p => (p, s) :: fseSpread size top ss (fseNext size top size p)

/-- Number the states of each symbol. -/
def fseCells (log : Nat) : List Nat → SMap Nat → List FseCell
  | [], _ => []
  | s :: ss, m =>
    let x := SMap.getD m s 1
    let k := log - Nat.log2 x
    ⟨s, k, x * 2 ^ k - 2 ^ log⟩ :: fseCells log ss (SMap.put m s (x + 1))

/-- Build a table from probabilities. -/
def fseBuild (log : Nat) (ps : List Int) : FseTable :=
  let size := 2 ^ log
  let low := fseLow size ps
  let top := size - low.length
  let syms := (List.range ps.length).flatMap fun s => List.replicate (ps.getD s 0).toNat s
  let at_ : SMap Nat := (low ++ fseSpread size top syms 0).foldl (fun m p => SMap.put m p.1 p.2) []
  let first : SMap Nat := (List.range ps.length).foldl (fun m s =>
    if ps.getD s 0 = 0 then m else SMap.put m s (max 1 (ps.getD s 0).toNat)) []
  ⟨log, fseCells log (at_.map (·.2)) first⟩

/-- A table with one symbol. -/
def fseRle (s : Nat) : FseTable := ⟨0, [⟨s, 0, 0⟩]⟩

/-- Read a table description: the table, and the bytes it took. -/
def fseRead (maxLog maxSym : Nat) (d : List Byte) : Option (FseTable × Nat) :=
  let b : Bits := ⟨leNat (d.take 512), 8 * min 512 d.length⟩
  if b.n < 4 then none
  else
    let r := b.low 4
    let log := r.1 + 5
    if maxLog < log then none
    else match fseProbs maxSym 600 (2 ^ log) [] r.2 with
      | some (ps, b') =>
        if maxSym + 1 < ps.length then none else some (fseBuild log ps, (b.n - b'.n + 7) / 8)
      | none => none

/-- A cell of a table. -/
def FseTable.cell (t : FseTable) (i : Nat) : FseCell := t.cells.getD i ⟨0, 0, 0⟩

/-! ### Huffman-coded literals -/

/-- The weights that two interleaved FSE states give. -/
def huffPair (t : FseTable) : Nat → Nat → Nat → Bits → List Nat
  | 0, _, _, _ => []
  | f + 1, a, o, b =>
    let c := t.cell a
    if b.n < c.bits then [c.sym, (t.cell o).sym]
    else
      let r := b.high c.bits
      c.sym :: huffPair t f o (c.base + r.1) r.2

/-- A Huffman table: code length limit, and for each value of that many bits the symbol and its length. -/
structure HuffTable where
  maxBits : Nat
  cells : List (Nat × Nat)
  deriving DecidableEq, Repr

/-- The table of some weights, the last of which is implied. -/
def huffBuild (ws : List Nat) : Option HuffTable :=
  let sum := (ws.map fun w => if w = 0 then 0 else 2 ^ (w - 1)).foldl (· + ·) 0
  if sum = 0 ∨ 255 < ws.length then none
  else
    let maxBits := Nat.log2 sum + 1
    let left := 2 ^ maxBits - sum
    if 11 < maxBits ∨ 2 ^ Nat.log2 left ≠ left then none
    else
      let all := ws ++ [Nat.log2 left + 1]
      let cells := (List.range maxBits).flatMap fun i =>
        ((List.range all.length).filter fun s => all.getD s 0 == i + 1).flatMap fun s =>
          List.replicate (2 ^ i) (s, maxBits - i)
      some ⟨maxBits, cells⟩

/-- Read a tree description: the table, and the bytes it took. -/
def huffRead (d : List Byte) : Option (HuffTable × Nat) :=
  match d with
  | [] => none
  | h :: rest =>
    let h := h.toNat
    if 128 ≤ h then
      let n := h - 127
      let bytes := (n + 1) / 2
      if rest.length < bytes then none
      else (huffBuild ((List.range n).map fun i =>
        let b := (rest.getD (i / 2) 0).toNat
        if i % 2 = 0 then b / 16 else b % 16)).map fun t => (t, 1 + bytes)
    else if rest.length < h then none
    else
      match fseRead 6 255 (rest.take h) with
      | none => none
      | some (t, k) =>
        match Bits.backward ((rest.take h).drop k) with
        | none => none
        | some b =>
          if b.n < 2 * t.log then none
          else
            let a := b.high t.log
            let o := a.2.high t.log
            (huffBuild (huffPair t 256 a.1 o.1 o.2)).map fun t => (t, 1 + h)

/-- Decode n symbols of one stream, which they must use up. -/
def huffStream (t : HuffTable) : Nat → Bits → Option (List Byte)
  | 0, b => if b.n = 0 then some [] else none
  | k + 1, b =>
    match t.cells[b.peek t.maxBits]? with
    | none => none
    | some (s, l) => if b.n < l then none else (huffStream t k (b.drop l)).map fun r => BitVec.ofNat 8 s :: r

/-- Decode one stream's bytes. -/
def huffBytes (t : HuffTable) (n : Nat) (d : List Byte) : Option (List Byte) := (Bits.backward d).bind (huffStream t n)

/-- Decode four streams with their jump table. -/
def huffFour (t : HuffTable) (n : Nat) (d : List Byte) : Option (List Byte) :=
  let s1 := leNat (d.take 2)
  let s2 := leNat ((d.drop 2).take 2)
  let s3 := leNat ((d.drop 4).take 2)
  let x := d.drop 6
  let q := (n + 3) / 4
  if d.length < 6 ∨ x.length < s1 + s2 + s3 ∨ n < 3 * q then none
  else
    match huffBytes t q (x.take s1), huffBytes t q ((x.drop s1).take s2), huffBytes t q ((x.drop (s1 + s2)).take s3),
        huffBytes t (n - 3 * q) (x.drop (s1 + s2 + s3)) with
    | some a, some b, some c, some e => some (a ++ b ++ c ++ e)
    | _, _, _, _ => none

/-- What a frame keeps from block to block: the tables and the three recent offsets. -/
structure ZState where
  huff : Option HuffTable
  ll : Option FseTable
  of : Option FseTable
  ml : Option FseTable
  reps : Nat × Nat × Nat
  deriving DecidableEq, Repr

/-- At the start of a frame. -/
def ZState.reset : ZState := ⟨none, none, none, none, (1, 4, 8)⟩

/-- The literals of a compressed block: the literals, the bytes they took, the frame's state. -/
def readLiterals (z : ZState) (d : List Byte) : Option (List Byte × Nat × ZState) :=
  match d with
  | [] => none
  | b0 :: _ =>
    let type := b0.toNat % 4
    let sf := b0.toNat / 4 % 4
    if type < 2 then
      let hl := if sf % 2 = 0 then 1 else if sf = 1 then 2 else 3
      let h := leNat (d.take hl)
      let n := if hl = 1 then h / 8 else h / 16
      let x := d.drop hl
      if d.length < hl ∨ 2 ^ 17 < n then none
      else if type = 0 then (if x.length < n then none else some (x.take n, hl + n, z))
      else match x with
        | [] => none
        | v :: _ => some (List.replicate n v, hl + 1, z)
    else
      let hl := if sf < 2 then 3 else sf + 2
      let w := if sf < 2 then 10 else if sf = 2 then 14 else 18
      let h := leNat (d.take hl)
      let n := h / 16 % 2 ^ w
      let c := h / 16 / 2 ^ w % 2 ^ w
      let x := (d.drop hl).take c
      if d.length < hl + c ∨ 2 ^ 17 < n then none
      else
        let tree : Option (HuffTable × Nat) := if type = 2 then huffRead x else z.huff.map fun t => (t, 0)
        match tree with
        | none => none
        | some (t, k) =>
          (if sf = 0 then huffBytes t n (x.drop k) else huffFour t n (x.drop k)).map fun l =>
            (l, hl + c, { z with huff := some t })

/-! ### Sequences -/

/-- Literal length codes 16 to 35: base and extra bits. -/
def llCodes : List (Nat × Nat) :=
  [(16, 1), (18, 1), (20, 1), (22, 1), (24, 2), (28, 2), (32, 3), (40, 3), (48, 4), (64, 6)]
  ++ [(128, 7), (256, 8), (512, 9), (1024, 10), (2048, 11), (4096, 12), (8192, 13), (16384, 14), (32768, 15), (65536, 16)]

/-- Match length codes 32 to 52. -/
def mlCodes : List (Nat × Nat) :=
  [(35, 1), (37, 1), (39, 1), (41, 1), (43, 2), (47, 2), (51, 3), (59, 3), (67, 4), (83, 4), (99, 5)]
  ++ [(131, 7), (259, 8), (515, 9), (1027, 10), (2051, 11), (4099, 12), (8195, 13), (16387, 14), (32771, 15), (65539, 16)]

/-- Base and extra bits of a literal length code. -/
def llCode (c : Nat) : Option (Nat × Nat) := if c < 16 then some (c, 0) else llCodes[c - 16]?

/-- Base and extra bits of a match length code. -/
def mlCode (c : Nat) : Option (Nat × Nat) := if c < 32 then some (c + 3, 0) else mlCodes[c - 32]?

/-- The predefined distributions. -/
def llDefault : List Int :=
  [4, 3, 2, 2, 2, 2, 2, 2, 2, 2, 2, 2, 2, 1, 1, 1, 2, 2, 2, 2] ++ [2, 2, 2, 2, 2, 3, 2, 1, 1, 1, 1, 1, -1, -1, -1, -1]
def mlDefault : List Int :=
  [1, 4, 3, 2, 2, 2, 2, 2, 2, 1, 1, 1, 1, 1, 1, 1, 1, 1, 1, 1, 1, 1, 1, 1, 1, 1, 1, 1]
  ++ [1, 1, 1, 1, 1, 1, 1, 1, 1, 1, 1, 1, 1, 1, 1, 1, 1, 1, -1, -1, -1, -1, -1, -1, -1]
def ofDefault : List Int :=
  [1, 1, 1, 1, 1, 1, 2, 2, 2, 1, 1, 1, 1, 1, 1, 1, 1, 1, 1, 1, 1, 1, 1, 1, -1, -1, -1, -1, -1]

/-- A sequence table by its mode, and the bytes it took. -/
def seqTable (mode defLog maxLog maxSym : Nat) (dflt : List Int) (old : Option FseTable) (d : List Byte) :
    Option (FseTable × Nat) :=
  match mode with
  | 0 => some (fseBuild defLog dflt, 0)
  | 1 =>
    match d with
    | [] => none
    | s :: _ => if maxSym < s.toNat then none else some (fseRle s.toNat, 1)
  | 2 => fseRead maxLog maxSym d
  | _ => old.map fun t => (t, 0)

/-- The offset of an offset value and the recent offsets after it. -/
def seqOffset (ov ll : Nat) (r : Nat × Nat × Nat) : Option (Nat × (Nat × Nat × Nat)) :=
  if 3 < ov then some (ov - 3, (ov - 3, r.1, r.2.1))
  else
    match (if ll = 0 then ov + 1 else ov) with
    | 1 => some (r.1, r)
    | 2 => some (r.2.1, (r.2.1, r.1, r.2.2))
    | 3 => some (r.2.2, (r.2.2, r.1, r.2.1))
    | _ => if r.1 ≤ 1 then none else some (r.1 - 1, (r.1 - 1, r.1, r.2.1))

/-- Copy n bytes that lie o back; the output is held last byte first. -/
def copyMatch (o : Nat) : Nat → List Byte → List Byte
  | 0, out => out
  | n + 1, out => copyMatch o n (out.getD (o - 1) 0 :: out)

/-- Execute the sequences of a block: output of the frame (last byte first) and recent offsets. -/
def runSeqs (window : Nat) (tl to_ tm : FseTable) : Nat → Nat → Nat → Nat → Bits → List Byte → List Byte →
    Nat × Nat × Nat → Option (List Byte × (Nat × Nat × Nat))
  | 0, _, _, _, b, lits, out, r => if b.n = 0 then some (lits.reverse ++ out, r) else none
  | k + 1, sl, so, sm, b, lits, out, r =>
    let cl := tl.cell sl
    let co := to_.cell so
    let cm := tm.cell sm
    match llCode cl.sym, mlCode cm.sym with
    | some l, some m =>
      if 31 < co.sym ∨ b.n < co.sym + m.2 + l.2 then none
      else
        let x := b.high co.sym
        let y := x.2.high m.2
        let w := y.2.high l.2
        let ll := l.1 + w.1
        match seqOffset (2 ^ co.sym + x.1) ll r with
        | none => none
        | some (o, r) =>
          let out := (lits.take ll).reverse ++ out
          if lits.length < ll ∨ window < o ∨ out.length < o then none
          else
            let out := copyMatch o (m.1 + y.1) out
            if k = 0 then runSeqs window tl to_ tm k sl so sm w.2 (lits.drop ll) out r
            else if w.2.n < cl.bits + cm.bits + co.bits then none
            else
              let a := w.2.high cl.bits
              let c := a.2.high cm.bits
              let e := c.2.high co.bits
              runSeqs window tl to_ tm k (cl.base + a.1) (co.base + e.1) (cm.base + c.1) e.2 (lits.drop ll) out r
    | _, _ => none

/-- The number of sequences and the bytes that state it. -/
def seqCount (d : List Byte) : Option (Nat × Nat) :=
  match d with
  | [] => none
  | b0 :: r =>
    let b0 := b0.toNat
    if b0 < 128 then some (b0, 1)
    else if b0 < 255 then (if r.length < 1 then none else some ((b0 - 128) * 256 + leNat (r.take 1), 2))
    else if r.length < 2 then none else some (leNat (r.take 2) + 0x7F00, 3)

/-- A compressed block: the frame's output so far, last byte first, and its state. -/
def readCompressed (window : Nat) (z : ZState) (out d : List Byte) : Option (List Byte × ZState) :=
  match readLiterals z d with
  | none => none
  | some (lits, k, z) =>
    let d := d.drop k
    match seqCount d with
    | none => none
    | some (n, k) =>
      let d := d.drop k
      if n = 0 then (if d.isEmpty then some (lits.reverse ++ out, z) else none)
      else
        match d with
        | [] => none
        | m :: d =>
          let m := m.toNat
          if m % 4 ≠ 0 then none
          else match seqTable (m / 64) 6 9 35 llDefault z.ll d with
            | none => none
            | some (tl, k1) =>
              match seqTable (m / 16 % 4) 5 8 31 ofDefault z.of (d.drop k1) with
              | none => none
              | some (t2, k2) =>
                match seqTable (m / 4 % 4) 6 9 52 mlDefault z.ml (d.drop (k1 + k2)) with
                | none => none
                | some (tm, k3) =>
                  match Bits.backward (d.drop (k1 + k2 + k3)) with
                  | none => none
                  | some b =>
                    if b.n < tl.log + t2.log + tm.log then none
                    else
                      let a := b.high tl.log
                      let c := a.2.high t2.log
                      let e := c.2.high tm.log
                      (runSeqs window tl t2 tm n a.1 c.1 e.1 e.2 lits out z.reps).map fun r =>
                        (r.1, { z with ll := some tl, of := some t2, ml := some tm, reps := r.2 })

/-! ### Frames -/

/-- A frame's header. -/
structure ZHead where
  /-- Bytes of the header, with its magic number. -/
  len : Nat
  window : Nat
  content : Option Nat
  checksum : Bool
  dict : Nat
  deriving DecidableEq, Repr

/-- What starts at a place in the stored bytes. -/
inductive ZStart where
  /-- A skippable frame of so many bytes. -/
  | skip (len : Nat)
  | frame (h : ZHead)
  | bad
  deriving DecidableEq, Repr

/-- Bytes of the dictionary number. -/
def dictLen (f : Nat) : Nat := if f % 4 = 3 then 4 else f % 4

/-- Bytes of the content size. -/
def contentLen (f : Nat) : Nat :=
  match f / 64 with
  | 0 => if f.testBit 5 then 1 else 0
  | 1 => 2
  | 2 => 4
  | _ => 8

/-- Read what starts here. -/
def readStart (d : List Byte) : ZStart :=
  let magic := leNat (d.take 4)
  if d.length < 4 then .bad
  else if magic / 16 = 0x184D2A5 then
    let n := leNat ((d.drop 4).take 4)
    if d.length < 8 + n then .bad else .skip (8 + n)
  else if magic ≠ 0xFD2FB528 then .bad
  else
    let f := (d.getD 4 0).toNat
    let single := f.testBit 5
    let w := if single then 0 else 1
    let k := dictLen f
    let c := contentLen f
    let len := 5 + w + k + c
    if d.length < len ∨ f.testBit 3 then .bad
    else
      let wb := (d.getD 5 0).toNat
      let wsize := 2 ^ (10 + wb / 8) + 2 ^ (10 + wb / 8) / 8 * (wb % 8)
      let v := leNat ((d.drop (5 + w + k)).take c)
      let content := if c = 0 then none else some (if c = 2 then v + 256 else v)
      .frame ⟨len, if single then content.getD 0 else wsize, content, f.testBit 2, leNat ((d.drop (5 + w)).take k)⟩

/-- Bytes of the blocks of a frame, from their headers. -/
def blocksLen : Nat → List Byte → Option Nat
  | 0, _ => none
  | f + 1, d =>
    let h := leNat (d.take 3)
    let n := 3 + if h / 2 % 4 = 1 then 1 else h / 8
    if d.length < 3 ∨ d.length < n ∨ h / 2 % 4 = 3 then none
    else if h % 2 = 1 then some n
    else (blocksLen f (d.drop n)).map (· + n)

/-- The content sizes that the frames state, in order; none where the frames cannot be told apart. -/
def frameSizes : Nat → List Byte → Option (List (Option Nat))
  | 0, _ => none
  | f + 1, d =>
    if d.isEmpty then some []
    else match readStart d with
      | .bad => none
      | .skip n => frameSizes f (d.drop n)
      | .frame h =>
        match blocksLen (d.length + 1) (d.drop h.len) with
        | none => none
        | some n =>
          let k := h.len + n + if h.checksum then 4 else 0
          if d.length < k then none else (frameSizes f (d.drop k)).map fun l => h.content :: l

/-- How decoding ends. -/
inductive ZOut where
  | good (data : List Byte)
  /-- A breach: the reason of R479, and the stored bytes consumed. -/
  | breach (reason consumed : Nat)
  deriving DecidableEq, Repr

/-- Decode the blocks of a frame. `limit` is how many bytes the frame may still give; the answer is the frame's output,
last byte first, and the bytes that the blocks took. -/
def readBlocks (h : ZHead) (limit : Nat) : Nat → ZState → List Byte → Nat → List Byte → ZOut × Nat
  | 0, _, _, used, _ => (.breach 4 used, used)
  | f + 1, z, out, used, d =>
    let hd := leNat (d.take 3)
    let type := hd / 2 % 4
    let size := hd / 8
    let most := min h.window (2 ^ 17)
    let body := d.drop 3
    let n := if type = 1 then 1 else size
    if d.length < 3 ∨ body.length < n ∨ type = 3 ∨ most < size then (.breach 4 (used + min 3 d.length), used)
    else
      let used := used + 3 + n
      let r : Option (List Byte × ZState) :=
        if type = 0 then some ((body.take n).reverse ++ out, z)
        else if type = 1 then some (List.replicate size (body.getD 0 0) ++ out, z)
        else readCompressed h.window z out (body.take n)
      match r with
      | none => (.breach 4 used, used)
      | some (out', z) =>
        if out.length + most < out'.length then (.breach 4 used, used)
        else if limit < out'.length then (.breach 6 used, used)
        else if hd % 2 = 1 then (.good out', used)
        else readBlocks h limit f z out' used (d.drop (3 + n))

/-- Decode frames one after another: the output so far, the bytes consumed so far, and what is left. -/
def readFrames (windowLog claimed : Nat) : Nat → List Byte → Nat → List Byte → ZOut
  | 0, _, used, _ => .breach 4 used
  | f + 1, out, used, d =>
    if d.isEmpty then (if out.length = claimed then .good out else .breach 6 used)
    else match readStart d with
      | .bad => .breach 4 used
      | .skip n => readFrames windowLog claimed f out (used + n) (d.drop n)
      | .frame h =>
        if 2 ^ windowLog < h.window ∨ h.dict ≠ 0 then .breach 4 (used + h.len)
        else match readBlocks h (claimed - out.length) (d.length + 1) ZState.reset [] (used + h.len) (d.drop h.len) with
          | (.breach r u, _) => .breach r u
          | (.good x, u) =>
            let data := x.reverse
            let rest := d.drop (u - used)
            if h.content.isSome ∧ h.content ≠ some data.length then .breach 6 u
            else if h.checksum then
              if rest.length < 4 then .breach 4 u
              else if leNat (rest.take 4) ≠ (xxh64 data).toNat % 2 ^ 32 then .breach 5 (u + 4)
              else readFrames windowLog claimed f (out ++ data) (u + 4) (rest.drop 4)
            else readFrames windowLog claimed f (out ++ data) u rest

/-- Decode the stored bytes of a sample (R468, R471). -/
def zstdDecode (windowLog claimed : Nat) (d : List Byte) : ZOut := readFrames windowLog claimed (d.length + 1) [] 0 d

end Sys2Proof.Machine
end

