-- ==== Sys2Proof/Machine/Ingest.lean ====
section
/-! DEFINITION. The ingest engine: the shuffle (R475), claimed sizes and caps (R469, R470), tokenisation (R474), budgets and
skips (R476 to R479), packing (R481), the cache of decided samples (R486 to R488), and its events. -/

namespace Sys2Proof.Machine

/-! ### The shuffle (R475) -/

/-- The mixing function. -/
def mix64 (x : BitVec 64) : BitVec 64 :=
  let x := (x ^^^ (x >>> 30)) * 0xBF58476D1CE9E5B9
  let x := (x ^^^ (x >>> 27)) * 0x94D049BB133111EB
  x ^^^ (x >>> 31)

/-- Bits of a number. -/
def bitLen (n : Nat) : Nat := if n = 0 then 0 else Nat.log2 n + 1

/-- Eight rounds on the two halves. -/
def shuffleRounds (h : Nat) (key : BitVec 64) (x : Nat) : Nat :=
  let lr := (List.range 8).foldl (fun (p : Nat × Nat) k =>
    (p.2, p.1 ^^^ (mix64 (key ^^^ (BitVec.ofNat 64 k <<< 56) ^^^ BitVec.ofNat 64 p.2)).toNat % 2 ^ h)) (x / 2 ^ h, x % 2 ^ h)
  lr.1 * 2 ^ h + lr.2

/-- Repeat the permutation until the value lies below N. -/
def shuffleWalk (n h : Nat) (key : BitVec 64) : Nat → Nat → Nat
  | 0, x => x
  | f + 1, x =>
    let y := shuffleRounds h key x
    if y < n then y else shuffleWalk n h key f y

/-- The sample at a position of an epoch. -/
def sampleIndex (pos n : Nat) (seed : BitVec 64) (epoch : Nat) : Nat :=
  let h := max 1 ((bitLen (n - 1) + 1) / 2)
  let key := mix64 (seed ^^^ (BitVec.ofNat 64 epoch * 0x9E3779B97F4A7C15))
  shuffleWalk n h key (2 ^ (2 * h)) pos

/-! ### Tokens (R474) -/

/-- The string is a prefix of the bytes. -/
def startsWith : List Byte → List Byte → Bool
  | [], _ => true
  | _ :: _, [] => false
  | a :: as, b :: bs => a == b && startsWith as bs

/-- The longest entry that matches here: its ID and length. -/
def longestMatch (dict : List (List Byte)) (d : List Byte) : Nat × Nat :=
  ((List.range dict.length).zip dict).foldl (fun (b : Nat × Nat) e =>
    if b.2 < e.2.length && startsWith e.2 d then (e.1, e.2.length) else b) (0, 0)

/-- The tokens of some bytes; every byte value has an entry, so each step takes one byte at least. -/
def tokenise (dict : List (List Byte)) : Nat → List Byte → List Nat
  | 0, _ => []
  | f + 1, d =>
    if d.isEmpty then []
    else
      let m := longestMatch dict d
      m.1 :: tokenise dict f (d.drop (max 1 m.2))

/-! ### One sample (R466 to R471, R476) -/

/-- What the engine makes of a sample: its tokens without BOS and EOS, or the reason of R479 with the decode units in
units of 2^16. -/
inductive Verdict where
  | accept (toks : List Nat)
  | reject (reason units : Nat)
  deriving DecidableEq, Repr

/-- Decode units as the skip log holds them. -/
def units16 (u : Nat) : Nat := min (u / 2 ^ 16) 65535

/-- The claimed size of a sample; none when there is none, or when its frames cannot be read (R469). -/
def claimedSize (zstd : Bool) (stored hint : Nat) (d : List Byte) : Option Nat :=
  if !zstd then some stored
  else match frameSizes (d.length + 1) d with
    | none => none
    | some l =>
      if l.all Option.isSome then some ((l.map fun x => x.getD 0).foldl (· + ·) 0)
      else if hint = 0 then none else some hint

/-- The reason for which a sample is rejected before it takes workspace (R470); the units are then 0 (97). -/
def capReason (l : IgeLimits) (stored : Nat) (claimed : Option Nat) : Option Nat :=
  match claimed with
  | none => some 4
  | some c => if l.cap < c then some 2 else if l.ratio * stored < c then some 3 else none

/-- Decode and tokenise a sample. The stored bytes are consumed before the first token is emitted (98). -/
def decodeSample (l : IgeLimits) (dict : List (List Byte)) (entry stored : List Byte) (claimed : Nat) : Verdict :=
  let zstd := (entry.getD 6 0).getLsbD 0
  let clean := (entry.getD 6 0).toNat < 2 && (entry.getD 7 0 == 0)
  let out : ZOut := if !clean then .breach 7 0
    else if zstd then zstdDecode l.windowLog claimed stored else .good stored
  match out with
  | .breach r u => if l.budget < u then .reject 1 (units16 (l.budget + 1)) else .reject r (units16 u)
  | .good data =>
    let toks := tokenise dict data.length data
    if l.budget < stored.length + toks.length then .reject 1 (units16 (l.budget + 1)) else .accept toks

/-! ### Reading through the PTU (R467) -/

/-- What the engine's reads give. -/
inductive IgeRead where
  | data (bytes : List Byte) (s : State)
  /-- Nothing can be decided now; the state tells why. -/
  | stop (s : State)

/-- Read a range: a page that is on its way is waited for, no page is a transient ingest fault, and marked data is a
bad-data event. -/
def igeRead (part va len : Nat) (s : State) : IgeRead :=
  let noted (w : Option (Nat × Nat)) (s : State) : State := { s with ige := { s.ige with wait := w } }
  match fetchRange (ownPage s.ige.wait) part va len s with
  | .data b bad s =>
    let s := noted none s
    if bad then .stop (badData ((LogRec.make 7 0x03 St.poison 0).atVa part va) (s.vaPa part va).toList s) else .data b s
  | .waits w s => .stop (noted (some w) s)
  | .unmapped a =>
    let s := noted none s
    .stop (reportFault ((LogRec.make 7 0x09 St.uncorrectable 0).atVa part a)
      { s with ige := { s.ige with lastErr := St.uncorrectable } })

/-- Read a sample's entry and its stored bytes. -/
def readSample (u : IgeSetup) (idx : Nat) (s : State) : IgeRead :=
  match igeRead u.part (u.sampleTable + 16 * idx) 16 s with
  | .stop s => .stop s
  | .data e s =>
    match igeRead u.part (u.corpus + fieldAt e 0 6) (fieldAt e 8 4) s with
    | .stop s => .stop s
    | .data d s => .data (e ++ d) s

/-! ### The cache (R486 to R488) -/

/-- Where the arena begins. -/
def arenaBase (c : Nat × Nat) (u : IgeSetup) : Nat := c.1 + 16 * u.n

/-- The cached decision of a sample. -/
def cacheGet (u : IgeSetup) (idx : Nat) (s : State) : Option Verdict × State :=
  match s.ige.cache with
  | none => (none, s)
  | some c =>
    let e := vaRead u.part (c.1 + 16 * idx) 16 s
    let w := fieldAt e.1 12 4
    if e.2.1 then (none, e.2.2)
    else match w % 4 with
      | 1 =>
        let n := fieldAt e.1 8 4
        let t := vaRead u.part (arenaBase c u + fieldAt e.1 0 8) (4 * n) e.2.2
        if t.2.1 then (none, t.2.2)
        else (some (.accept ((List.range n).map fun i => fieldAt t.1 (4 * i) 4)), t.2.2)
      | 2 => (some (.reject (bits w 2 6) (bits w 8 16)), e.2.2)
      | _ => (none, e.2.2)

/-- Append a decision while the arena has room; the state word is written last. -/
def cachePut (u : IgeSetup) (idx : Nat) (v : Verdict) (s : State) : State :=
  match s.ige.cache with
  | none => s
  | some c =>
    let toks := match v with | .accept t => t | .reject .. => []
    let len := 4 * toks.length
    if c.2 < 16 * u.n + s.ige.arena + len then s.igeCtr fun k => Ctrs.sat k 7 1
    else
      let word := match v with
        | .accept _ => 1
        | .reject r n => 2 + 4 * r + 256 * n
      let s := vaWrite u.part (arenaBase c u + s.ige.arena) (toks.flatMap (natLe 4)) s
      let s := vaWrite u.part (c.1 + 16 * idx) (natLe 8 s.ige.arena ++ natLe 4 toks.length ++ natLe 4 word) s
      { s with ige := { s.ige with arena := s.ige.arena + len } }

/-! ### Packing (R465, R481) -/

/-- Set a bit of a boundary bitmap. -/
def setBoundary (u : IgeSetup) (j t : Nat) (s : State) : State :=
  if !u.boundary then s
  else
    let a := u.bmapBase + u.tokens / 8 * (j % u.nbuf) + t / 8
    let b := vaRead u.part a 1 s
    vaWrite u.part a [b.1.getD 0 0 ||| BitVec.ofNat 8 (2 ^ (t % 8))] b.2.2

/-- The micro-batch is full: it waits for READY, and the next may start. -/
def closeBatch (s : State) : State :=
  { s with ige := { s.ige with
    full := NSet.insert s.ige.full s.ige.cur.j, open_ := false, fill := 0, skips := 0
    cur := { s.ige.cur with j := s.ige.cur.j + 1 } } }

/-- Write tokens of sample `idx` from its token `off` on into the open micro-batch; what does not fit is carried over or
dropped. -/
def packTokens (u : IgeSetup) (idx off : Nat) (toks : List Nat) (s : State) : State :=
  let x := s.ige
  let room := u.tokens - x.fill
  let now := toks.take room
  let rest := toks.drop room
  let a := u.bufBase + 4 * u.tokens * (x.cur.j % u.nbuf) + 4 * x.fill
  let s := vaWrite u.part a (now.flatMap (natLe 4)) s
  let s := if off = 0 ∧ now ≠ [] then setBoundary u x.cur.j x.fill s else s
  let s := s.igeCtr fun c => Ctrs.wrap c 1 now.length
  let carry := u.carry && !rest.isEmpty
  let s := if u.carry || rest.isEmpty then s else s.igeCtr fun c => Ctrs.sat c 5 rest.length
  let s := { s with ige := { s.ige with
    fill := x.fill + now.length
    tail := if carry then rest.map (BitVec.ofNat 32) else []
    cur := { s.ige.cur with
      carried := if carry then some idx else none, offset := if carry then off + now.length else 0 } } }
  if x.fill + now.length = u.tokens then closeBatch s else s

/-- The tokens that are written for an accepted sample: BOS, its tokens, EOS. -/
def framed (u : IgeSetup) (toks : List Nat) : List Nat :=
  (if u.bos = 0xFFFFFFFF then [] else [u.bos]) ++ toks ++ if u.eos = 0xFFFFFFFF then [] else [u.eos]

/-! ### Decisions (R475, R477 to R479) -/

/-- The rank's next position. -/
def nextPos (u : IgeSetup) (s : State) : State :=
  let c := s.ige.cur
  if c.pos + u.ranks < u.n then { s with ige := { s.ige with cur := { c with pos := c.pos + u.ranks } } }
  else ({ s with ige := { s.ige with cur := { c with epoch := (c.epoch + 1) % 2 ^ 64, pos := u.rank } } } : State).igeCtr
    fun k => Ctrs.sat k 8 1

/-- The counter of a skip or rejection. -/
def skipCtr (reason : Nat) : Nat := if reason = 1 then 2 else if reason ≤ 3 then 3 else 4

/-- A skip or rejection: counted and logged; REPLACE_LIMIT of them in a row for one buffer fail the step (R478). -/
def skipSample (idx reason units : Nat) (s : State) : State :=
  let c := s.ige.cur
  let r : SkipRec := ⟨s.spine.tick, c.epoch, c.pos, idx, reason, units⟩
  let n := s.ige.skips + 1
  let s := ({ s with ige := { s.ige with skipLog := (r :: s.ige.skipLog).take 64, skips := n } } : State).igeCtr
    fun k => Ctrs.sat k (skipCtr reason) 1
  if n = s.ige.limits.replace then
    reportFault ((LogRec.make 7 0x33 St.sampleCap 0).ofChan (s.ige.setup.map (·.channel)))
      { s with ige := { s.ige with lastErr := St.sampleCap } }
  else s

/-- The tokens as a workspace gives them that software has written to: unspecified (R464). -/
def givenTokens (toks : List Nat) (s : State) : List Nat × State :=
  if s.ige.touched then
    let d := s.draw
    ((List.range toks.length).map fun i => leNat ((List.range 4).map fun k => Config.freeByte d.1 (4 * i + k)), d.2)
  else (toks, s)

/-- Apply a decision about the sample at the present position. -/
def applyVerdict (u : IgeSetup) (idx : Nat) (v : Verdict) (s : State) : State :=
  let s := { s with ige := { s.ige with sample := none } }
  match v with
  | .accept toks =>
    let s := nextPos u ({ s with ige := { s.ige with skips := 0 } } : State)
    let r := givenTokens (framed u toks) s
    packTokens u idx 0 r.1 (r.2.igeCtr fun k => Ctrs.wrap k 0 1)
  | .reject r n => nextPos u (skipSample idx r n s)

/-- The engine may take its next position: the micro-batch is open, no sample is being decoded, and the limit of R478 has
not been reached. -/
def State.igeFree (s : State) : Bool :=
  s.ige.running && s.ige.open_ && s.ige.sample.isNone && decide (s.ige.skips < s.ige.limits.replace)

/-- SAMPLE_START (R470, R488): the next position's sample is taken from the cache, or its claimed size is judged. -/
def startSample (u : IgeSetup) (s : State) : State :=
  let c := s.ige.cur
  let idx := sampleIndex c.pos u.n u.seed c.epoch
  match cacheGet u idx s with
  | (some v, s) => applyVerdict u idx v (s.igeCtr fun k => Ctrs.wrap k 6 1)
  | (none, s) =>
    match readSample u idx s with
    | .stop s => s
    | .data d s =>
      let stored := fieldAt d 8 4
      let claimed := claimedSize ((d.getD 6 0).getLsbD 0) stored (fieldAt d 12 4) (d.drop 16)
      match capReason s.ige.limits stored claimed with
      | some r => applyVerdict u idx (.reject r 0) (cachePut u idx (.reject r 0) s)
      | none => { s with ige := { s.ige with sample := some (c.pos, idx, claimed.getD 0) } }

/-- SAMPLE_START (R475). -/
def execSampleStart (s : State) : Host.Outcome State Fault Refusal :=
  match s.ige.setup with
  | some u => if s.igeFree then done (startSample u s) else .next s
  | none => .next s

/-- SAMPLE_DECODE_COMPLETE (R477): the sample is decided. -/
def execSampleDecodeComplete (s : State) : Host.Outcome State Fault Refusal :=
  match s.ige.setup, s.ige.sample with
  | some u, some (_, idx, claimed) =>
    if !s.ige.running then .next s
    else match readSample u idx s with
      | .stop s => done s
      | .data d s =>
        let v := decodeSample s.ige.limits s.ige.dict (d.take 16) (d.drop 16) claimed
        done (applyVerdict u idx v (cachePut u idx v s))
  | _, _ => .next s

/-! ### Micro-batches (R482 to R484) -/

/-- The words of a carried sample that are still to be written: held, or made again after a replay. -/
inductive Carried where
  | words (toks : List Nat) (s : State)
  | stop (s : State)

/-- The widest limits: a sample that has been accepted is decoded again whatever limits are in force now (R485). -/
def IgeLimits.widest : IgeLimits := ⟨256 * 2 ^ 20, 65535, 1, 2 ^ 40, 26⟩

/-- Find them. -/
def carriedWords (u : IgeSetup) (s : State) : Carried :=
  match s.ige.cur.carried with
  | none => .words [] s
  | some idx =>
    if !s.ige.tail.isEmpty then .words (s.ige.tail.map (·.toNat)) s
    else
      let cut (v : Verdict) : List Nat := match v with
        | .accept t => (framed u t).drop s.ige.cur.offset
        | .reject .. => []
      match cacheGet u idx s with
      | (some v, s) => .words (cut v) s
      | (none, s) =>
        match readSample u idx s with
        | .stop s => .stop s
        | .data d s =>
          let claimed := claimedSize ((d.getD 6 0).getLsbD 0) (fieldAt d 8 4) (fieldAt d 12 4) (d.drop 16)
          .words (cut (decodeSample IgeLimits.widest s.ige.dict (d.take 16) (d.drop 16) (claimed.getD 0))) s

/-- Start micro-batch j: the record at a step's first micro-batch is kept, the bitmap is cleared, and a carried sample
goes on. -/
def startBatch (u : IgeSetup) (toks : List Nat) (s : State) : State :=
  let x := { s.ige with cur := { s.ige.cur with limitsGen := s.ige.limitsGen } }
  let j := x.cur.j
  let marks := if j % u.mbPerStep = 0 then SMap.put x.marks (x.startStep + j / u.mbPerStep) x.cur else x.marks
  let s := { s with ige := { x with
    marks := marks, open_ := true, fill := 0, skips := 0 } }
  let s := if u.boundary then
      vaWrite u.part (u.bmapBase + u.tokens / 8 * (j % u.nbuf)) (List.replicate (u.tokens / 8) 0) s
    else s
  match x.cur.carried with
  | some idx => packTokens u idx x.cur.offset toks s
  | none => s

/-- MICROBATCH_START (R482): micro-batch j starts once j is below the release word plus NBUF. -/
def execMicrobatchStart (s : State) : Host.Outcome State Fault Refusal :=
  match s.ige.setup with
  | none => .next s
  | some u =>
    if !s.ige.running || s.ige.open_ then .next s
    else match igeRead u.part u.releaseVa 8 s with
      | .stop s => done s
      | .data r s =>
        let held := decide (leNat r + u.nbuf ≤ s.ige.cur.j)
        let s := { s with ige := { s.ige with waitsRelease := held } }
        if held then .next s
        else match carriedWords u s with
          | .stop s => done s
          | .words toks s =>
            let r := givenTokens toks s
            .next (startBatch u r.1 r.2)

/-- MICROBATCH_READY (R482): the oldest full micro-batch increments READY_EC in every tile of CHANNEL. -/
def execMicrobatchReady (s : State) : Host.Outcome State Fault Refusal :=
  match s.ige.setup, s.ige.full with
  | some u, j :: _ =>
    let tiles := ((s.chan u.channel).map Chan.tileList).getD []
    let s := { s with ige := { s.ige with full := NSet.erase s.ige.full j } }
    .next (tiles.foldl (fun s t => s.modTile t fun x => x.bumpEc u.readyEc) s)
  | _, _ => .next s

end Sys2Proof.Machine
end

