-- ==== Sys2Proof/Machine/IngestCmds.lean ====
section
/-! DEFINITION. The commands of the ingest engine (R463, R464, R472, R473, R480, R486, R490, R491). -/

namespace Sys2Proof.Machine

/-- Change the ingest engine. -/
def State.modIge (s : State) (f : Ige → Ige) : State := { s with ige := f s.ige }

/-- The size of an ingest record's unit: 2 MiB. -/
def mib2 : Nat := 2 ^ 21

/-- The cache's index becomes unwritten, and its arena starts again (R489). -/
def dropIndex (s : State) : State :=
  match s.ige.cache, s.ige.setup with
  | some c, some u => clearVa u.part c.1 (16 * u.n) (s.modIge fun x => { x with arena := 0 })
  | _, _ => s

/-! ### IGE_SETUP (R463, R464) -/

/-- A setup from its record. -/
def IgeSetup.of (r : List Byte) : IgeSetup where
  part := fieldAt r 0 1
  boundary := (fieldAt r 1 1).testBit 0
  carry := (fieldAt r 1 1).testBit 1
  nbuf := fieldAt r 2 2
  tokens := fieldAt r 4 4
  rank := fieldAt r 8 2
  ranks := fieldAt r 10 2
  mbPerStep := fieldAt r 12 4
  seed := BitVec.ofNat 64 (fieldAt r 16 8)
  sampleTable := fieldAt r 24 8
  n := fieldAt r 32 8
  corpus := fieldAt r 40 8
  bufBase := fieldAt r 48 8
  bmapBase := fieldAt r 56 8
  releaseVa := fieldAt r 64 8
  workspace := fieldAt r 72 8
  workspaceSize := fieldAt r 80 8
  bos := fieldAt r 88 4
  eos := fieldAt r 92 4
  readyEc := fieldAt r 96 1
  channel := fieldAt r 98 2

/-- The record's reserved fields are 0, and BMAP_BASE is when BOUNDARY is. -/
def setupZeros (r : List Byte) : Bool :=
  decide (fieldAt r 0 1 < 4 ∧ fieldAt r 1 1 < 4) && zeroAt r 97 1 && zeroAt r 100 28
    && ((fieldAt r 1 1).testBit 0 || zeroAt r 56 8)

/-- The addresses are aligned. -/
def IgeSetup.aligned (u : IgeSetup) : Bool :=
  decide (u.sampleTable % 64 = 0 ∧ u.bufBase % pageSize = 0 ∧ u.bmapBase % 64 = 0 ∧ u.releaseVa % 8 = 0
    ∧ u.workspace % mib2 = 0 ∧ u.workspaceSize % mib2 = 0)

/-- Every field lies in its range, and the addresses within 52 bits. -/
def IgeSetup.inRange (u : IgeSetup) : Bool :=
  decide (2 ≤ u.nbuf ∧ u.nbuf ≤ 64 ∧ u.tokens % 128 = 0 ∧ 128 ≤ u.tokens ∧ u.tokens ≤ 2 ^ 24)
    && decide (1 ≤ u.ranks ∧ u.ranks ≤ 1024 ∧ u.rank < u.ranks ∧ u.ranks ≤ u.n ∧ u.n ≤ 2 ^ 40)
    && decide (1 ≤ u.mbPerStep ∧ u.mbPerStep ≤ 65536 ∧ u.readyEc < 32 ∧ u.channel < 4096)
    && decide (u.sampleTable + 16 * u.n ≤ 2 ^ 52 ∧ u.corpus < 2 ^ 52 ∧ u.bufBase + 4 * u.tokens * u.nbuf ≤ 2 ^ 52
      ∧ u.bmapBase + u.tokens / 8 * u.nbuf ≤ 2 ^ 52 ∧ u.releaseVa < 2 ^ 52 ∧ u.workspace + u.workspaceSize ≤ 2 ^ 52)

/-- The workspace is too small for a cap (R464). -/
def IgeSetup.tight (u : IgeSetup) (cap : Nat) : Bool := decide (u.workspaceSize < 4 * cap + 64 * 2 ^ 20)

/-- IGE_SETUP: a cache region that is too small for the new N is removed (123). -/
def cmdIgeSetup (a : Nat → Nat) (s : State) : Reply :=
  withRecord (a 0) 128 64 s fun r s =>
    let u := IgeSetup.of r
    checked
      [ (!setupZeros r, St.badArg), (!u.aligned, St.align), (!u.inRange, St.range),
        (u.tight s.ige.limits.cap, St.noMemory), (s.ige.running, St.state) ]
      (.ok [] (dropIndex (s.modIge fun x => { x with
        setup := some u
        touched := false
        cache := x.cache.filter fun c => decide (16 * u.n + mib2 ≤ c.2) })))

/-- IGE_SETUP (R463). -/
def execIgeSetup (mb : Fin 16) (s : State) : Host.Outcome State Fault Refusal := runCmd mb 0x0601 1 cmdIgeSetup s

/-! ### IGE_DICT_LOAD (R472, R473) -/

/-- The header of a dictionary image. -/
def dictHeadOk (r : List Byte) : Bool :=
  fieldAt r 0 4 == 0x54444749 && fieldAt r 4 2 == 1 && zeroAt r 6 2 && zeroAt r 16 48
    && decide (256 ≤ fieldAt r 8 4 ∧ fieldAt r 8 4 ≤ 262144)

/-- The length of an image. -/
def dictImageLen (r : List Byte) : Nat := 64 + 8 * fieldAt r 8 4 + fieldAt r 12 4

/-- Entry e lies in the string area, and its reserved bytes are 0. -/
def dictEntryOk (r : List Byte) (e : Nat) : Bool :=
  let o := 64 + 8 * e
  decide (1 ≤ fieldAt r (o + 4) 1 ∧ fieldAt r o 4 + fieldAt r (o + 4) 1 ≤ fieldAt r 12 4) && zeroAt r (o + 5) 3

/-- The strings of an image. -/
def dictStrings (r : List Byte) : List (List Byte) :=
  let n := fieldAt r 8 4
  let area := r.drop (64 + 8 * n)
  (List.range n).map fun e => (area.drop (fieldAt r (64 + 8 * e) 4)).take (fieldAt r (68 + 8 * e) 1)

/-- No string repeats, and every byte value has an entry. -/
def dictOk (d : List (List Byte)) : Bool :=
  decide d.Nodup && (List.range 256).all fun b => d.contains [BitVec.ofNat 8 b]

/-- IGE_DICT_LOAD: the workspace that holds the compiled dictionary is that of the setup (123). -/
def cmdIgeDictLoad (a : Nat → Nat) (s : State) : Reply :=
  withRecord (a 0) 64 64 s fun h s =>
    if !dictHeadOk h then .fail St.badArg
    else withRecord (a 0) (dictImageLen h) 64 s fun r s =>
      let d := dictStrings r
      checked
        [ (!(List.range (fieldAt r 8 4)).all (dictEntryOk r) || !dictOk d, St.badArg),
          (s.ige.setup.isNone, St.noMemory), (s.ige.running, St.state) ]
        (.ok [s.ige.dictGen + 1] (dropIndex (s.modIge fun x => { x with dict := d, dictGen := x.dictGen + 1 })))

/-- IGE_DICT_LOAD (R472). -/
def execIgeDictLoad (mb : Fin 16) (s : State) : Host.Outcome State Fault Refusal := runCmd mb 0x0602 1 cmdIgeDictLoad s

/-! ### IGE_SET_LIMITS (R480) -/

/-- Limits from their record. -/
def IgeLimits.of (r : List Byte) : IgeLimits := ⟨fieldAt r 0 4, fieldAt r 4 2, fieldAt r 6 2, fieldAt r 8 8, fieldAt r 16 1⟩

/-- The limits lie in their ranges. -/
def IgeLimits.inRange (l : IgeLimits) : Bool :=
  decide (2 ^ 20 ≤ l.cap ∧ l.cap ≤ 256 * 2 ^ 20 ∧ 1 ≤ l.ratio ∧ 1 ≤ l.replace ∧ l.replace ≤ 4096
    ∧ 4096 ≤ l.budget ∧ l.budget ≤ 2 ^ 40 ∧ 10 ≤ l.windowLog ∧ l.windowLog ≤ 26)

/-- IGE_SET_LIMITS. -/
def cmdIgeSetLimits (a : Nat → Nat) (s : State) : Reply :=
  withRecord (a 0) 32 64 s fun r s =>
    let l := IgeLimits.of r
    checked
      [ (!zeroAt r 17 15, St.badArg), (!l.inRange, St.range),
        ((s.ige.setup.map fun u => u.tight l.cap).getD false, St.noMemory), (s.ige.limitsPend.isSome, St.state) ]
      (.ok [s.nextApply] (if s.spine.running then s.modIge fun x => { x with limitsPend := some (l, s.nextApply) }
        else dropIndex (s.modIge (withLimits l))))

/-- IGE_SET_LIMITS (R480). -/
def execIgeSetLimits (mb : Fin 16) (s : State) : Host.Outcome State Fault Refusal := runCmd mb 0x0603 1 cmdIgeSetLimits s

/-! ### IGE_START and IGE_STOP (R483, R490) -/

/-- IGE_START: MODE 1 begins a run at a position of an epoch, with micro-batch 0 (124). -/
def cmdIgeStart (a : Nat → Nat) (s : State) : Reply :=
  match s.ige.setup with
  | none => .fail St.state
  | some u =>
    let x : IgeState := if a 1 = 0 then s.ige.retained else ⟨a 2, a 3, none, 0, 0, s.ige.limitsGen⟩
    checked
      [ (decide (1 < a 1), St.badArg), (a 1 == 1 && decide (u.n ≤ a 3), St.range),
        (s.memOff || s.ige.running || s.ige.dict.isEmpty, St.state) ]
      (.ok [(a 0 + x.j / u.mbPerStep) % 2 ^ 64] (wakeIdle (s.modIge fun g => { g with
        running := true, startStep := a 0, cur := x, retained := x, marks := []
        open_ := false, fill := 0, tail := [], sample := none, full := [], skips := 0, wait := none, waitsRelease := false
        lastErr := 0 })))

/-- IGE_START (R490). -/
def execIgeStart (mb : Fin 16) (s : State) : Host.Outcome State Fault Refusal := runCmd mb 0x0604 4 cmdIgeStart s

/-- The six words of a state record. -/
def IgeState.words (r : IgeState) : List Nat := [r.epoch, r.pos, r.carried.getD (2 ^ 64 - 1), r.offset, r.j, r.limitsGen]

/-- IGE_STOP: the staging is discarded; micro-batches that are full still become ready. -/
def cmdIgeStop (_ : Nat → Nat) (s : State) : Reply :=
  checked [(!s.ige.running, St.state)]
    (.ok s.ige.cur.words (s.modIge fun g => { g with
      running := false, open_ := false, fill := 0, tail := [], sample := none, skips := 0, wait := none
      waitsRelease := false }))

/-- IGE_STOP (R490). -/
def execIgeStop (mb : Fin 16) (s : State) : Host.Outcome State Fault Refusal := runCmd mb 0x0605 0 cmdIgeStop s

/-! ### Status, skip log, counters, cache, permutation -/

/-- Buffers that hold a full micro-batch which the release word does not yet count as consumed. -/
def State.buffersFull (s : State) : Nat :=
  match s.ige.setup with
  | some u => min u.nbuf (s.ige.cur.j - leNat (vaRead u.part u.releaseVa 8 s).1)
  | none => 0

/-- The 192 bytes of IGE_STATUS (124). -/
def igeStatusBytes (s : State) : List Byte :=
  padTo 192 (padTo 64 (natLe 1 (bit s.ige.running 0) ++ natLe 1 s.buffersFull ++ natLe 2 s.ige.lastErr) ++ padTo 64 s.ige.cur.bytes
    ++ s.ige.retained.bytes)

/-- IGE_STATUS's reply. -/
def cmdIgeStatus : (Nat → Nat) → State → Reply :=
  fun a s => report (a 0) (igeStatusBytes s) [] s

/-- IGE_STATUS (R490). -/
def execIgeStatus (mb : Fin 16) (s : State) :
    Host.Outcome State Fault Refusal :=
  runCmd mb 0x0606 1 cmdIgeStatus s

/-- The 32 bytes of a skip-log record (R479). -/
def SkipRec.bytes (r : SkipRec) : List Byte :=
  natLe 8 (r.tick % 2 ^ 48) ++ natLe 8 r.epoch ++ natLe 8 r.pos ++ natLe 5 r.index ++ natLe 1 r.reason ++ natLe 2 r.units

/-- IGE_READ_SKIP_LOG's reply. -/
def cmdIgeReadSkipLog : (Nat → Nat) → State → Reply :=
  fun a s => report (a 0) (padTo 2048 (s.ige.skipLog.flatMap SkipRec.bytes)) [] s

/-- IGE_READ_SKIP_LOG (R479). -/
def execIgeReadSkipLog (mb : Fin 16) (s : State) :
    Host.Outcome State Fault Refusal :=
  runCmd mb 0x0607 1 cmdIgeReadSkipLog s

/-- IGE_READ_COUNTERS's reply. -/
def cmdIgeReadCounters : (Nat → Nat) → State → Reply :=
  reportCtrs fun s => Ctrs.bytes s.ige.ctrs 11

/-- IGE_READ_COUNTERS (R491). -/
def execIgeReadCounters (mb : Fin 16) (s : State) :
    Host.Outcome State Fault Refusal :=
  runCmd mb 0x0608 1 cmdIgeReadCounters s

/-- IGE_CLEAR_COUNTERS's reply. -/
def cmdIgeClearCounters : (Nat → Nat) → State → Reply :=
  clearCtrs 11 fun m s => s.igeCtr fun c => Ctrs.clear c m

/-- IGE_CLEAR_COUNTERS (R491). -/
def execIgeClearCounters (mb : Fin 16) (s : State) :
    Host.Outcome State Fault Refusal :=
  runCmd mb 0x0609 1 cmdIgeClearCounters s

/-- IGE_CACHE_SET: SIZE 0 removes the region; N is that of the setup (123). -/
def cmdIgeCacheSet (a : Nat → Nat) (s : State) : Reply :=
  if a 1 = 0 then
    checked [(s.ige.running, St.state)] (.ok [] (s.modIge fun x => { x with cache := none, arena := 0 }))
  else match s.ige.setup with
    | none => .fail St.state
    | some u =>
      checked
        [ (decide (a 0 % mib2 ≠ 0 ∨ a 1 % mib2 ≠ 0), St.align), (decide (2 ^ 52 < a 0 + a 1), St.range),
          (decide (a 1 < 16 * u.n + mib2), St.noMemory), (s.ige.running || s.memOff, St.state), (s.generators, St.busy) ]
        (.ok [] (clearVa u.part (a 0) (a 1) (s.modIge fun x => { x with cache := some (a 0, a 1), arena := 0 })))

/-- IGE_CACHE_SET (R486). -/
def execIgeCacheSet (mb : Fin 16) (s : State) : Host.Outcome State Fault Refusal := runCmd mb 0x060A 2 cmdIgeCacheSet s

/-- IGE_PERMUTE (R475): pos, N, seed, epoch. -/
def cmdIgePermute (a : Nat → Nat) (s : State) : Reply :=
  checked [(decide (a 1 = 0 ∨ 2 ^ 40 < a 1 ∨ a 1 ≤ a 0), St.range)]
    (.ok [sampleIndex (a 0) (a 1) (BitVec.ofNat 64 (a 2)) (a 3)] s)

/-- IGE_PERMUTE (R490). -/
def execIgePermute (mb : Fin 16) (s : State) : Host.Outcome State Fault Refusal := runCmd mb 0x060B 4 cmdIgePermute s

end Sys2Proof.Machine
end

