-- ==== Sys2Proof/Machine/TfeCheck.lean ====
section
/-! DEFINITION. The checks of a descriptor (R339 to R342, R351, R359) and its precise fault (R352 to R354). -/

namespace Sys2Proof.Machine

/-! ### Fields (R339, R340) -/

/-- Each field of a descriptor, as its first bit and its width. -/
def descBits (r : List Byte) (lo n : Nat) : Nat := bits (fieldAt r 0 64) lo n

/-- The reserved bits of R339: first bit and width. -/
def descReserved : List (Nat × Nat) :=
  [(7, 1), (12, 4), (24, 8), (48, 16), (85, 11), (117, 11), (149, 11), (181, 11), (296, 24), (424, 24), (488, 24)]

/-- The fields that a kind does not use and that must be 0 (R339, R340, R342, R359). -/
def descUnused (r : List Byte) : List (Nat × Nat) :=
  let k := DescF.kind r
  let cache := (4, 1)
  let clear := (5, 1)
  let mem := (6, 1)
  let operand := (16, 8)
  let rowBytes := (64, 21)
  let laddr := (96, 21)
  let lstride := (128, 21)
  let saddr := (160, 21)
  let maddr := (192, 64)
  let mstride := (256, 40)
  let copy := [(320, 64), (384, 40)]
  let mtag := (448, 16)
  let ranks := (464, 24)
  match k with
  | 1 => [clear, mem, operand, saddr, mtag, ranks] ++ copy
  | 2 => [clear, mem, operand, saddr, mtag, ranks] ++ copy
  | 3 => [clear, mem, operand, laddr, lstride, saddr, mtag, ranks]
  | 4 => [clear, mem, operand, laddr, lstride, saddr] ++ copy
  | 5 => [cache, clear, mem, operand, saddr, maddr, mstride, ranks] ++ copy
  | 6 => [cache, operand, if DescF.mem r then saddr else maddr, mtag, ranks] ++ copy
  | 7 => [cache, clear, operand, if DescF.mem r then saddr else maddr, mtag, ranks] ++ copy
  | _ => [cache, clear, mem, rowBytes, lstride, mtag, ranks] ++ copy

/-- The memory operations of a kind (R340). -/
def descOps : Nat → List Nat
  | 1 => [0, 8, 9]
  | 2 => [0, 1, 2, 3, 4, 5]
  | 8 => [1, 2, 3, 4, 5, 6]
  | _ => [0]

/-- OPERAND of an ATOMIC is defined (R284, R339). -/
def operandGood (r : List Byte) : Bool :=
  let o := DescF.operand r
  let sel := o / 16 % 4
  bits o 1 3 == 0 && bits o 6 2 == 0 &&
    (match DescF.memop r with
      | 4 => decide (sel ≤ 2)
      | 5 => decide (sel ≤ 1)
      | 6 => sel == 0 && !o.testBit 0
      | _ => sel == 0)

/-- The first row of R351. -/
def descFieldsBad (r : List Byte) : Bool :=
  let k := DescF.kind r
  k == 0 || decide (8 < k) || !((descOps k).contains (DescF.memop r))
    || (descReserved ++ descUnused r).any (fun f => descBits r f.1 f.2 != 0)
    || (k == 8 && !operandGood r)

/-! ### Alignment and ranges (R341, R342) -/

/-- The descriptor finalises fixed-point words. -/
def descFinal (r : List Byte) : Bool := DescF.kind r == 1 && DescF.memop r != 0

/-- The second row of R351, with the alignment of the list. -/
def descAlignBad (va : Nat) (r : List Byte) : Bool :=
  let m64 (n : Nat) : Bool := n % 64 == 0
  va % 64 != 0 ||
    (if DescF.kind r = 8 then
      let w := DescF.width r
      !(DescF.maddr r % w == 0 && DescF.mstride r % w == 0 && DescF.laddr r % w == 0 && DescF.saddr r % w == 0)
    else
      !(m64 (DescF.maddr r) && m64 (DescF.mstride r) && m64 (DescF.daddr r) && m64 (DescF.dstride r)
        && m64 (DescF.laddr r) && m64 (DescF.lstride r) && m64 (DescF.saddr r) && m64 (DescF.rowBytes r)
        && decide (64 ≤ DescF.rowBytes r ∧ DescF.rowBytes r ≤ 2 ^ 20))
      || (DescF.kind r == 4 && DescF.rankStride r == 0)
      || (descFinal r && !(DescF.maddr r % 65536 == 0 && DescF.mstride r % 65536 == 0
        && DescF.rowBytes r % (if DescF.memop r = 8 then 32768 else 16384) == 0)))

/-- Rows of n bytes from a tile-local address, at a stride, lie in [lo, hi). -/
def rowsIn (a stride rows n lo hi : Nat) : Bool := decide (lo ≤ a ∧ a + stride * (rows - 1) + n ≤ hi)

/-- The third row of R351. -/
def descLocalBad (r : List Byte) : Bool :=
  let rows := DescF.rows r
  let n := DescF.rowBytes r
  match DescF.kind r with
  | 3 => false
  | 4 => false
  | 6 => !rowsIn (DescF.laddr r) (DescF.lstride r) rows n 0x100000 0x140000 || decide (2 ^ 18 < rows * n)
      || (!DescF.mem r && !rowsIn (DescF.saddr r) (DescF.mstride r) rows n 0 0x100000)
  | 7 => !rowsIn (DescF.laddr r) (DescF.lstride r) rows n 0x100000 0x140000 || decide (2 ^ 18 < rows * n)
      || (!DescF.mem r && !rowsIn (DescF.saddr r) (DescF.mstride r) rows n 0 0x100000)
  | 8 =>
    let w := DescF.width r
    !rowsIn (DescF.laddr r) w rows w 0 0x100000
      || (DescF.memop r == 3 && !rowsIn (DescF.saddr r) w rows w 0 0x100000)
  | _ => !rowsIn (DescF.laddr r) (DescF.lstride r) rows n 0 0x100000

/-! ### The memory side (R304, R312, R351) -/

/-- The memory-side ranges of a descriptor: address, length, written. -/
def descRanges (relaxed : Bool) (r : List Byte) : List (Nat × Nat × Bool) :=
  let k := DescF.kind r
  let rows := List.range (DescF.rows r)
  (if k = 5 ∨ !hasMemory r then []
    else rows.map fun i => (DescF.maddr r + DescF.mstride r * i, memRow relaxed r, k == 2 || k == 6 || k == 8))
  ++ (if k = 3 then rows.map fun i => (DescF.daddr r + DescF.dstride r * i, DescF.rowBytes r, true) else [])

/-- The lowest byte of [a, e) that no used bound holds. -/
def outsideBounds (bs : List (Nat × Nat)) (e : Nat) : Nat → Nat → Option Nat
  | 0, a => if e ≤ a then none else some a
  | n + 1, a =>
    if e ≤ a then none
    else match bs.find? fun b => decide (b.1 ≤ a ∧ a < b.2) with
      | some b => outsideBounds bs e n b.2
      | none => some a

/-- The lowest address of a range that breaks the bounds of a channel or R304. -/
def boundFail (x : Chan) (a n : Nat) : Option Nat :=
  if 2 ^ 52 ≤ a then some a
  else (outsideBounds x.bounds (a + n) 4 a).orElse fun _ => if 2 ^ 52 < a + n then some (2 ^ 52) else none

/-- The lowest of the failing addresses. -/
def lowestOf (l : List Nat) : Option Nat :=
  match l with
  | [] => none
  | a :: as => some (as.foldl min a)

/-- The lowest VA of ranges whose page fails a test; `bad` is told the page and whether the range is written. -/
def pageFail (s : State) (part : Nat) (rs : List (Nat × Nat × Bool)) (bad : Option Page → Bool → Bool) : Option Nat :=
  lowestOf (rs.flatMap fun r => ((pagePieces r.1 r.2.1).filter fun p =>
    bad ((s.pageAt part p.1).map (·.2)) r.2.2).map (·.1))

/-- The VA lies in, or outside, every fixed-point region as an operation needs (R285, R287). -/
def fxFail (s : State) (part : Nat) (need : Bool) (rs : List (Nat × Nat × Bool)) : Option Nat :=
  lowestOf (rs.flatMap fun r => ((pagePieces r.1 r.2.1).filter fun p => s.inFx part p.1 != need).map (·.1))

/-- What row 8 of R351 asks of a descriptor's words: in a region, outside, or nothing. -/
def fxNeed (relaxed : Bool) (r : List Byte) : Option Bool :=
  if DescF.kind r = 8 then some false
  else if descFinal r then some true
  else if DescF.kind r = 2 ∧ (DescF.memop r = 4 ∨ DescF.memop r = 5) then some (!relaxed)
  else none

/-- The receiving ranks of an MCAST (R357). -/
def mcastRanks (r : List Byte) : List Nat :=
  (List.range (DescF.rankCount r)).map fun i => DescF.firstRank r + DescF.rankStride r * i

/-- The checks of R351 in order: the reason, 0 for none, and the failing VA. -/
def checkDesc (s : State) (x : Chan) (va : Nat) (r : List Byte) : Nat × Nat :=
  let op := DescF.memop r
  let rs := descRanges x.relaxed r
  let flagged := SMap.getD s.ptu.view x.part 0 != 0
  let isOp := op != 0
  if descFieldsBad r then (1, 0)
  else if descAlignBad va r then (2, 0)
  else if descLocalBad r then (3, 0)
  else match lowestOf (rs.filterMap fun g => boundFail x g.1 g.2.1) with
    | some v => (4, v)
    | none => match pageFail s x.part rs fun p _ => p.isNone with
      | some v => (5, v)
      | none => match pageFail s x.part rs fun p w => (p.map fun p => (w || isOp) && !p.write).getD false with
        | some v => (6, v)
        | none => match pageFail s x.part rs fun p _ =>
              (p.map fun p => isOp && p.tier != 1 && (flagged || p.fixed)).getD false with
          | some v => (7, v)
          | none => match (fxNeed x.relaxed r).bind fun n => fxFail s x.part n rs with
            | some v => (8, v)
            | none =>
              if DescF.kind r = 4 ∧ (mcastRanks r).any fun k => decide (x.tileList.length ≤ k) then (9, 0) else (0, 0)

/-! ### The precise fault (R352 to R354) -/

/-- A descriptor faults: its list goes no further, the first fault of the step is recorded, the thread
faults. -/
def descFault (t th : Nat) (l : DList) (idx kind reason va : Nat) (s : State) : State :=
  let info := BitVec.ofNat 64 (reason + 2 ^ 4 + th * 2 ^ 5 + idx * 2 ^ 8 + kind * 2 ^ 20)
  let s := s.modTile t fun x =>
    { (x.modList th l.id fun y => { y with stopped := true, descs := y.descs.filter fun d => decide (d.idx < idx) }) with
      descFault := if x.descFault.getLsbD 4 then x.descFault else info
      descVa := if x.descFault.getLsbD 4 then x.descVa
        else if 4 ≤ reason ∧ reason ≠ 9 then BitVec.ofNat 52 va else 0
      recvs := x.recvs.filter fun v => !(v.th == th && v.list == l.id && v.idx == idx) }
  tileFault t th 9 l.pc 0x20 (if reason = 1 then St.badArg else St.ok) s

end Sys2Proof.Machine
end

