-- ==== Sys2Proof/Machine/PagingEvents.lean ====
section
/-! DEFINITION. The events of the page and tier unit: eviction (R319), migration (R323), the far tier's requests
and data (R326, R329), host completions (R331), and the reclaim of lender windows (R225, R332, R333). -/

namespace Sys2Proof.Machine

/-! ### Eviction (R317 to R319) -/

/-- The ranges of descriptors that hold a tag: partition, address, length. -/
def State.taggedRanges (s : State) : List (Nat × Nat × Nat) :=
  s.tiles.flatMap fun t =>
    match t.2.chan.bind s.chan with
    | none => []
    | some x => t.2.ctxs.flatMap fun c => c.2.flatMap fun l => (l.descs.filter fun d => decide (0 < d.flight)).flatMap fun d =>
        (descRanges x.relaxed d.raw).map fun r => (x.part, r.1, r.2.1)

/-- A page is an eviction candidate (R318). -/
def State.candidate (s : State) (k : Nat) (p : Page) : Bool :=
  let part := keyPart k
  let va := keyVa k
  SMap.getD s.ptu.view part 0 == 0 && !p.big && p.tier == 1 && !p.pin && !p.motion && !p.lost
    && !s.inPool part va && !s.inFx part va
    && !s.taggedRanges.any fun r => r.1 == part && decide (va < r.2.1 + r.2.2 ∧ r.2.1 < va + pageSize)

/-- The candidates that a partition which needs n frames may have evicted, by rows 2 and 3 of R317, ascending. -/
def State.evictable (s : State) (part n : Nat) : List (Nat × Page) :=
  s.ptu.pages.filter fun p => s.candidate p.1 p.2 &&
    (if s.belowMax part n then decide ((s.quotaOf (keyPart p.1)).localMin / pageSize < s.localUse (keyPart p.1))
      else keyPart p.1 == part)

/-- The bytes of a page's frames, and the offsets ÷ 32 of those marked bad. -/
def frameBytes (f n : Nat) (s : State) : List Byte × List Nat × State :=
  let r := hbmRead (f * pageSize) (n * pageSize) s
  (r.1, markOffsets (f * pageSize) r.2.1, r.2.2)

/-- Send a block's bytes to a new far or host place; sectors that are marked stay marked there (R367). -/
def putBlock (r : FarRef) (data : List Byte) (bad : List Nat) (s : State) : State :=
  (List.range (data.length / pageSize)).foldl (fun s i =>
    let d := (data.drop (i * pageSize)).take pageSize
    let m := (bad.filter fun j => j / 2048 == i).map (· % 2048)
    let b := r.block i
    if r.host then regionWrite b.who b.off d m s else sendPieces 6 b (some (d, m)) (noteWritten b s)) s

/-- Host memory can be reached, or the place is not there (R331). -/
def State.placeUp (s : State) (r : FarRef) : Bool := !r.host || s.hif.pcieWidth != 0

/-- A place outside tier 1 for n bytes of a partition: the far tier, else the host tier when HOST_SPILL is
set (R319). -/
def placeOut (part n : Nat) (s : State) : Option (FarRef × State) :=
  match placeFar part n pageSize s with
  | some x => some x
  | none =>
    if (s.quotaOf part).hostSpill then (s.placeHost part n pageSize).map fun r => (r, s) else none

/-- The eviction of a page starts: its frame is freed alone when a copy stands elsewhere; else the page is in MOTION to a
place outside tier 1. None when no tier accepts it. -/
def startEvictPage (k : Nat) (p : Page) (s : State) : Option State :=
  match p.farcopy, p.far with
  | true, some r => some (freeEvicted k r s)
  | _, _ =>
    (placeOut (keyPart k) pageSize s).map fun x =>
      let s := x.2.modPage k fun g => { g with motion := true }
      { s with ptu := { s.ptu with xfers := SMap.put s.ptu.xfers k ⟨.evict, p.frame, false, x.1, [], [], [], some x.1⟩ } }

/-- The eviction of a page completes: the page stands in its copy, and its frame is free. -/
def finishEvictPage (k : Nat) (s : State) : State :=
  match SMap.lookup s.ptu.pages k, (SMap.lookup s.ptu.xfers k).bind (·.dest) with
  | some p, some r =>
    let d := frameBytes p.frame 1 { s with ptu := { s.ptu with xfers := SMap.del s.ptu.xfers k } }
    freeEvicted k r (putBlock r d.1 d.2.1 d.2.2)
  | _, _ => s

/-- Try candidates, oldest first; ties go to the lowest partition and VA, as the list has them. -/
def evictOldest : Nat → List (Nat × Page) → State → Option State
  | 0, _, _ => none
  | n + 1, l, s =>
    (s.oldest l).bind fun c =>
      match startEvictPage c.1 c.2 s with
      | some s => some s
      | none => evictOldest n (l.filter fun x => x.1 != c.1) s

/-- What starting to evict a page for a partition that needs n frames leaves; none when no candidate can go. -/
def evictFor (part n : Nat) (s : State) : Option State :=
  let l := s.evictable part n
  evictOldest l.length l s

/-- The page whose eviction is in progress. -/
def State.pageLeaving (s : State) : Option (Nat × FarRef) :=
  s.ptu.xfers.findSome? fun x => if x.2.kind = .evict then x.2.dest.map fun r => (x.1, r) else none

/-! ### Migration to tier 1 (R323) -/

/-- The key of a page by partition and VA ÷ 64 KiB. -/
def vpnKey (part vpn : Nat) : Nat := part * 2 ^ 36 + vpn % 2 ^ 36

/-- Write a block's bytes into frames: the frames' granules first become unwritten. A block that was never
written stays so. -/
def fillFrames (f n : Nat) (full : Bool) (data : List Byte) (bad : List Nat) (s : State) : State :=
  let s := markUnwritten f n s
  if full then hbmWriteMarked (f * pageSize) data bad s else s

/-- The copy of a page to tier 1 completes. A copy in a window that is being reclaimed is not kept. -/
def migrationDone (k : Nat) (s : State) : State :=
  match SMap.lookup s.ptu.xfers k, SMap.lookup s.ptu.pages k with
  | some x, some p =>
    if p.big || x.kind != .toLocal || x.pieces.length < 16 then s
    else
      let full := s.farWritten x.far
      let s := fillFrames x.frame 1 full (Mem.readN x.data 0 pageSize) x.bad s
      let keep := !x.forWrite && (x.far.host || !s.reclaiming x.far.who x.far.window)
      let s := { s with ptu := { s.ptu with xfers := SMap.del s.ptu.xfers k } }
      let s := s.modPage k fun p => { p with
        tier := 1, frame := x.frame, motion := false, fixed := false, farcopy := keep
        far := if keep then some x.far else none }
      (if keep then s else forgetCopy x.far pageSize s).ptuCtr fun c => Ctrs.sat c 14 1
  | _, _ => s

/-- MIGRATION_COMPLETE (R323). -/
def execMigrationComplete (part : Fin 4) (vpn : Nat) (s : State) : Host.Outcome State Fault Refusal :=
  .next (migrationDone (vpnKey part vpn) s)

/-- Bytes of a block arrive from byte `o` of it on; `bad` marks their sectors. -/
def Xfer.arrive (x : Xfer) (o : Nat) (pieces : List Nat) (data : List Byte) (bad : Bool) : Xfer :=
  { x with
    pieces := NSet.addAll x.pieces pieces
    data := Mem.writeN x.data o data
    bad := if bad then NSet.addAll x.bad ((List.range (data.length / 32)).map (· + o / 32))
      else NSet.cut x.bad (o / 32) (data.length / 32) }

/-- FAR_DATA (R329): one 4 KiB piece of a block arrives over a link of its lender. -/
def execFarData (link : Fin 32) (part : Fin 4) (vpn : Nat) (piece : Fin 16) (data : List Byte) (bad : Bool)
    (s : State) : Host.Outcome State Fault Refusal :=
  let k := vpnKey part vpn
  match SMap.lookup s.ptu.xfers k with
  | none => .next s
  | some x =>
    if x.far.host || !(s.linkSet (s.lenderPos x.far.who)).contains link.val then .next s
    else
      let y := x.arrive (4096 * piece) [piece.val] (padTo 4096 data) bad
      .next { s with ptu := { s.ptu with xfers := SMap.put s.ptu.xfers k y } }

/-- HOST_TIER_COMPLETION (R331): the read of a block of host memory completes; an error or a poisoned completion
marks its bytes and is logged. -/
def execHostTierCompletion (part : Fin 4) (vpn : Nat) (data : List Byte) (error poisoned : Bool) (s : State) :
    Host.Outcome State Fault Refusal :=
  let k := vpnKey part vpn
  match SMap.lookup s.ptu.xfers k with
  | none => .next s
  | some x =>
    if !x.far.host || s.hif.pcieWidth == 0 then .next s
    else
      let y := x.arrive 0 (List.range 16) (padTo pageSize data) (error || poisoned)
      let s := { s with ptu := { s.ptu with xfers := SMap.put s.ptu.xfers k y } }
      .next (if error || poisoned then
        logError (LogRec.make 9 0x40 (if error then St.uncorrectable else St.poison) 0) s else s)

/-! ### The lender's side (R326, R333) -/

/-- The physical address of an offset in a lender window. -/
def Lent.pa (w : Lent) (off : Nat) : Nat := w.frames.getD (off / pageSize) 0 * pageSize + off % pageSize

/-- The parts of a range of a window, each in one frame: offset and length. -/
def windowPieces (off len : Nat) : List (Nat × Nat) := pagePieces off len

/-- Every line of a range of a window is charged; none when one of them must wait. -/
def chargeWindow (w : Lent) (off n : Nat) (s : State) : Option State :=
  ((windowPieces off n).foldl (fun (m : Option Hbm) p => m.bind (chargeLines w.part (w.pa p.1) p.2)) (some s.mem)).map
    fun m => { s with mem := m }

/-- Serve a request of a borrower in a window: a read answers on the link that it came by, sectors that are marked with
their marks (R367). -/
def serveFar (link : Nat) (write : Bool) (w : Lent) (off n : Nat) (data : List Byte) (bad : Bool) (s : State) : State :=
  if write then
    (windowPieces off n).foldl (fun s p => hbmWrite (w.pa p.1) ((data.drop (p.1 - off)).take p.2) bad s) s
  else
    let r := (windowPieces off n).foldl (fun (a : List Byte × List Nat × State) p =>
      let x := hbmRead (w.pa p.1) p.2 a.2.2
      (a.1 ++ x.1, a.2.1 ++ (markOffsets (w.pa p.1) x.2.1).map (· + (p.1 / 32 - off / 32)), x.2.2)) ([], [], s)
    let x := farPacket 6 (s.peerOf link) r.1 r.2.1 r.2.2
    sendOn link x.1 x.2

/-- FAR_REQUEST (R326): a lender serves a read or a write of a herd member inside a window. A window that is
being reclaimed is read only (R333). The data that a read returns has no packet form in the spec (28): the
lender answers with it on the link. -/
def execFarRequest (link : Fin 32) (write : Bool) (window off len : Nat) (data : List Byte) (bad : Bool) (s : State) :
    Host.Outcome State Fault Refusal :=
  let n := if write then data.length else len
  match SMap.lookup s.ptu.lent window with
  | none => .next s
  | some w =>
    if (s.link link).st != 3 || decide (w.size < off + n) || n == 0 then .next s
    else
      let pos := s.peerOf link
      let s := { s with ptu := { s.ptu with lent := SMap.put s.ptu.lent window { w with
        borrowers := NSet.insert w.borrowers pos, waiting := if w.reclaim then NSet.insert w.waiting pos else w.waiting } } }
      if write && w.reclaim then .next s
      else match chargeWindow w off n s with
        | none => .next s
        | some s =>
          .next (serveFar link write w off n data bad (s.ptuCtr fun c => Ctrs.sat c 18 (linePieces off n).length))

/-- The Fawn that took a position over no longer answers under its former position once its windows are
returned (R403). -/
def endAlias (s : State) : State :=
  if s.ptu.lent.isEmpty then
    { s with links := { s.links with standIns := s.links.standIns.filter fun r => r.1 != s.myPos } }
  else s

/-- The window returns to the lender's own pool once no borrower is outstanding: its granules become unwritten. -/
def returnWindow (w : Nat) (s : State) : State :=
  match SMap.lookup s.ptu.lent w with
  | none => s
  | some x =>
    if x.reclaim && x.waiting.isEmpty then
      let s := x.frames.foldl (fun s f => markUnwritten f 1 s) s
      let s := { s with ptu := { s.ptu with lent := SMap.del s.ptu.lent w } }
      endAlias (x.frames.foldl (fun s f => releaseFrames f 1 s) s)
    else s

/-- RECLAIM_DONE (R333). -/
def execReclaimDone (borrower : Fin 1024) (window : Nat) (s : State) : Host.Outcome State Fault Refusal :=
  match SMap.lookup s.ptu.lent window with
  | none => .next s
  | some w =>
    if w.reclaim then
      .next (returnWindow window { s with ptu := { s.ptu with
        lent := SMap.put s.ptu.lent window { w with waiting := NSet.erase w.waiting borrower } } })
    else .next s

/-! ### The borrower's side (R225, R332) -/

/-- A reference lies in a window. -/
def FarRef.inWindow (r : FarRef) (pos window : Nat) : Bool := !r.host && r.who == pos && r.window == window

/-- Pages with a copy in a window, ascending. -/
def State.windowPages (s : State) (pos w : Nat) : List (Nat × Page) :=
  s.ptu.pages.filter fun p => (p.2.far.map fun r => r.inWindow pos w).getD false

/-- Leaves with a copy in a window, by pool, slot, layer, head and leaf: slot and table index. -/
def State.windowLeaves (s : State) (pos w : Nat) : List (Nat × Nat) :=
  s.leafs.pools.flatMap fun p => (s.leafs.slots.filter fun q => q.2.pool == p.1).flatMap fun q =>
    (q.2.leaves.filter fun l => (l.2.far.map fun r => r.inWindow pos w).getD false).map fun l => (q.1, l.1)

/-- A block of a reclaimed window that is still to be placed. -/
inductive Block where
  | page (k : Nat) (p : Page)
  | leaf (q i : Nat)
  deriving DecidableEq, Repr

/-- The first block that is still to be placed; a page whose own migration is under way is not. -/
def State.nextBlock (s : State) (pos w : Nat) : Option Block :=
  match (s.windowPages pos w).find? fun p => p.2.big ||
      ((SMap.lookup s.ptu.xfers p.1).map fun x => x.kind == .inPlace).getD true with
  | some p => some (.page p.1 p.2)
  | none => (s.windowLeaves pos w).head?.map fun (l : Nat × Nat) => Block.leaf l.1 l.2

/-- Send reclaim-done once nothing of the window is left and nothing is on its way there; the window leaves the lists
(66). -/
def reclaimFinish (pos w : Nat) (s : State) : State :=
  if (s.windowPages pos w).isEmpty && (s.windowLeaves pos w).isEmpty
      && !s.ptu.xfers.any fun x => (x.2.dest.map fun r => r.inWindow pos w).getD false then
    let lists := (s.ptu.lists.map fun l => (l.1, l.2.filter fun x => !(x.pos == pos && x.window == w))).filter fun l =>
      !l.2.isEmpty
    let s := { s with ptu := { s.ptu with reclaims := SMap.del s.ptu.reclaims (pos * 2 ^ 16 + w), lists := lists } }
    sendFar 7 (s.lenderPos pos) 0 [] [] s
  else s

/-- A reclaim notice: blocks with a local copy lose their far reference, the others are in MOTION. -/
def noticeReclaim (pos w : Nat) (s : State) : State :=
  let s := dropEvictions (FarRef.inWindow · pos w) s
  let s := (s.windowPages pos w).foldl (fun s p =>
    if p.2.tier = 1 then s.modPage p.1 fun g => { g with far := none, farcopy := false }
    else s.modPage p.1 fun g => { g with motion := true }) s
  let s := (s.windowLeaves pos w).foldl (fun s l => s.modLeaf l.1 l.2 fun g =>
    if g.tier = 1 then { g with far := none, farcopy := false } else { g with motion := true }) s
  reclaimFinish pos w { s with ptu := { s.ptu with
    reclaims := SMap.put s.ptu.reclaims (pos * 2 ^ 16 + w) ⟨s.pcm.ms⟩ } }

/-- RECLAIM_NOTICE (R332, step 2). -/
def execReclaimNotice (lender window : Nat) (s : State) : Host.Outcome State Fault Refusal :=
  if s.reclaiming lender window then .next s else .next (noticeReclaim lender window s)

/-- Place a page of a reclaimed window: another window, tier 1, or the host tier (R332, step 3). It waits while a frame is
being freed for it, and while host memory cannot be reached. -/
def placePage (k : Nat) (p : Page) (old : FarRef) (data : List Byte) (bad : Bool) (s : State) : State :=
  let part := keyPart k
  let n := p.frames * pageSize
  let full := s.copyWritten old p.frames
  let data := padTo n data
  let marks := if bad then allMarks n else []
  let moved (r : FarRef) (s : State) : State :=
    let s := if full then putBlock r data marks s else s
    forgetCopy old n (s.modPage k fun g => { g with tier := if r.host then 3 else 2, far := some r, motion := false })
  match placeFar part n n s with
  | some (r, s) => moved r s
  | none =>
    match s.takeFrame part p.frames with
    | some f =>
      let s := fillFrames f p.frames full data marks s
      (forgetCopy old n (s.modPage k fun g =>
        { g with tier := 1, frame := f, far := none, farcopy := false, motion := false })).ptuCtr fun c => Ctrs.sat c 14 1
    | none =>
      if !p.big && (s.pageLeaving.isSome || (evictFor part 1 s).isSome) then s
      else if (s.quotaOf part).hostSpill && s.hif.pcieWidth != 0 then
        match s.placeHost part n n with
        | some r => moved r s
        | none => s
      else s

/-- Place a leaf of a reclaimed window: another window, a frame of its own pool, or host memory (R225). -/
def placeBlockLeaf (q i : Nat) (data : List Byte) (bad : Bool) (s : State) : State :=
  match s.slot q, (s.slot q).bind s.poolOf with
  | some x, some p =>
    let data := padTo p.leafBytes data
    let marks := if bad then allMarks p.leafBytes else []
    let moved (r : FarRef) (s : State) : State :=
      (putCopy r data marks s).modLeaf q i fun l => { l with
        tier := if r.host then 3 else 2, far := some r, motion := false }
    match placeFar p.part p.leafBytes 64 s with
    | some (r, s) => moved r s
    | none =>
      match p.freeFrame with
      | some f =>
        let s := (writeFrame p f data marks s).modPool x.pool fun p => { p with used := NSet.insert p.used f }
        let s := s.modLeaf q i fun l => { l with frame := f, tier := 1, far := none, farcopy := false, motion := false }
        s.leafCtr fun c => Ctrs.sat c 4 1
      | none =>
        if (s.leafLeaving x.pool).isSome
            || (s.leafCandidates x.pool).any fun e => (startEvictLeaf e.2.1 e.2.2 s).isSome then s
        else if x.spillHost && s.hif.pcieWidth != 0 then
          match s.placeHost p.part p.leafBytes 64 with
          | some r => moved r s
          | none => s
        else s
  | _, _ => s

/-! ### Eviction on demand (R317) -/

/-- An access to a page waits for a frame of a partition. -/
def State.accessWants (s : State) (part : Nat) : Bool :=
  let mine (w : Nat × Nat) : Bool := w.1 == Stall.frame && keyPart w.2 == part
  (s.ige.wait.map mine).getD false || s.tiles.any fun t => t.2.lateLines.any (fun w => mine w.2)
    || t.2.ctxs.any fun c => c.2.any fun l => l.descs.any fun d => (d.wait.map mine).getD false

/-- A small page of a reclaimed window is to be placed for a partition. -/
def State.reclaimWants (s : State) (part : Nat) : Bool :=
  s.ptu.reclaims.any fun r =>
    match s.nextBlock (r.1 / 2 ^ 16) (r.1 % 2 ^ 16) with
    | some (.page k p) => keyPart k == part && !p.big
    | _ => false

/-- PAGE_EVICTION (R319): the eviction in progress completes, once its copy can be made; with none in progress, one starts
for a partition that needs a frame and cannot take one under row 1 of R317. -/
def execPageEviction (part : Fin 4) (s : State) : Host.Outcome State Fault Refusal :=
  match s.pageLeaving with
  | some (k, r) => .next (if s.placeUp r then finishEvictPage k s else s)
  | none =>
    if (s.accessWants part || s.reclaimWants part) && (s.takeFrame part 1).isNone then .next ((evictFor part 1 s).getD s)
    else .next s

/-- RECLAIM_BLOCK_PLACE (R225, R332): the first block that is still to be placed goes elsewhere; with none left
reclaim-done is sent. -/
def execReclaimBlockPlace (lender window : Nat) (data : List Byte) (bad : Bool) (s : State) :
    Host.Outcome State Fault Refusal :=
  if !s.reclaiming lender window then .next s
  else
    let s := match s.nextBlock lender window with
      | some (.page k p) =>
        match p.far with
        | some r => placePage k p r data bad s
        | none => s
      | some (.leaf q i) =>
        placeBlockLeaf q i data bad s
      | none => s
    done (kickStreamers (reclaimFinish lender window s))

/-- RECLAIM_BOUND_EXPIRY (R332, step 5): the blocks that are not placed are lost, and logged (67). -/
def execReclaimBoundExpiry (lender window : Nat) (s : State) : Host.Outcome State Fault Refusal :=
  match SMap.lookup s.ptu.reclaims (lender * 2 ^ 16 + window) with
  | none => .next s
  | some r =>
    if s.pcm.ms < r.startMs + s.ptu.bound then .next s
    else
      let t := (s.windowPages lender window).foldl (fun s p =>
        let s := { s with ptu := { s.ptu with xfers := SMap.del s.ptu.xfers p.1 } }
        logError (LogRec.atVa (LogRec.make 8 0x40 St.uncorrectable 0) (keyPart p.1) (keyVa p.1)) (losePage p.1 s)) s
      let t := t.leafs.slots.foldl (fun t q =>
        let n := ((t.windowLeaves lender window).filter fun l => l.1 == q.1).length
        if n = 0 then t else emptySlot q.1 n t) t
      done (kickStreamers (reclaimFinish lender window t))

end Sys2Proof.Machine
end

