-- ==== Sys2Proof/Machine/PageCmds.lean ====
section
/-! DEFINITION. The paging commands (R304 to R338, R665). -/

namespace Sys2Proof.Machine

/-- Change the page and tier unit. -/
def State.modPtu (s : State) (f : Ptu → Ptu) : State := { s with ptu := f s.ptu }

/-- Bytes of a 2 MiB page. -/
abbrev bigSize : Nat := 2 ^ 21

/-! ### What holds a range (R336) -/

/-- The virtual ranges of a pool's frames: base and length. -/
def LeafPool.spans (p : LeafPool) : List (Nat × Nat) :=
  [(p.elemBase, roundUp (p.elemBase + p.frames * p.eb) pageSize - p.elemBase),
   (p.scaleBase, roundUp (p.scaleBase + p.frames * p.sb) pageSize - p.scaleBase)]

/-- A virtual range meets a leaf pool or a fixed-point region. -/
def State.rangeFixed (s : State) (part va len : Nat) : Bool :=
  let meets (b n : Nat) : Bool := decide (b < va + len ∧ va < b + n)
  (s.leafs.pools.any fun p => p.2.part == part && p.2.spans.any fun r => meets r.1 r.2)
    || s.mem.fx.any fun r => r.2.part == part && meets r.2.base (r.2.frames.length * pageSize)

/-- A range in which no command but PAGE_MAP and PAGE_MIGRATE may change an entry. -/
def State.rangeHeld (s : State) (part va len : Nat) : Bool := s.boundsHit part va len || s.rangeFixed part va len

/-- A range covers only part of a 2 MiB page (R337). -/
def State.cutsBig (s : State) (part va len : Nat) : Bool :=
  (s.pagesIn part va len).any fun p =>
    p.2.big && decide (keyVa p.1 < va ∨ va + len < keyVa p.1 + bigSize)

/-- What is wrong with the range of PAGE_UNMAP, PAGE_MIGRATE and PAGE_PIN. -/
def State.rangeErr (s : State) (part va len : Nat) : List (Bool × Status) :=
  [ (va % pageSize != 0 || len % pageSize != 0, St.align),
    (decide (3 < part ∨ len = 0 ∨ 2 ^ 52 < va + len), St.range),
    (s.cutsBig part va len, St.align) ]

/-! ### Setting up (R308, R314, R315, R321) -/

/-- PTU_INIT: the area must not take frames that are lent. -/
def cmdPtuInit (a : Nat → Nat) (s : State) : Reply :=
  let lent := s.ptu.lent.any fun w => w.2.frames.any fun f =>
    decide (a 0 < (f + 1) * pageSize ∧ f * pageSize < a 0 + a 1)
  checked
    [ (a 0 % bigSize != 0 || a 1 % bigSize != 0, St.align),
      (decide (a 1 < 2 * bigSize ∨ reserveBase < a 0 + a 1), St.range),
      (s.memOff || !s.ptu.pages.isEmpty || !s.leafs.pools.isEmpty || lent, St.state) ]
    (.ok [] (s.modPtu fun p => { p with area := some (a 0, a 1) }))

/-- PTU_INIT (R308, R336). -/
def execPtuInit (mb : Fin 16) (s : State) : Host.Outcome State Fault Refusal := runCmd mb 0x0301 2 cmdPtuInit s

/-- PARTITION_SET_VIEW. -/
def cmdPartitionSetView (a : Nat → Nat) (s : State) : Reply :=
  let used := (s.ptu.pages.any fun p => keyPart p.1 == a 0) || s.leafs.pools.any fun p => p.2.part == a 0
  checked [(decide (3 < a 0), St.range), (decide (1 < a 1), St.badArg), (used, St.state)]
    (.ok [] (s.modPtu fun p => { p with view := SMap.setD p.view 0 (a 0) (a 1) }))

/-- PARTITION_SET_VIEW (R321). -/
def execPartitionSetView (mb : Fin 16) (s : State) : Host.Outcome State Fault Refusal := runCmd mb 0x0302 2 cmdPartitionSetView s

/-- A quota record. -/
def Quota.of (r : List Byte) : Quota :=
  ⟨fieldAt r 0 8, fieldAt r 8 8, fieldAt r 16 8, fieldAt r 24 8, (fieldAt r 32 1).testBit 0⟩

/-- A new cap is below the present use. -/
def capBelow (cap use : Nat) : Bool := cap != 0 && decide (cap < use)

/-- PARTITION_SET_QUOTA. -/
def cmdPartitionSetQuota (a : Nat → Nat) (s : State) : Reply :=
  checked [(decide (3 < a 0), St.range)]
    (withRecord (a 1) 40 64 s fun r s =>
      let q := Quota.of r
      let mins := ((List.range 4).map fun p => if p = a 0 then q.localMin else (s.quotaOf p).localMin).foldl (· + ·) 0
      checked
        [ ([q.localMin, q.localMax, q.farMax, q.hostMax].any (· % pageSize != 0), St.align),
          (decide (2 ≤ fieldAt r 32 1) || !zeroAt r 33 7 || capBelow q.localMax q.localMin, St.badArg),
          (decide (s.poolFrames * pageSize < mins), St.range),
          (capBelow q.localMax (s.localUse (a 0) * pageSize) || capBelow q.farMax (s.tierUse false (a 0))
            || capBelow q.hostMax (s.tierUse true (a 0)), St.state) ]
        (.ok [] (s.modPtu fun p => { p with quota := SMap.setD p.quota Quota.reset (a 0) q })))

/-- PARTITION_SET_QUOTA (R314, R315). -/
def execPartitionSetQuota (mb : Fin 16) (s : State) : Host.Outcome State Fault Refusal := runCmd mb 0x0303 2 cmdPartitionSetQuota s

/-! ### Mapping (R313, R325, R665) -/

/-- The bytes that the nodes of the page tables take (R307): four roots, and the nodes that the pages need. -/
def tableBytes (pages : List (Nat × Bool)) : Nat :=
  let nodes (l : List Nat) : Nat := (NSet.addAll [] l).length
  4 * 2 ^ 17 + 2 ^ 13 * (nodes (pages.map fun p => p.1 / 2 ^ 23) + nodes (pages.map fun p => p.1 / 2 ^ 14))
    + 2 ^ 9 * nodes ((pages.filter fun p => !p.2).map fun p => p.1 / 2 ^ 5)

/-- The table area has room for some further pages. -/
def State.tableRoom (s : State) (keys : List Nat) (big : Bool) : Bool :=
  match s.ptu.area with
  | some a => decide (tableBytes (s.ptu.pages.map (fun p => (p.1, p.2.big)) ++ keys.map fun k => (k, big)) ≤ a.2)
  | none => false

/-- What PAGE_MAP asks for. -/
structure MapReq where
  part : Nat
  va : Nat
  len : Nat
  big : Bool
  tier : Nat
  write : Bool
  pin : Bool
  slot : Nat
  acct : Bool
  region : Nat
  off : Nat
  /-- FRAME_BASE ÷ 64 KiB. -/
  base : Option Nat

/-- The request in the arguments of PAGE_MAP. -/
def MapReq.of (a : Nat → Nat) : MapReq :=
  ⟨a 0, a 1, a 2, a 3 == 1, a 4, a 5 == 1, a 6 == 1, a 7, a 8 == 1, a 9, a 10,
    if a 11 = 2 ^ 64 - 1 then none else some (a 11 / pageSize)⟩

/-- Bytes of each page. -/
def MapReq.size (q : MapReq) : Nat := if q.big then bigSize else pageSize

/-- The keys of the pages, ascending. -/
def MapReq.keys (q : MapReq) : List Nat :=
  (List.range (q.len / q.size)).map fun i => pageKey q.part (q.va + i * q.size)

/-- A page of the request in a place: a frame, or a copy in tier 2 or 3. -/
def MapReq.page (q : MapReq) (view : Nat) (lastUse : Nat) (frame : Option Nat) (far : Option FarRef) : Page where
  big := q.big
  tier := match far with | some r => if r.host then 3 else 2 | none => 1
  write := q.write
  pin := q.pin || (q.big && view == 0)
  motion := false
  farcopy := false
  lost := false
  slot := q.slot
  slotAcct := q.acct
  frame := frame.getD 0
  lastUse := lastUse
  far := far
  fixed := q.tier == 3

/-- Put a page into the table. A far or host page reads 0 until it is written. -/
def addPage (k : Nat) (p : Page) (s : State) : State :=
  let s := match p.far with
    | some r => forgetCopy r (p.frames * pageSize) s
    | none => s
  s.modPtu fun t => { t with pages := SMap.put t.pages k p }

/-- Back page i of the request, with the key k; none when its tier is exhausted or a quota is exceeded. -/
def mapPage (q : MapReq) (i k : Nat) (s : State) : Option State :=
  let view := SMap.getD s.ptu.view q.part 0
  let n := if q.big then 32 else 1
  let local_ (f : Nat) (fresh : Bool) (s : State) : State :=
    addPage k (q.page view s.useStep (some f) none) (if fresh then markUnwritten f n s else s)
  let far (r : FarRef) (s : State) : State := addPage k (q.page view s.useStep none (some r)) s
  match q.base with
  | some b => some (local_ (b + i * n) false s)
  | none =>
    match q.tier with
    | 3 =>
      let m := (s.quotaOf q.part).hostMax
      if m != 0 && decide (m < s.tierUse true q.part + q.size) then none
      else some (far ⟨true, q.region, 0, q.off + i * q.size⟩ s)
    | 2 => (placeFar q.part q.size q.size s).map fun r => far r.1 r.2
    | _ =>
      match s.takeFrame q.part n with
      | some f => some (local_ f true s)
      | none =>
        if q.tier = 0 && !q.big then (placeFar q.part q.size q.size s).map fun r => far r.1 r.2 else none

/-- Back pages i, i + 1, …. -/
def mapPages (q : MapReq) : Nat → List Nat → State → Option State
  | _, [], s => some s
  | i, k :: ks, s => (mapPage q i k s).bind (mapPages q (i + 1) ks)

/-- A field of PAGE_MAP is not defined, or its tier is not allowed in the partition's view. -/
def mapBad (a : Nat → Nat) (view : Nat) : Bool :=
  decide (1 < a 3 ∨ 3 < a 4 ∨ 1 < a 5 ∨ 1 < a 6 ∨ 1 < a 8)
    || (if view = 0 then a 4 == 1 || a 4 == 2 || (a 3 == 1 && a 4 == 3) else a 4 == 0)
    || (a 4 != 3 && (a 9 != 0 || a 10 != 0)) || (a 11 != 2 ^ 64 - 1 && a 4 != view)

/-- The frames that FRAME_BASE names fit the partition's share of the pool (R665). -/
def State.frameRoom (s : State) (part n : Nat) : Bool :=
  s.belowMax part n && decide (n + s.keepFor part ≤ s.freeFrames)

/-- PAGE_MAP. -/
def cmdPageMap (a : Nat → Nat) (s : State) : Reply :=
  let q := MapReq.of a
  let view := SMap.getD s.ptu.view q.part 0
  let frames := q.len / pageSize
  checked
    [ (q.va % q.size != 0 || q.len % q.size != 0 || q.off % q.size != 0 || (q.base.isSome && a 11 % q.size != 0), St.align),
      (decide (3 < q.part ∨ 15 < q.slot ∨ q.len = 0 ∨ 2 ^ 52 < q.va + q.len)
        || (q.tier == 3 && decide (regionSize ((SMap.lookup s.ptu.regions q.region).getD []) < q.off + q.len)), St.range),
      (mapBad a view, St.badArg),
      (s.memOff || !(s.pagesIn q.part q.va q.len).isEmpty || !(q.base.map fun b => s.frameFree b frames).getD true, St.state),
      (!s.tableRoom q.keys q.big || (q.base.isSome && !s.frameRoom q.part frames), St.noMemory),
      (s.generators, St.busy) ]
    (match mapPages q 0 q.keys s with
      | some s => .ok [] s
      | none => .fail St.noMemory)

/-- PAGE_MAP (R325, R336, R665). -/
def execPageMap (mb : Fin 16) (s : State) : Host.Outcome State Fault Refusal := runCmd mb 0x0304 12 cmdPageMap s

/-- Take a page out of the table: its frames are free and unwritten, its copies are gone (R337). -/
def unmapPage (k : Nat) (p : Page) (s : State) : State :=
  let s := s.modPtu fun t => { t with
    pages := SMap.del t.pages k, xfers := SMap.cut t.xfers k p.frames }
  let s := if p.tier = 1 then releaseFrames p.frame p.frames (markUnwritten p.frame p.frames s) else s
  match p.far with
  | some r => forgetCopy r (p.frames * pageSize) s
  | none => s

/-- PAGE_UNMAP. -/
def cmdPageUnmap (a : Nat → Nat) (s : State) : Reply :=
  checked (s.rangeErr (a 0) (a 1) (a 2) ++ [(s.rangeHeld (a 0) (a 1) (a 2), St.state), (s.generators, St.busy)])
    (.ok [] ((s.pagesIn (a 0) (a 1) (a 2)).foldl (fun s p => unmapPage p.1 p.2 s) s))

/-- PAGE_UNMAP (R337). -/
def execPageUnmap (mb : Fin 16) (s : State) : Host.Outcome State Fault Refusal := runCmd mb 0x0305 3 cmdPageUnmap s

/-! ### Moving pages by command (R323, R337) -/

/-- A copy of block i of a page in tier 2 or 3 is on its way. A block that was never written needs no bytes. -/
def beginBlock (kind : XferKind) (k i frame : Nat) (r : FarRef) (lost : Bool) (dest : Option FarRef) (s : State) : State :=
  let b := r.block i
  let full := lost || !s.farWritten b
  let x : Xfer := ⟨kind, frame + i, false, b, if full then List.range 16 else [], [], [], dest.map (·.block i)⟩
  let s := s.modPtu fun t => { t with xfers := SMap.put t.xfers (k + i) x }
  if full || r.host then s else sendPieces 5 b none s

/-- The eviction in progress completes where its copy can be made. -/
def finishLeaving (s : State) : Option State :=
  match s.pageLeaving with
  | some (k, r) => if s.placeUp r then some (finishEvictPage k s) else none
  | none => some s

/-- Frames for n granules of a partition (R317): when need be pages outside the range that is being moved are evicted, one
after another, up to the number given. -/
def takeOrEvict (part va len n : Nat) : Nat → State → Option (Nat × State)
  | 0, s => (s.takeFrame part n).map fun f => (f, s)
  | m + 1, s =>
    match s.takeFrame part n with
    | some f => some (f, s)
    | none =>
      let l := (s.evictable part n).filter fun p =>
        !(keyPart p.1 == part && decide (va ≤ keyVa p.1 ∧ keyVa p.1 < va + len))
      ((finishLeaving s).bind fun s => (evictOldest l.length l s).bind finishLeaving).bind (takeOrEvict part va len n m)

/-- A place outside tier 1 in the named tier. -/
def placeIn (t part n : Nat) (s : State) : Option (FarRef × State) :=
  if t = 2 then placeFar part n n s else (s.placeHost part n n).map fun r => (r, s)

/-- Begin to move a page to a tier; a page in tier 1 moves at once. None when the tier has no room. -/
def beginMove (t va len k : Nat) (p : Page) (s : State) : Option State :=
  let n := p.frames * pageSize
  let part := keyPart k
  if p.tier = t then some s
  else if p.tier = 1 then
    let free (r : FarRef) (s : State) : State := releaseFrames p.frame p.frames (s.modPage k fun g => { g with
      tier := t, far := some r, farcopy := false, frame := 0, fixed := t == 3 })
    match p.far.filter fun r => p.farcopy && r.host == (t == 3) with
    | some r => some (free r s)
    | none =>
      match placeIn t part n (staleCopy k s) with
      | some (r, s) =>
        let d := frameBytes p.frame p.frames s
        some (free r (putBlock r d.1 d.2.1 d.2.2))
      | none => none
  else match p.far with
    | none => some s
    | some r =>
      let move (kind : XferKind) (frame : Nat) (dest : Option FarRef) (s : State) : State :=
        (List.range p.frames).foldl (fun s i => beginBlock kind k i frame r p.lost dest s)
          (s.modPage k fun g => { g with motion := true })
      if t = 1 then
        match takeOrEvict part va len p.frames s.ptu.pages.length s with
        | some (f, s) => some (move .toLocal f none s)
        | none => none
      else
        match placeIn t part n s with
        | some (d, s) => some (move .between 0 (some d) s)
        | none => none

/-- Begin to move every page of a list. -/
def beginMoves (t va len : Nat) : List (Nat × Page) → State → Option State
  | [], s => some s
  | p :: ps, s => (beginMove t va len p.1 p.2 s).bind (beginMoves t va len ps)

/-- The transfers of a page. -/
def State.pageXfers (s : State) (k : Nat) (p : Page) : List (Nat × Xfer) :=
  s.ptu.xfers.filter fun x => decide (k ≤ x.1 ∧ x.1 < k + p.frames)

/-- The bytes of a page that is being moved have all come. -/
def State.moveReady (s : State) (k : Nat) (p : Page) : Bool := (s.pageXfers k p).all fun x => decide (16 ≤ x.2.pieces.length)

/-- The copy of a page that is moved out of tier 2 or 3 completes. -/
def finishMove (t k : Nat) (p : Page) (s : State) : State :=
  let xs := s.pageXfers k p
  match xs, p.far with
  | x :: _, some r =>
    let n := p.frames * pageSize
    let s := xs.foldl (fun s y =>
      let full := s.farWritten y.2.far
      let data := Mem.readN y.2.data 0 pageSize
      match y.2.dest with
      | none => fillFrames y.2.frame 1 full data y.2.bad s
      | some d => if full then putBlock d data y.2.bad s else s) s
    let s := s.modPtu fun q => { q with xfers := SMap.cut q.xfers k p.frames }
    match x.2.dest with
    | none =>
      let keep := !p.lost && !xs.any (·.2.forWrite) && (r.host || !s.reclaiming r.who r.window)
      let s := s.modPage k fun g => { g with
        tier := 1, frame := x.2.frame, motion := false, fixed := false, farcopy := keep, far := if keep then some r else none }
      (if keep then s else forgetCopy r n s).ptuCtr fun c => Ctrs.sat c 14 1
    | some d =>
      forgetCopy r n (s.modPage k fun g => { g with
        tier := t, far := some d, motion := !d.host && s.reclaiming d.who d.window, fixed := t == 3 })
  | _, _ => s

/-- A transfer of a page, or a request that touches it, is in flight. -/
def State.pageBusy (s : State) (k : Nat) (p : Page) : Bool :=
  p.motion || !(s.pageXfers k p).isEmpty
    || (p.tier == 1 && (List.range p.frames).any fun i => s.frameBusy (p.frame + i))
    || s.tiles.any fun t => t.2.reqs.any fun r =>
        let q := pageKey (((t.2.chan.bind s.chan).map (·.part)).getD 0) r.2.va
        r.2.tag && decide (k ≤ q ∧ q < k + p.frames)

/-- A page that must stay in its tier: pinned, or of a leaf pool or a fixed-point region (115). -/
def State.mustStay (s : State) (k : Nat) (p : Page) : Bool :=
  p.pin || s.rangeFixed (keyPart k) (keyVa k) (p.frames * pageSize)

/-- PAGE_MIGRATE: it waits for transfers in flight, begins every copy, and completes with the last of them. -/
def cmdPageMigrate (a : Nat → Nat) (s : State) : Reply :=
  let ps := s.pagesIn (a 0) (a 1) (a 2)
  let t := a 3
  match SMap.lookup s.ptu.moves (a 0) with
  | some n =>
    if ps.all fun p => s.moveReady p.1 p.2 then
      .ok [n] ((ps.foldl (fun s p => finishMove t p.1 p.2 s) s).modPtu fun q => { q with moves := SMap.del q.moves (a 0) })
    else .wait s
  | none =>
    checked (s.rangeErr (a 0) (a 1) (a 2) ++
      [ (!s.mapped (a 0) (a 1) (a 2), St.range),
        (decide (t = 0 ∨ 3 < t)
          || ps.any (fun p => p.2.tier != t && (s.mustStay p.1 p.2 || (p.2.big && SMap.getD s.ptu.view (a 0) 0 == 0))), St.badArg),
        (s.memOff, St.state), (s.generators, St.busy) ])
      (if (ps.any fun p => s.pageBusy p.1 p.2)
          || (s.hif.pcieWidth == 0 && ps.any fun p => p.2.tier != t && (t == 3 || p.2.tier == 3)) then .wait s
       else
        let n := (ps.filter fun p => p.2.tier != t).length
        match beginMoves t (a 1) (a 2) ps s with
        | none => .fail St.noMemory
        | some s =>
          if ps.all fun p => (s.pageXfers p.1 p.2).isEmpty then .ok [n] s
          else .wait (s.modPtu fun q => { q with moves := SMap.put q.moves (a 0) n }))

/-- PAGE_MIGRATE (R337). -/
def execPageMigrate (mb : Fin 16) (s : State) : Host.Outcome State Fault Refusal := runCmd mb 0x0306 4 cmdPageMigrate s

/-- PAGE_PIN. -/
def cmdPagePin (a : Nat → Nat) (s : State) : Reply :=
  let pin := a 3 == 1
  let ps := (s.pagesIn (a 0) (a 1) (a 2)).filter fun p =>
    p.2.pin != pin && !(p.2.big && SMap.getD s.ptu.view (a 0) 0 == 0)
  checked (s.rangeErr (a 0) (a 1) (a 2) ++ [(decide (1 < a 3), St.badArg), (s.rangeHeld (a 0) (a 1) (a 2), St.state)])
    (.ok [ps.length] (ps.foldl (fun s p =>
      (if pin && s.leaving p.1 then endEvictPage p.1 s else s).modPage p.1 fun g => { g with pin := pin }) s))

/-- PAGE_PIN (R337). -/
def execPagePin (mb : Fin 16) (s : State) : Host.Outcome State Fault Refusal := runCmd mb 0x0307 4 cmdPagePin s

/-! ### Reports (R309, R336) -/

/-- PAGE_QUERY: a page of a fixed-point region is pinned (R288). -/
def cmdPageQuery (a : Nat → Nat) (s : State) : Reply :=
  checked [(decide (3 < a 0 ∨ 2 ^ 52 ≤ a 1), St.range)]
    (.ok (match s.pageAt (a 0) (a 1) with
      | some (k, p) =>
        let e := ({ p with pin := s.mustStay k p } : Page).entry
        [fieldAt e 0 8, fieldAt e 8 8]
      | none => [0, 0]) s)

/-- PAGE_QUERY (R309, R336). -/
def execPageQuery (mb : Fin 16) (s : State) : Host.Outcome State Fault Refusal := runCmd mb 0x0308 2 cmdPageQuery s

/-- A slot's accounting (R316): local bytes and far bytes. -/
def State.slotUse (s : State) (q : Nat) : Nat × Nat :=
  let ps := s.ptu.pages.filter fun p => p.2.slotAcct && p.2.slot == q
  let sum (l : List Nat) : Nat := l.foldl (· + ·) 0
  let pl := sum ((ps.filter fun p => p.2.tier == 1).map fun p => p.2.frames * pageSize)
  let pf := sum ((ps.filter fun p => (p.2.far.map fun r => !r.host).getD false).map fun p => p.2.frames * pageSize)
  match s.slot q, (s.slot q).bind s.poolOf with
  | some x, some p =>
    (pl + p.leafBytes * (x.leaves.filter fun l => l.2.tier == 1).length,
     pf + p.leafBytes * (x.leaves.filter fun l => (l.2.far.map fun r => !r.host).getD false).length)
  | _, _ => (pl, pf)

/-- The report of POOL_STATUS, in 64-bit fields (115). -/
def State.poolReport (s : State) : List Nat :=
  [s.poolFrames, s.freeFrames]
    ++ (List.range 4).flatMap (fun p =>
      let q := s.quotaOf p
      [s.localUse p * pageSize, s.tierUse false p, s.tierUse true p, q.localMin, q.localMax, q.farMax, q.hostMax,
        if q.hostSpill then 1 else 0])
    ++ (List.range 16).flatMap fun q => [(s.slotUse q).1, (s.slotUse q).2]

/-- POOL_STATUS's reply. -/
def cmdPoolStatus : (Nat → Nat) → State → Reply :=
  fun a s => report (a 0) (s.poolReport.flatMap (natLe 8)) [] s

/-- POOL_STATUS (R316, R336). -/
def execPoolStatus (mb : Fin 16) (s : State) :
    Host.Outcome State Fault Refusal :=
  runCmd mb 0x0309 1 cmdPoolStatus s

/-! ### Windows and host regions (R326 to R330, R333) -/

/-- Take n frames for a window, each the lowest that is allowed. -/
def lendFrames (w part : Nat) : Nat → State → Option State
  | 0, s => some s
  | n + 1, s =>
    match s.takeFrame part 1 with
    | some f =>
      lendFrames w part n (s.modPtu fun p => { p with lent := SMap.upd p.lent w fun x => { x with frames := x.frames ++ [f] } })
    | none => none

/-- FAR_LEND: the lowest number that no window has. -/
def cmdFarLend (a : Nat → Nat) (s : State) : Reply :=
  let w := firstFree (s.ptu.lent.map (·.1)) 0
  checked
    [ (decide (a 0 = 0 ∨ a 0 % bigSize ≠ 0 ∨ 3 < a 1), St.range), (s.memOff, St.state),
      (decide (poolLimit < a 0 / pageSize), St.noMemory), (s.generators, St.busy) ]
    (match lendFrames w (a 1) (a 0 / pageSize)
        (s.modPtu fun p => { p with lent := SMap.put p.lent w ⟨a 0, a 1, [], [], false, []⟩ }) with
      | some s =>
        .ok [w] ((((SMap.lookup s.ptu.lent w).map (·.frames)).getD []).foldl (fun s f => markUnwritten f 1 s) s)
      | none => .fail St.noMemory)

/-- FAR_LEND (R326). -/
def execFarLend (mb : Fin 16) (s : State) : Host.Outcome State Fault Refusal := runCmd mb 0x0310 2 cmdFarLend s

/-- FAR_UNLEND. -/
def cmdFarUnlend (a : Nat → Nat) (s : State) : Reply :=
  match SMap.lookup s.ptu.lent (a 0) with
  | none => .fail St.range
  | some w => if w.reclaim then .fail St.state else .ok [] (returnWindow (a 0) (startReclaim (a 0) s))

/-- FAR_UNLEND (R332, R333). -/
def execFarUnlend (mb : Fin 16) (s : State) : Host.Outcome State Fault Refusal := runCmd mb 0x0311 1 cmdFarUnlend s

/-- The window list of FAR_POOL_SET: 64 entries of 16 bytes, an entry of size 0 being unused (115). -/
def windowList (r : List Byte) : List FarWin :=
  ((List.range 64).map fun i => ⟨fieldAt r (16 * i) 2, fieldAt r (16 * i + 2) 2, fieldAt r (16 * i + 8) 8⟩).filter
    fun w => w.size != 0

/-- No two entries name the same window. -/
def distinctWins : List FarWin → Bool
  | [] => true
  | w :: ws => !(ws.any fun v => v.pos == w.pos && v.window == w.window) && distinctWins ws

/-- FAR_POOL_SET. -/
def cmdFarPoolSet (a : Nat → Nat) (s : State) : Reply :=
  checked [(decide (3 < a 0), St.range)]
    (withRecord (a 1) 1024 64 s fun r s =>
      let wins := windowList r
      let outside := s.copies.any fun c => c.2.2 == a 0 && !c.1.host
        && !(wins.any fun w => w.pos == c.1.who && w.window == c.1.window && decide (c.1.off + c.2.1 ≤ w.size))
      checked
        [ (wins.any fun w => w.size % bigSize != 0, St.align),
          (!((List.range 64).all fun i => zeroAt r (16 * i + 4) 4) || !distinctWins wins, St.badArg),
          (wins.any fun w => decide (1023 < w.pos), St.range), (outside, St.state) ]
        (.ok [] (s.modPtu fun p => { p with lists := SMap.setD p.lists [] (a 0) wins, rr := SMap.del p.rr (a 0) })))

/-- FAR_POOL_SET (R328). -/
def execFarPoolSet (mb : Fin 16) (s : State) : Host.Outcome State Fault Refusal := runCmd mb 0x0312 2 cmdFarPoolSet s

/-- SET_RECLAIM_BOUND's reply. -/
def cmdSetReclaimBound : (Nat → Nat) → State → Reply :=
  fun a s => checked [(decide (a 0 < 100 ∨ 10000 < a 0), St.range)]
    (.ok [] (s.modPtu fun p => { p with bound := a 0 }))

/-- SET_RECLAIM_BOUND (R333). -/
def execSetReclaimBound (mb : Fin 16) (s : State) :
    Host.Outcome State Fault Refusal :=
  runCmd mb 0x0313 1 cmdSetReclaimBound s

/-- The range list of HOST_REGION_ADD: 64 entries of 16 bytes, bus address and length, an entry of length 0 being
unused (115). -/
def rangeList (r : List Byte) : List (Nat × Nat) :=
  ((List.range 64).map fun i => (fieldAt r (16 * i) 8, fieldAt r (16 * i + 8) 8)).filter fun w => w.2 != 0

/-- HOST_REGION_ADD. -/
def cmdHostRegionAdd (a : Nat → Nat) (s : State) : Reply :=
  checked [(decide (1023 < a 0), St.range)]
    (withRecord (a 1) 1024 64 s fun r s =>
      let l := rangeList r
      checked
        [ (l.any fun x => x.1 % pageSize != 0 || x.2 % pageSize != 0, St.align),
          (l.isEmpty || decide (2 ^ 48 < regionSize l) || l.any (fun x => decide (2 ^ 62 < x.1 + x.2)), St.range),
          ((SMap.lookup s.ptu.regions (a 0)).isSome, St.state) ]
        (.ok [] (s.modPtu fun p => { p with regions := SMap.put p.regions (a 0) l })))

/-- HOST_REGION_ADD (R330). -/
def execHostRegionAdd (mb : Fin 16) (s : State) : Host.Outcome State Fault Refusal := runCmd mb 0x0318 2 cmdHostRegionAdd s

/-- HOST_REGION_REMOVE. -/
def cmdHostRegionRemove (a : Nat → Nat) (s : State) : Reply :=
  checked
    [ (decide (1023 < a 0), St.range),
      ((SMap.lookup s.ptu.regions (a 0)).isNone || s.copies.any (fun c => c.1.host && c.1.who == a 0), St.state) ]
    (.ok [] (s.modPtu fun p => { p with
      regions := SMap.del p.regions (a 0), written := p.written.filter fun w => !(w.host && w.who == a 0) }))

/-- HOST_REGION_REMOVE (R330). -/
def execHostRegionRemove (mb : Fin 16) (s : State) : Host.Outcome State Fault Refusal := runCmd mb 0x0319 1 cmdHostRegionRemove s

/-! ### Counters (R338) -/

/-- READ_PTU_COUNTERS's reply. -/
def cmdReadPtuCounters : (Nat → Nat) → State → Reply :=
  reportCtrs fun s => Ctrs.bytes s.ptu.ctrs 19

/-- READ_PTU_COUNTERS (R338). -/
def execReadPtuCounters (mb : Fin 16) (s : State) :
    Host.Outcome State Fault Refusal :=
  runCmd mb 0x0320 1 cmdReadPtuCounters s

/-- CLEAR_PTU_COUNTERS's reply. -/
def cmdClearPtuCounters : (Nat → Nat) → State → Reply :=
  clearCtrs 19 fun m s => s.ptuCtr fun c => Ctrs.clear c m

/-- CLEAR_PTU_COUNTERS (R338). -/
def execClearPtuCounters (mb : Fin 16) (s : State) :
    Host.Outcome State Fault Refusal :=
  runCmd mb 0x0321 1 cmdClearPtuCounters s

end Sys2Proof.Machine
end

