-- ==== Sys2Proof/Machine/LeafCmds.lean ====
section
/-! DEFINITION. The commands of leaf pools and sequence slots (R183 to R190, R213, R226, R232 to R234). -/

namespace Sys2Proof.Machine

/-! ### What uses a slot or a pool (R232) -/

/-- A running channel uses the slot. -/
def State.slotUsed (s : State) (q : Nat) : Bool := ((s.slot q).bind s.slotChan).isSome

/-- A running channel uses the pool: it uses a slot of it. -/
def State.poolUsed (s : State) (p : Nat) : Bool := s.leafs.slots.any fun q => q.2.pool == p && s.slotUsed q.1

/-- Slots of a pool. -/
def State.slotsOf (s : State) (p : Nat) : List Nat := (s.leafs.slots.filter fun q => q.2.pool == p).map (·.1)

/-- The slot does not exist, or a running channel uses it. -/
def State.slotClosed (s : State) (q : Nat) : Bool := (s.slot q).isNone || s.slotUsed q

/-! ### Pools (R183, R185) -/

/-- A pool descriptor. -/
def LeafPool.of (r : List Byte) : LeafPool :=
  ⟨fieldAt r 0 1 % 4, fieldAt r 1 1, fieldAt r 2 1, fieldAt r 4 4, fieldAt r 8 4, fieldAt r 16 8, fieldAt r 24 8, []⟩

/-- The descriptor's reserved fields are 0 and its codes are defined. -/
def poolOk (r : List Byte) : Bool :=
  decide (fieldAt r 0 1 < 4 ∧ fieldAt r 1 1 < 3) && (fieldAt r 2 1 == 5 || fieldAt r 2 1 == 0xB)
    && zeroAt r 3 1 && zeroAt r 12 4 && zeroAt r 32 32

/-- The pages of a pool's frames, ascending. -/
def LeafPool.keys (p : LeafPool) : List Nat :=
  p.spans.flatMap fun r => (List.range (r.2 / pageSize)).map fun i => pageKey p.part (r.1 + i * pageSize)

/-- Pages that hold a pool's frames: small, writable, pinned, in frames under row 1 of R317 (13). -/
def mapPool : List Nat → State → Option State
  | [], s => some s
  | k :: ks, s =>
    match s.takeFrame (keyPart k) 1 with
    | some f => mapPool ks (addPage k ⟨false, 1, true, true, false, false, false, 0, false, f, s.useStep, none, false⟩
        (markUnwritten f 1 s))
    | none => none

/-- The two ranges of a pool overlap each other. -/
def LeafPool.selfMeets (p : LeafPool) : Bool :=
  match p.spans with
  | [a, b] => decide (a.1 < b.1 + b.2 ∧ b.1 < a.1 + a.2)
  | _ => false

/-- LEAF_POOL_CREATE. -/
def cmdLeafPoolCreate (a : Nat → Nat) (s : State) : Reply :=
  checked [(decide (7 < a 0), St.range)]
    (withRecord (a 1) 64 64 s fun r s =>
      let p := LeafPool.of r
      let taken := p.spans.any fun x => !(s.pagesIn p.part x.1 x.2).isEmpty || s.rangeFixed p.part x.1 x.2
      checked
        [ (!poolOk r, St.badArg), (p.elemBase % bigSize != 0 || p.scaleBase % pageSize != 0, St.align),
          (decide (p.frames < 64 ∨ 2 ^ 30 < p.frames) || p.spans.any (fun x => decide (2 ^ 52 < x.1 + x.2)), St.range),
          (p.selfMeets, St.badArg),
          (s.memOff || (SMap.lookup s.leafs.pools (a 0)).isSome || taken, St.state),
          (!s.tableRoom p.keys false, St.noMemory), (s.generators, St.busy) ]
        (match mapPool p.keys s with
          | some s => .ok [] { s with leafs := { s.leafs with pools := SMap.put s.leafs.pools (a 0) p } }
          | none => .fail St.noMemory))

/-- LEAF_POOL_CREATE (R183, R185, R232). -/
def execLeafPoolCreate (mb : Fin 16) (s : State) : Host.Outcome State Fault Refusal := runCmd mb 0x0340 2 cmdLeafPoolCreate s

/-- LEAF_POOL_DESTROY: the pool's pages go with it. -/
def cmdLeafPoolDestroy (a : Nat → Nat) (s : State) : Reply :=
  match SMap.lookup s.leafs.pools (a 0) with
  | none => .fail (if 7 < a 0 then St.range else St.state)
  | some p =>
    checked [(!(s.slotsOf (a 0)).isEmpty, St.state), (s.generators, St.busy)]
      (let s := { s with leafs := { s.leafs with pools := SMap.del s.leafs.pools (a 0) } }
       .ok [] ((p.spans.flatMap fun x => s.pagesIn p.part x.1 x.2).foldl (fun s g => unmapPage g.1 g.2 s) s))

/-- LEAF_POOL_DESTROY (R232). -/
def execLeafPoolDestroy (mb : Fin 16) (s : State) : Host.Outcome State Fault Refusal := runCmd mb 0x0341 1 cmdLeafPoolDestroy s

/-! ### Slots (R186, R187, R233) -/

/-- A slot as its descriptor describes it, every track empty. -/
def Slot.of (r : List Byte) : Slot where
  pool := fieldAt r 0 1 % 8
  spillHost := (fieldAt r 1 1).testBit 0
  halfSplit := (fieldAt r 1 1).testBit 1
  layers := fieldAt r 2 2
  heads := fieldAt r 4 1
  rotDims := fieldAt r 6 2
  maxTokens := fieldAt r 8 4
  posBase := fieldAt r 16 8
  leafTable := fieldAt r 24 8
  ropeTable := fieldAt r 32 8
  leaves := []
  lens := []
  clens := []
  ring := none
  ringPend := none
  bufs := []
  ob := []
  sent := 0
  got := 0
  users := []
  credits := [0, 1]
  lastErr := 0
  stalls := []
  exhausted := none
  tainted := false
  lostLeaves := 0

/-- Reserved fields are 0, and ROPE_TABLE is 0 when ROT_DIMS is. -/
def slotOk (r : List Byte) : Bool :=
  let x := Slot.of r
  decide (fieldAt r 0 1 < 8 ∧ fieldAt r 1 1 < 4 ∧ x.posBase < 2 ^ 48) && zeroAt r 5 1 && zeroAt r 12 4 && zeroAt r 40 88
    && (x.rotDims != 0 || x.ropeTable == 0) && x.rotDims % 2 == 0

/-- Write zeros over a virtual range: every entry of a leaf table is FREE (R187). -/
def zeroVa (part va len : Nat) (s : State) : State :=
  (pagePieces va len).foldl (fun s p => vaWriteMarks part p.1 (List.replicate p.2 0) [] s) s

/-- SLOT_CREATE. -/
def cmdSlotCreate (a : Nat → Nat) (s : State) : Reply :=
  checked [(decide (15 < a 0), St.range)]
    (withRecord (a 1) 128 64 s fun r s =>
      let x := Slot.of r
      let p := SMap.lookup s.leafs.pools x.pool
      let part := (p.map (·.part)).getD 0
      let table := x.layers * x.heads * x.maxTokens
      checked
        [ (!slotOk r, St.badArg), (x.leafTable % 4096 != 0 || x.ropeTable % 64 != 0, St.align),
          (decide (x.layers = 0 ∨ 512 < x.layers ∨ x.heads = 0 ∨ 64 < x.heads ∨ x.maxTokens % 16 ≠ 0 ∨ x.maxTokens = 0
            ∨ 2 ^ 22 < x.maxTokens), St.range),
          (s.memOff || (s.slot (a 0)).isSome || p.isNone || s.poolUsed x.pool, St.state),
          (decide ((p.map (·.hd)).getD 0 < x.rotDims) || !(Ptr.va part x.leafTable).names table true s
            || (x.rotDims != 0 && !(Ptr.va part x.ropeTable).names (4 * x.rotDims) false s), St.range),
          (s.generators, St.busy) ]
        (match vaReady none part x.leafTable table true s with
          | (some _, s) => .wait s
          | (none, s) =>
            let s := { s with leafs := { s.leafs with slots := SMap.put s.leafs.slots (a 0) x } }
            .ok [] (zeroVa part x.leafTable table s)))

/-- SLOT_CREATE (R186, R187). -/
def execSlotCreate (mb : Fin 16) (s : State) : Host.Outcome State Fault Refusal := runCmd mb 0x0342 2 cmdSlotCreate s

/-- Free every leaf and far copy of a slot; its tracks are empty (R233). -/
def clearSlot (q : Nat) (s : State) : State :=
  match s.slot q with
  | none => s
  | some x =>
    (x.leaves.foldl (fun s l => freeLeaf q l.1 s) s).modSlot q fun x => { x with
      leaves := [], lens := [], clens := [], stalls := [], bufs := [], ob := [], credits := [0, 1], sent := 0, got := 0 }

/-- SLOT_RESET. -/
def cmdSlotReset (a : Nat → Nat) (s : State) : Reply :=
  checked [(decide (15 < a 0), St.range), (s.slotClosed (a 0), St.state)] (.ok [] (clearSlot (a 0) s))

/-- SLOT_RESET (R233). -/
def execSlotReset (mb : Fin 16) (s : State) : Host.Outcome State Fault Refusal := runCmd mb 0x0343 1 cmdSlotReset s

/-- SLOT_DESTROY. -/
def cmdSlotDestroy (a : Nat → Nat) (s : State) : Reply :=
  checked [(decide (15 < a 0), St.range), (s.slotClosed (a 0), St.state)]
    (let s := clearSlot (a 0) s
     .ok [] { s with leafs := { s.leafs with slots := SMap.del s.leafs.slots (a 0) } })

/-- SLOT_DESTROY (R233). -/
def execSlotDestroy (mb : Fin 16) (s : State) : Host.Outcome State Fault Refusal := runCmd mb 0x0344 1 cmdSlotDestroy s

/-! ### Rings (R213) -/

/-- A ring record. -/
def Ring.of (r : List Byte) : Ring :=
  ⟨fieldAt r 0 2, fieldAt r 2 2, fieldAt r 4 2, fieldAt r 6 2, fieldAt r 8 2, fieldAt r 10 1, fieldAt r 11 1, fieldAt r 12 4,
    fieldAt r 16 8, fieldAt r 24 8, fieldAt r 32 8⟩

/-- SLOT_SET_RING. -/
def cmdSlotSetRing (a : Nat → Nat) (s : State) : Reply :=
  checked [(decide (15 < a 0), St.range)]
    (withRecord (a 1) 64 64 s fun r s =>
      let g := Ring.of r
      let part := (((s.slot (a 0)).bind s.poolOf).map (·.part)).getD 0
      let bufs := [g.lb0, g.lb1, g.ob]
      checked
        [ (g.lbSize % pageSize != 0 || bufs.any (· % pageSize != 0), St.align),
          (!zeroAt r 40 24 || decide (31 < g.arriveEc ∨ g.nr ≤ g.pos), St.badArg),
          (decide (g.nr = 0 ∨ 1024 < g.nr ∨ 1023 < g.next ∨ 1023 < g.prev), St.range),
          (s.slotClosed (a 0) || ((s.slot (a 0)).bind (·.ringPend)).isSome, St.state),
          (g.lbSize != 0 && bufs.any (fun b => !(Ptr.va part b).names g.lbSize true s), St.range) ]
        (.ok [s.nextApply] (s.modSlot (a 0) fun x =>
          if s.spine.running then { x with ringPend := some (g, s.nextApply) } else x.putRing g)))

/-- SLOT_SET_RING (R213). -/
def execSlotSetRing (mb : Fin 16) (s : State) : Host.Outcome State Fault Refusal := runCmd mb 0x0345 2 cmdSlotSetRing s

/-! ### Reports, pins and bounds (R189, R226, R227, R232) -/

/-- The report of SLOT_STATUS: per track its length, its committed length, its resident leaves and its far leaves, of
32 bits each (116). -/
def Slot.report (x : Slot) : List Byte :=
  (List.range (x.layers * x.heads)).flatMap fun t =>
    let mine := x.leaves.filter fun l => l.1 / x.perTrack == t
    natLe 4 (SMap.getD x.lens t 0) ++ natLe 4 (SMap.getD x.clens t 0)
      ++ natLe 4 (mine.filter fun l => l.2.tier == 1).length ++ natLe 4 (mine.filter fun l => decide (2 ≤ l.2.tier)).length

/-- SLOT_STATUS: existence, pool and last error; the layer, head and length of the last exhaustion (R227). -/
def cmdSlotStatus (a : Nat → Nat) (s : State) : Reply :=
  checked [(decide (15 < a 0), St.range)]
    (match s.slot (a 0) with
      | none => report (a 1) [] [0, 0, 0, 0, 0, 0] s
      | some x =>
        let e := x.exhausted.getD (0, 0, 0)
        report (a 1) x.report [1, x.pool, x.lastErr, e.1, e.2.1, e.2.2] s)

/-- SLOT_STATUS (R227, R232). -/
def execSlotStatus (mb : Fin 16) (s : State) : Host.Outcome State Fault Refusal := runCmd mb 0x0346 2 cmdSlotStatus s

/-- A layer, head and run of leaves of a slot are not within its tables. -/
def State.leavesOut (s : State) (q layer head first n : Nat) : Bool :=
  match s.slot q with
  | none => true
  | some x => decide (x.layers ≤ layer ∨ x.heads ≤ head ∨ x.perTrack < first + n)

/-- LEAF_PIN: leaves that are not FREE take PIN; an eviction of one in progress is cancelled (R224). -/
def cmdLeafPin (a : Nat → Nat) (s : State) : Reply :=
  let pin := a 5 == 1
  checked
    [ (decide (15 < a 0) || s.leavesOut (a 0) (a 1) (a 2) (a 3) (a 4), St.range), (decide (1 < a 5), St.badArg),
      (s.slotUsed (a 0), St.state) ]
    (match s.slot (a 0) with
      | none => .fail St.range
      | some x =>
        let all := (List.range (a 4)).map fun i => x.leafIdx (a 1) (a 2) (a 3 + i)
        let is := all.filter fun i => (x.leaf i).state != 0 && (x.leaf i).pin != pin
        let s := all.foldl (fun s i => cancelEvictLeaf (a 0) i s) s
        .ok [is.length] (is.foldl (fun s i => s.modLeaf (a 0) i fun l => { l with pin := pin }) s))

/-- LEAF_PIN (R189, R232). -/
def execLeafPin (mb : Fin 16) (s : State) : Host.Outcome State Fault Refusal := runCmd mb 0x0347 6 cmdLeafPin s

/-- SET_LEAF_STALL_BOUND's reply. -/
def cmdSetLeafStallBound : (Nat → Nat) → State → Reply :=
  fun a s => checked [(decide (a 0 < 100 ∨ 1000000 < a 0), St.range)]
    (.ok [] { s with leafs := { s.leafs with bound := a 0 } })

/-- SET_LEAF_STALL_BOUND (R226). -/
def execSetLeafStallBound (mb : Fin 16) (s : State) :
    Host.Outcome State Fault Refusal :=
  runCmd mb 0x0348 1 cmdSetLeafStallBound s

/-- READ_LEAF_COUNTERS's reply. -/
def cmdReadLeafCounters : (Nat → Nat) → State → Reply :=
  reportCtrs fun s => Ctrs.bytes s.leafs.ctrs 13

/-- READ_LEAF_COUNTERS (R234). -/
def execReadLeafCounters (mb : Fin 16) (s : State) :
    Host.Outcome State Fault Refusal :=
  runCmd mb 0x0349 1 cmdReadLeafCounters s

/-- CLEAR_LEAF_COUNTERS's reply. -/
def cmdClearLeafCounters : (Nat → Nat) → State → Reply :=
  clearCtrs 13 fun m s => s.leafCtr fun c => Ctrs.clear c m

/-- CLEAR_LEAF_COUNTERS (R234). -/
def execClearLeafCounters (mb : Fin 16) (s : State) :
    Host.Outcome State Fault Refusal :=
  runCmd mb 0x034A 1 cmdClearLeafCounters s


/-- READ_LEAF_ENTRY. -/
def cmdReadLeafEntry (a : Nat → Nat) (s : State) : Reply :=
  checked [(decide (15 < a 0) || s.leavesOut (a 0) (a 1) (a 2) (a 3) 1, St.range)]
    (.ok (match s.slot (a 0) with
      | some x => (x.leaf (x.leafIdx (a 1) (a 2) (a 3))).words
      | none => [0, 0]) s)

/-- READ_LEAF_ENTRY (R189, R232). -/
def execReadLeafEntry (mb : Fin 16) (s : State) : Host.Outcome State Fault Refusal := runCmd mb 0x034B 4 cmdReadLeafEntry s

end Sys2Proof.Machine
end

