-- ==== Sys2Proof/Machine/LinkCmds.lean ====
section
/-! DEFINITION. The commands of the Tawa Links (R397 to R400, R407 to R409). -/

namespace Sys2Proof.Machine

/-- Change the links' state. -/
def State.modLinks (s : State) (f : Links → Links) : State := { s with links := f s.links }

/-! ### Reports (R407 to R409) -/

/-- LINK_STATUS (R408): the record's layout is the model's (106). -/
def execLinkStatus (mb : Fin 16) (s : State) : Host.Outcome State Fault Refusal :=
  runCmd mb 0x0401 1 (fun a s => report (a 0) ((List.range 32).flatMap s.linkRecord) [] s) s

/-- READ_LINK_COUNTERS (R409). -/
def execReadLinkCounters (mb : Fin 16) (s : State) : Host.Outcome State Fault Refusal :=
  runCmd mb 0x0409 1 (fun a s => report (a 0) ((List.range 32).flatMap fun l => Ctrs.bytes (s.link l).ctrs 11) [] s) s

/-- CLEAR_LINK_COUNTERS: a link whose REFUSE_CNT is cleared may raise the link-event cause again (R407). -/
def cmdClearLinkCounters (a : Nat → Nat) (s : State) : Reply :=
  checked [(decide (2 ^ 32 ≤ a 0 ∨ 2 ^ 11 ≤ a 1), St.badArg)]
    (.ok [] ((bitsOf 32 (a 0)).foldl (fun s l => s.modLink l fun x => { x with
      ctrs := Ctrs.clear x.ctrs (a 1), refused := x.refused && !(a 1).testBit 8 }) s))

/-- CLEAR_LINK_COUNTERS (R409). -/
def execClearLinkCounters (mb : Fin 16) (s : State) : Host.Outcome State Fault Refusal := runCmd mb 0x040A 2 cmdClearLinkCounters s

/-- READ_LINK_EVENTS (R407). -/
def execReadLinkEvents (mb : Fin 16) (s : State) : Host.Outcome State Fault Refusal :=
  runCmd mb 0x040B 1 (fun a s => report (a 0) (padTo 2048 (s.links.events.flatMap LinkEvent.bytes)) [] s) s

/-! ### The position table (R397, R398) -/

/-- An entry of the image. -/
def PosEntry.of (r : List Byte) (n : Nat) : PosEntry :=
  let o := 64 + 16 * n
  ⟨fieldAt r o 2, fieldAt r (o + 2) 1, (fieldAt r (o + 3) 1).testBit 0, (fieldAt r (o + 3) 1).testBit 1,
    fieldAt r (o + 4) 2, fieldAt r (o + 6) 1⟩

/-- A position table from its image. -/
def PosTable.of (r : List Byte) : PosTable where
  image := r
  herdId := fieldAt r 0 2
  myPos := fieldAt r 2 2
  role := fieldAt r 4 1
  size := fieldAt r 6 2
  gen := fieldAt r 8 4
  stagPos := fieldAt r 12 2
  fawnFor := ((List.range 8).map fun i => fieldAt r (16 + 2 * i) 2).filter (· != 0xFFFF)
  entries := (List.range 32).map (PosEntry.of r)

/-- The image's reserved fields are 0 and its flags are defined. -/
def tableOk (r : List Byte) : Bool :=
  decide (fieldAt r 4 1 < 2) && zeroAt r 5 1 && zeroAt r 14 2 && zeroAt r 32 32
    && (List.range 32).all fun n => decide (fieldAt r (67 + 16 * n) 1 < 4) && zeroAt r (71 + 16 * n) 9

/-- Every field lies in its range. -/
def PosTable.inRange (t : PosTable) : Bool :=
  decide (t.herdId ≠ 0xFFFF ∧ t.myPos < 1024 ∧ 1 ≤ t.size ∧ t.size ≤ 1024 ∧ t.stagPos < 1024)
    && t.fawnFor.all (fun p => decide (p < 1024))
    && t.entries.all fun e =>
      decide ((e.peerPos < 1024 ∨ e.peerPos = 0xFFFF) ∧ (e.peerLink < 32 ∨ e.peerLink = 0xFF) ∧ e.maxClass < 4)
        && (!e.standby || decide (e.standsFor < 1024))

/-- POS_TABLE_LOAD: it takes effect at the next commit tick, and with no schedule at once (35). -/
def cmdPosTableLoad (a : Nat → Nat) (s : State) : Reply :=
  withRecord (a 0) 576 64 s fun r s =>
    let t := PosTable.of r
    checked
      [ (!tableOk r, St.badArg), (!t.inRange, St.range),
        (s.links.tablePend.isSome || ((s.links.table.map fun o => decide (t.gen ≤ o.gen)).getD false), St.state) ]
      (.ok [s.nextApply] (if s.spine.running then s.modLinks fun k => { k with tablePend := some t } else installTable t s))

/-- POS_TABLE_LOAD (R397, R398). -/
def execPosTableLoad (mb : Fin 16) (s : State) : Host.Outcome State Fault Refusal := runCmd mb 0x0402 1 cmdPosTableLoad s

/-- The image in force: position, role and generation as a rebind has left them (R402). -/
def PosTable.bytes (t : PosTable) : List Byte :=
  splice (splice (splice (padTo 576 t.image) 2 (natLe 2 t.myPos)) 4 (natLe 1 t.role)) 8 (natLe 4 t.gen)

/-- POS_TABLE_READ (R408): with no table every byte is 0 (117). -/
def execPosTableRead (mb : Fin 16) (s : State) : Host.Outcome State Fault Refusal :=
  runCmd mb 0x0403 1 (fun a s =>
    report (a 0) ((s.links.table.map PosTable.bytes).getD (List.replicate 576 0)) [] s) s

/-! ### Enabling, retraining and testing (R400, R408) -/

/-- The link belongs to a position whose set is not empty. -/
def State.inSet (s : State) (l : Nat) : Bool := !(s.linkSet (s.peerOf l)).isEmpty

/-- LINK_ENABLE. -/
def cmdLinkEnable (a : Nat → Nat) (s : State) : Reply :=
  let ls := bitsOf 32 (a 0)
  checked
    [ (decide (2 ^ 32 ≤ a 0 ∨ 1 < a 1), St.badArg), (s.spine.running && ls.any s.inSet, St.state) ]
    (let s := s.modLinks fun k => { k with off := ls.foldl (fun o l => NSet.setTo o l (a 1 == 0)) k.off }
     .ok [] (ls.foldl (fun s l =>
      let on := a 1 == 1 && (match s.posEntry l with | some e => e.enable | none => true)
      s.modLink l fun x => x.enabled on) s))

/-- LINK_ENABLE (R408). -/
def execLinkEnable (mb : Fin 16) (s : State) : Host.Outcome State Fault Refusal := runCmd mb 0x0404 2 cmdLinkEnable s

/-- LINK_RETRAIN: an Active link leaves its set; another starts its training again. -/
def cmdLinkRetrain (a : Nat → Nat) (s : State) : Reply :=
  let x := s.link (a 0)
  checked
    [ (decide (31 < a 0), St.range), (x.st == 5 || x.st == 7 || x.st == 0, St.linkDown), (s.spine.running, St.state) ]
    (.ok [] (if x.st = 3 then leaveActive (a 0) false s
      else if x.st = 4 ∨ x.st = 8 then startRetrain (a 0) s else beginTraining (a 0) 1 s))

/-- LINK_RETRAIN (R408). -/
def execLinkRetrain (mb : Fin 16) (s : State) : Host.Outcome State Fault Refusal := runCmd mb 0x0405 1 cmdLinkRetrain s

/-- LINK_TEST_START. -/
def cmdLinkTestStart (a : Nat → Nat) (s : State) : Reply :=
  let ls := bitsOf 32 (a 0)
  checked
    [ (decide (2 ^ 32 ≤ a 0 ∨ 1 < a 1), St.badArg), (decide (a 2 = 0 ∨ 60000 < a 2), St.range),
      (s.spine.running || ls.any (fun l => (s.link l).st == 2 || (s.link l).st == 3), St.state) ]
    (.ok [] (ls.foldl (fun s l => s.modLink l fun x => { x.fresh 9 with
      test := some (a 1), testBits := List.replicate 8 0, testErrs := List.replicate 8 0 }) s))

/-- LINK_TEST_START (R408). -/
def execLinkTestStart (mb : Fin 16) (s : State) : Host.Outcome State Fault Refusal := runCmd mb 0x0406 3 cmdLinkTestStart s

/-- LINK_TEST_RESULT. -/
def cmdLinkTestResult (a : Nat → Nat) (s : State) : Reply :=
  let x := s.link (a 0)
  checked [(decide (31 < a 0), St.range)]
    (report (a 1) ((List.range 8).flatMap fun l => natLe 8 (x.testBits.getD l 0) ++ natLe 8 (x.testErrs.getD l 0)) [] s)

/-- LINK_TEST_RESULT (R408). -/
def execLinkTestResult (mb : Fin 16) (s : State) : Host.Outcome State Fault Refusal := runCmd mb 0x0407 2 cmdLinkTestResult s

/-- SET_PEER_LOST_BOUND (R400). -/
def execSetPeerLostBound (mb : Fin 16) (s : State) : Host.Outcome State Fault Refusal :=
  runCmd mb 0x0408 1 (fun a s => checked [(decide (a 0 < 10 ∨ 1000 < a 0), St.range)]
    (.ok [] (s.modLinks fun k => { k with bound := a 0 }))) s

end Sys2Proof.Machine
end

