-- ==== Sys2Proof/Machine/MemCmds.lean ====
section
/-! DEFINITION. The commands of the memory system (R264, R279, R288, R294 to R303). -/

namespace Sys2Proof.Machine

/-! ### Configuration and mapping (R265, R268, R302) -/

/-- Device bandwidth in GB/s at a rate code (R265). -/
def rateGBs (code : Nat) : Nat := [32768, 36864, 40960, 45056, 49152].getD code 0

/-- MEM_GET_CONFIG. -/
def cmdMemGetConfig (_a : Nat → Nat) (s : State) : Reply :=
  let declared := (List.range 20).foldl (fun v i =>
    v + (if s.mem.failed.getLsbD i then 7 else s.mem.declared.getD i 7) * 8 ^ i) 0
  .ok [s.mem.rate, declared, rateGBs s.mem.rate, reserveBase, hbmEnd - reserveBase, s.mem.failed.toNat] s

/-- MEM_GET_CONFIG (R302). -/
def execMemGetConfig (mb : Fin 16) (s : State) : Host.Outcome State Fault Refusal := runCmd mb 0x0201 0 cmdMemGetConfig s

/-- MEM_MAP_ADDRESS. -/
def cmdMemMapAddress (a : Nat → Nat) (s : State) : Reply :=
  let l := hbmMap (a 0)
  checked [(decide (hbmEnd ≤ a 0), St.range)]
    (.ok [l.stack, l.stack / 5, l.channel, l.pc, l.bank, l.row, l.col, bankId (a 0)] s)

/-- MEM_MAP_ADDRESS (R268, R269, R302). -/
def execMemMapAddress (mb : Fin 16) (s : State) : Host.Outcome State Fault Refusal := runCmd mb 0x0203 1 cmdMemMapAddress s

/-! ### Clearing and flushing (R279, R302) -/

/-- A physical range overlaps the bounds of a running channel or a fixed-point region (R279). -/
def State.paHeld (s : State) (pa len : Nat) : Bool :=
  let meets (r : Nat × Nat) : Bool := decide (r.1 < pa + len ∧ pa < r.1 + r.2)
  (s.chans.table.any fun c => c.2.running && c.2.bounds.any fun b => (s.paRanges c.2.part b.1 (b.2 - b.1)).any meets)
    || s.mem.fx.any fun r => r.2.frames.any fun f => meets (f * pageSize, pageSize)

/-- MEM_CLEAR_RANGE. -/
def cmdMemClearRange (a : Nat → Nat) (s : State) : Reply :=
  checked
    [ (a 0 % pageSize != 0 || a 1 % pageSize != 0, St.align), (decide (reserveBase < a 0 + a 1), St.range),
      (s.memOff || s.paHeld (a 0) (a 1), St.state), (s.generators, St.busy) ]
    (.ok [] (markUnwritten (a 0 / pageSize) (a 1 / pageSize) s))

/-- MEM_CLEAR_RANGE (R279). -/
def execMemClearRange (mb : Fin 16) (s : State) : Host.Outcome State Fault Refusal := runCmd mb 0x0202 2 cmdMemClearRange s

/-- SHC_FLUSH. -/
def cmdShcFlush (a : Nat → Nat) (s : State) : Reply :=
  checked
    [ (decide (16 ≤ a 0), St.badArg), (s.chans.table.any fun c => c.2.running && (a 0).testBit c.2.part, St.state),
      (s.generators, St.busy) ]
    (.ok [] ((s.mem.shc.filter fun l => decide (l.2.part < 4) && (a 0).testBit l.2.part).foldl
      (fun s l => shcEvict l.1 s) s))

/-- SHC_FLUSH (R302). -/
def execShcFlush (mb : Fin 16) (s : State) : Host.Outcome State Fault Refusal := runCmd mb 0x0206 1 cmdShcFlush s

/-! ### Counters (R303) -/

/-- MEM_READ_COUNTERS's reply. -/
def cmdMemReadCounters : (Nat → Nat) → State → Reply :=
  reportCtrs fun s => Ctrs.bytes s.mem.ctrs 16

/-- MEM_READ_COUNTERS (R303). -/
def execMemReadCounters (mb : Fin 16) (s : State) :
    Host.Outcome State Fault Refusal :=
  runCmd mb 0x0204 1 cmdMemReadCounters s

/-- Clear the counters of a mask: bit 14 has two of them, bit 15 the regulators'. -/
def clearMemCtrs (m : Nat) (s : State) : State :=
  let own := m % 2 ^ 15 + if m.testBit 14 then 2 ^ 15 else 0
  { s with mem := { s.mem with
    ctrs := Ctrs.clear s.mem.ctrs own
    prg := if m.testBit 15 then [] else s.mem.prg } }

/-- MEM_CLEAR_COUNTERS's reply. -/
def cmdMemClearCounters : (Nat → Nat) → State → Reply :=
  clearCtrs 16 clearMemCtrs

/-- MEM_CLEAR_COUNTERS (R303). -/
def execMemClearCounters (mb : Fin 16) (s : State) :
    Host.Outcome State Fault Refusal :=
  runCmd mb 0x0205 1 cmdMemClearCounters s

/-! ### Regulators and hot banks (R272, R294, R295, R298) -/

/-- A regulator record. -/
def RegRec.of (r : List Byte) : RegRec := ⟨fieldAt r 0 2, fieldAt r 2 2, fieldAt r 4 2, (fieldAt r 6 1).testBit 0⟩

/-- The sum of FLOOR with a partition's record replaced. -/
def State.floorSum (s : State) (part floor : Nat) : Nat :=
  ((List.range 4).map fun p => if p = part then floor else (SMap.getD s.mem.regs p RegRec.reset).floor).foldl (· + ·) 0

/-- PRG_SET. -/
def cmdPrgSet (a : Nat → Nat) (s : State) : Reply :=
  checked [(decide (3 < a 0), St.range)]
    (withRecord (a 1) 16 64 s fun r s =>
      let q := RegRec.of r
      checked
        [ (decide (2 ≤ fieldAt r 6 1) || !zeroAt r 7 9 || (q.ceil != 0 && decide (q.ceil < q.floor)), St.badArg),
          (decide (q.burst < 4 ∨ 1024 < q.burst) || decide (9 * rateGBs s.mem.rate < 100 * s.floorSum (a 0) q.floor), St.range) ]
        (.ok [] { s with mem := { s.mem with regs := SMap.setD s.mem.regs RegRec.reset (a 0) q } }))

/-- PRG_SET (R294, R295). -/
def execPrgSet (mb : Fin 16) (s : State) : Host.Outcome State Fault Refusal := runCmd mb 0x0210 2 cmdPrgSet s

/-- The regulator report of a partition (R298, 114). -/
def State.prgBytes (s : State) (part : Nat) : List Byte :=
  let h := SMap.getD s.mem.lastHot part (0, 0)
  padTo 64 ((List.range 3).flatMap (fun i => natLe 8 (Ctrs.get s.mem.prg (3 * part + i))) ++ natLe 8 h.1 ++ natLe 8 h.2)

/-- PRG_REPORT's reply. -/
def cmdPrgReport : (Nat → Nat) → State → Reply :=
  fun a s => report (a 0) ((List.range 4).flatMap s.prgBytes) [] s

/-- PRG_REPORT (R298). -/
def execPrgReport (mb : Fin 16) (s : State) :
    Host.Outcome State Fault Refusal :=
  runCmd mb 0x0211 1 cmdPrgReport s

/-- The 32 bytes of a hot-bank record (114). -/
def HotRec.bytes (h : HotRec) : List Byte := natLe 8 h.bank ++ natLe 8 h.start ++ natLe 8 h.peak ++ natLe 8 h.part

/-- The hot-bank log of a controller, newest first. -/
def State.hotBytes (s : State) (n : Nat) : List Byte := padTo 512 ((SMap.getD s.mem.hotLog n []).flatMap HotRec.bytes)

/-- HOT_BANK_LOG's reply. -/
def cmdHotBankLog : (Nat → Nat) → State → Reply :=
  fun a s => report (a 0) ((List.range 20).flatMap s.hotBytes) [] s

/-- HOT_BANK_LOG (R272). -/
def execHotBankLog (mb : Fin 16) (s : State) :
    Host.Outcome State Fault Refusal :=
  runCmd mb 0x0212 1 cmdHotBankLog s

/-! ### Fixed-point regions (R288, R302) -/

/-- The frame of a 64 KiB block that is pinned where it lies: a page of tier 1 whose copy is whole. -/
def State.pinnable (s : State) (part va : Nat) : Option Nat :=
  match s.pageAt part va with
  | some (k, p) => if p.tier = 1 && !p.motion && !p.lost then some (p.pa k va / pageSize) else none
  | none => none

/-- FX_REGION_DEFINE: bits [53:52] of the base name its partition (12). -/
def cmdFxRegionDefine (a : Nat → Nat) (s : State) : Reply :=
  let part := bits (a 1) 52 2
  let base := a 1 % 2 ^ 52
  let len := a 2 * pageSize
  let frames := if a 2 ≤ 65536 then (List.range (a 2)).map fun i => s.pinnable part (base + i * pageSize) else []
  let total := (s.mem.fx.map fun r => r.2.frames.length).foldl (· + ·) 0
  checked
    [ (base % pageSize != 0, St.align),
      (decide (15 < a 0 ∨ 2 ^ 54 ≤ a 1 ∨ a 2 = 0 ∨ 2 ^ 52 < base + len), St.range),
      (s.memOff || (SMap.lookup s.mem.fx (a 0)).isSome || s.boundsHit part base len
        || (s.mem.fx.any fun r => r.2.part == part
          && decide (r.2.base < base + len ∧ base < r.2.base + r.2.frames.length * pageSize)), St.state),
      (decide (65536 < total + a 2) || frames.any (·.isNone), St.noMemory),
      (s.generators, St.busy) ]
    (let fs := frames.filterMap id
     let s := fs.foldl (fun s f => markUnwritten f 1 s) s
     .ok [] { s with mem := { s.mem with fx := SMap.put s.mem.fx (a 0) ⟨part, base, fs, []⟩ } })

/-- FX_REGION_DEFINE (R288). -/
def execFxRegionDefine (mb : Fin 16) (s : State) : Host.Outcome State Fault Refusal := runCmd mb 0x0220 3 cmdFxRegionDefine s

/-- FX_REGION_RELEASE. -/
def cmdFxRegionRelease (a : Nat → Nat) (s : State) : Reply :=
  let used := match SMap.lookup s.mem.fx (a 0) with
    | some r => s.boundsHit r.part r.base (r.frames.length * pageSize)
    | none => true
  checked [(decide (15 < a 0), St.range), (used, St.state)]
    (.ok [] { s with mem := { s.mem with fx := SMap.del s.mem.fx (a 0) } })

/-- FX_REGION_RELEASE (R302). -/
def execFxRegionRelease (mb : Fin 16) (s : State) : Host.Outcome State Fault Refusal := runCmd mb 0x0221 1 cmdFxRegionRelease s

/-! ### Traffic generators (R299 to R301) -/

/-- The generators that a mask of 80 bytes names. -/
def maskGens (r : List Byte) : List Nat := bitsOf 640 (leNat r)

/-- A generator record has no reserved bit and no value outside its field's range, and names some sector (114). -/
def tgcRecOk (r : List Byte) : Bool :=
  decide (fieldAt r 0 1 < 4 ∧ fieldAt r 1 1 < 5 ∧ fieldAt r 2 1 < 3 ∧ 0 < fieldAt r 3 1 ∧ fieldAt r 3 1 < 4)
    && zeroAt r 12 4 && !zeroAt r 16 8 && decide (fieldAt r 24 8 < 2 ^ 31 ∧ fieldAt r 48 1 < 4) && zeroAt r 49 15

/-- TGC_CONFIG. -/
def cmdTgcConfig (a : Nat → Nat) (s : State) : Reply :=
  checked [(s.generators, St.state)]
    (withRecord (a 0) 80 64 s fun m s => withRecord (a 1) 64 64 s fun r s =>
      checked
        [ (!tgcRecOk r, St.badArg),
          (decide (12287 < Tg.rowLast r ∨ Tg.rowLast r < Tg.rowFirst r), St.range) ]
        (.ok [] { s with mem := { s.mem with tgc := (maskGens m).foldl (fun t n => SMap.put t n r) s.mem.tgc } }))

/-- TGC_CONFIG (R299). -/
def execTgcConfig (mb : Fin 16) (s : State) : Host.Outcome State Fault Refusal := runCmd mb 0x0230 2 cmdTgcConfig s

/-- TGC_START: the named generators run. -/
def cmdTgcStart (a : Nat → Nat) (s : State) : Reply :=
  checked
    [ (s.generators, St.busy),
      (s.memOff || !s.runningChans.isEmpty || !s.mem.fx.isEmpty || s.rse.window != 0, St.state) ]
    (withRecord (a 0) 80 64 s fun m s =>
      .ok [] { s with mem := { s.mem with
        tgcRes := (maskGens m).foldl (fun t n => SMap.put t n { TgcRes.reset with state := 1 }) s.mem.tgcRes } })

/-- TGC_START (R300). -/
def execTgcStart (mb : Fin 16) (s : State) : Host.Outcome State Fault Refusal := runCmd mb 0x0231 1 cmdTgcStart s

/-- A generator's result in 64 bytes. -/
def TgcRes.bytes (r : TgcRes) : List Byte :=
  natLe 8 r.done ++ natLe 8 r.bad ++ natLe 8 r.bits ++ natLe 4 r.row ++ natLe 1 r.bank ++ natLe 1 r.col ++ natLe 1 r.pc
    ++ natLe 1 r.state ++ padTo 32 r.diff

/-- TGC_STATUS. -/
def cmdTgcStatus (a : Nat → Nat) (s : State) : Reply :=
  withRecord (a 0) 80 64 s fun m s =>
    report (a 1) ((maskGens m).flatMap fun n => (SMap.getD s.mem.tgcRes n TgcRes.reset).bytes) [] s

/-- TGC_STATUS (R301). -/
def execTgcStatus (mb : Fin 16) (s : State) : Host.Outcome State Fault Refusal := runCmd mb 0x0232 2 cmdTgcStatus s

/-- A generator stops: how many of its sectors it has done by then is a free value (61). -/
def tgcHalt (n : Nat) (s : State) : State :=
  let d := s.draw
  tgRun n ((Config.freeWord d.1).toNat % (tgCount (s.mem.tgcRec n) + 1)) 0 d.2

/-- TGC_STOP. -/
def cmdTgcStop (a : Nat → Nat) (s : State) : Reply :=
  withRecord (a 0) 80 64 s fun m s =>
    let run := (maskGens m).filter fun n => s.tgcActive.contains n
    checked [(run.isEmpty, St.state)] (.ok [] (tgcSettle (run.foldl (fun s n => tgcHalt n s) s)))

/-- TGC_STOP (R300). -/
def execTgcStop (mb : Fin 16) (s : State) : Host.Outcome State Fault Refusal := runCmd mb 0x0233 1 cmdTgcStop s

end Sys2Proof.Machine
end

