-- ==== Sys2Proof/Machine/NumCmds.lean ====
section
/-! DEFINITION. The numerics commands (R80, R84, R86 to R88, R262, R663). -/

namespace Sys2Proof.Machine

/-- Change the numerics. -/
def State.modNum (s : State) (f : Numerics → Numerics) : State := { s with num := f s.num }

/-! ### Seed and governor configuration (R68, R86) -/

/-- GET_NUMERIC_CAPS. -/
def cmdGetNumericCaps (_a : Nat → Nat) (s : State) : Reply := .ok [0x1FFF, 32, 1, 64] s

/-- GET_NUMERIC_CAPS (R87). -/
def execGetNumericCaps (mb : Fin 16) (s : State) : Host.Outcome State Fault Refusal := runCmd mb 0x0A01 0 cmdGetNumericCaps s

/-- SET_SR_SEED: the seed takes effect in the next step; with no schedule at once (35). -/
def cmdSetSrSeed (a : Nat → Nat) (s : State) : Reply :=
  let v := BitVec.ofNat 64 (a 0)
  checked [(s.num.seedPend.isSome, St.state)]
    (.ok [s.nextApply] (s.modNum fun m =>
      if s.spine.running then { m with seedPend := some (v, s.nextApply) } else { m with seed := v }))

/-- SET_SR_SEED (R68). -/
def execSetSrSeed (mb : Fin 16) (s : State) : Host.Outcome State Fault Refusal := runCmd mb 0x0A02 1 cmdSetSrSeed s

/-- The format is one of the governor's five (R82). -/
def isGovFormat (f : Nat) : Bool := [1, 3, 4, 5, 8].contains f

/-- The configuration in 64 bytes. -/
def GovCfg.of (r : List Byte) : GovCfg :=
  let b (i : Nat) : Nat := fieldAt r i 1
  ⟨b 0, b 1, b 2, b 3, b 4, b 5, signedOf 8 (b 6), b 7, b 8, b 9, b 10 != 0⟩

/-- The 64 bytes of a configuration. -/
def GovCfg.bytes (c : GovCfg) : List Byte :=
  padTo 64 ([c.spanE4M3, c.spanE5M2, c.ufShift, c.lowCut, c.growthLimit, c.holdSteps, twos 8 c.margin, c.fxHeadroom,
    c.fxStepUp, c.initialFormat, if c.enable then 1 else 0].flatMap (natLe 1))

/-- Every field of a configuration lies in its range (R86). -/
def govInRange (r : List Byte) : Bool :=
  let b (i lo hi : Nat) : Bool := decide (lo ≤ fieldAt r i 1 ∧ fieldAt r i 1 ≤ hi)
  let m := signedOf 8 (fieldAt r 6 1)
  b 0 0 63 && b 1 0 63 && b 2 4 40 && b 3 4 40 && b 4 1 63 && decide (-8 ≤ m ∧ m ≤ 8) && b 7 0 16 && b 8 1 32
    && isGovFormat (fieldAt r 9 1) && b 10 0 1

/-- The reserved bytes of a configuration are 0, and INITIAL_FORMAT is no reserved code (R15, R50, R86). -/
def govReserved (r : List Byte) : Bool := !zeroAt r 11 53 || (decide (13 ≤ fieldAt r 9 1 ∧ fieldAt r 9 1 ≤ 15))

/-- SET_GOVERNOR_CONFIG. -/
def cmdSetGovernorConfig (a : Nat → Nat) (s : State) : Reply :=
  withRecord (a 0) 64 64 s fun r s =>
    checked [(govReserved r, St.badArg), (!govInRange r, St.range), (s.num.govPend.isSome, St.state)]
      (.ok [s.nextApply] (s.modNum fun m =>
        if s.spine.running then { m with govPend := some (GovCfg.of r, s.nextApply) } else { m with gov := GovCfg.of r }))

/-- SET_GOVERNOR_CONFIG (R86). -/
def execSetGovernorConfig (mb : Fin 16) (s : State) : Host.Outcome State Fault Refusal :=
  runCmd mb 0x0A03 1 cmdSetGovernorConfig s

/-- GET_GOVERNOR_CONFIG. -/
def cmdGetGovernorConfig (a : Nat → Nat) (s : State) : Reply := report (a 0) s.num.gov.bytes [] s

/-- GET_GOVERNOR_CONFIG (R87). -/
def execGetGovernorConfig (mb : Fin 16) (s : State) : Host.Outcome State Fault Refusal :=
  runCmd mb 0x0A04 1 cmdGetGovernorConfig s

/-! ### Pins and decisions (R84, R87) -/

/-- The step whose decisions are the first not yet written (R87, 94). -/
def State.nextDecided (s : State) : Nat :=
  if s.spine.running && s.num.govDone then s.spine.step + 2 else s.nextApply

/-- A pin is in force with no schedule at once (94): the committed decision takes it. -/
def pinNow (t f : Nat) (v : Int) (m : Numerics) : Numerics :=
  { m with tensors := SMap.upd m.tensors t fun x =>
      { x with dec := { x.dec with format := f, texp := pinnedTexp m.gov (f, v) (x.amax.map (·.2)), reason := 0 } } }

/-- A pin or release that applies from step k on, in place of what was to apply to the tensor from k on (R87). -/
def pinFrom (k t : Nat) (p : Option (Nat × Int)) (m : Numerics) : Numerics :=
  { m with pinPend := m.pinPend.filter (fun q => !(q.tensor == t && decide (k ≤ q.step))) ++ [⟨k, t, p⟩] }

/-- A pin or release with no schedule running is in force at once (94). -/
def pinAtOnce (t : Nat) (p : Option (Nat × Int)) (m : Numerics) : Numerics :=
  let m := { m with pinPend := m.pinPend.filter fun q => q.tensor != t }
  match p with
  | some v => pinNow t v.1 v.2 { m with pins := SMap.put m.pins t v }
  | none => { m with pins := SMap.del m.pins t }

/-- PIN_LAYER_FORMAT. -/
def cmdPinLayerFormat (a : Nat → Nat) (s : State) : Reply :=
  let v := signedOf 8 (a 2)
  let f := a 1
  checked
    [ (decide (256 ≤ a 2) || !(isGovFormat f || f == 15) || (v != 0 && f != 3 && f != 4), St.badArg),
      (decide (4095 < a 0), St.range) ]
    (let p := if f = 15 then none else some (f, v)
     .ok [s.nextDecided] (s.modNum fun m =>
       if s.spine.running then pinFrom s.nextDecided (a 0) p m else pinAtOnce (a 0) p m))

/-- PIN_LAYER_FORMAT (R84). -/
def execPinLayerFormat (mb : Fin 16) (s : State) : Host.Outcome State Fault Refusal := runCmd mb 0x0A05 3 cmdPinLayerFormat s

/-- GET_LAYER_DECISION: with no committed record every field is 0 (110). -/
def cmdGetLayerDecision (a : Nat → Nat) (s : State) : Reply :=
  checked [(decide (4095 < a 0), St.range)]
    (.ok (match SMap.lookup s.num.tensors (a 0) with
      | some r => [r.dec.format, twos 8 r.dec.texp, r.dec.reason, r.dec.hold, r.step]
      | none => [0, 0, 0, 0, 0]) s)

/-- GET_LAYER_DECISION (R87). -/
def execGetLayerDecision (mb : Fin 16) (s : State) : Host.Outcome State Fault Refusal :=
  runCmd mb 0x0A06 1 cmdGetLayerDecision s

/-- The 768 bytes of a committed record (R80). -/
def TensorRec.bytes (t : Nat) (r : TensorRec) : List Byte :=
  let c (n : Nat) : List Byte := natLe 8 (min n ctrMax)
  padTo 768 (natLe 2 t ++ natLe 6 0 ++ natLe 8 r.step ++ c r.stats.nonzero ++ c r.stats.zero ++ c r.stats.nonfinite
    ++ c r.stats.mx6uf ++ c r.stats.mx8uf ++ c r.stats.sat
    ++ (List.range 64).flatMap (fun i => c (SMap.getD r.stats.hist i 0))
    ++ (List.range 16).flatMap (fun i => natLe 4 (SMap.getD r.amax i 0).toNat)
    ++ natLe 1 r.dec.format ++ natLe 1 (twos 8 r.dec.texp) ++ natLe 1 r.dec.reason ++ natLe 1 r.dec.hold)

/-- A record from its 768 bytes. -/
def TensorRec.of (r : List Byte) : Nat × TensorRec :=
  let c (i : Nat) : Nat := fieldAt r (16 + 8 * i) 8
  let amax := (List.range 16).foldl (fun (m : SMap (BitVec 32)) i => SMap.setD m 0 i (BitVec.ofNat 32 (fieldAt r (576 + 4 * i) 4))) []
  (fieldAt r 0 2 % 4096,
    ⟨fieldAt r 8 8,
      ⟨c 0, c 1, c 2, c 3, c 4, c 5, (List.range 64).foldl (fun m i => SMap.setD m 0 i (fieldAt r (64 + 8 * i) 8)) [],
        SMap.getD amax (fieldAt r 8 8 % 16) 0⟩,
      amax, ⟨fieldAt r 640 1, signedOf 8 (fieldAt r 641 1), fieldAt r 642 1, fieldAt r 643 1⟩⟩)

/-- READ_TENSOR_STATS: with no committed record every byte is 0 (110). -/
def cmdReadTensorStats (a : Nat → Nat) (s : State) : Reply :=
  checked [(decide (4095 < a 0), St.range)]
    (report (a 1) (match SMap.lookup s.num.tensors (a 0) with
      | some r => r.bytes (a 0)
      | none => List.replicate 768 0) [] s)

/-- READ_TENSOR_STATS (R80). -/
def execReadTensorStats (mb : Fin 16) (s : State) : Host.Outcome State Fault Refusal := runCmd mb 0x0A07 2 cmdReadTensorStats s

/-! ### Scales of fixed-point blocks (R663) -/

/-- The region and block at a VA. -/
def State.fxAt (s : State) (part va : Nat) : Option (Nat × Nat) :=
  s.mem.fx.findSome? fun r =>
    if r.2.part = part ∧ r.2.base ≤ va ∧ va < r.2.base + r.2.frames.length * pageSize then
      some (r.1, (va - r.2.base) / pageSize)
    else none

/-- A block takes D and E: pending for a step, or at once. -/
def FxBlock.scale (b : FxBlock) (e : Int) (k : Option Nat) : FxBlock :=
  match k with
  | some k => { b with pend := SMap.put (b.pend.filter fun p => decide (p.1 < k)) k e }
  | none => { b with e := e, d := e, pend := [] }

/-- SET_FX_SCALE. -/
def cmdSetFxScale (a : Nat → Nat) (s : State) : Reply :=
  let part := bits (a 0) 52 2
  let base := a 0 % 2 ^ 52
  let e := signedOf 8 (a 2)
  let at_ (i : Nat) : Option (Nat × Nat) := s.fxAt part (base + i * pageSize)
  checked
    [ (decide (2 ^ 54 ≤ a 0), St.badArg),
      (base % pageSize != 0, St.align),
      (a 1 == 0 || decide (256 ≤ a 2 ∨ e < -126), St.range),
      (decide (65536 < a 1) || (List.range (a 1)).any (fun i => (at_ i).isNone), St.state) ]
    (let k := if s.spine.running then some s.nextDecided else none
     .ok [s.nextDecided] { s with mem := ((List.range (a 1)).filterMap at_).foldl (fun m p =>
        m.modFx p.1 p.2 fun b => b.scale e k) s.mem })

/-- SET_FX_SCALE (R663). -/
def execSetFxScale (mb : Fin 16) (s : State) : Host.Outcome State Fault Refusal := runCmd mb 0x0A08 3 cmdSetFxScale s

/-! ### Counters (R88, R261, R262) -/

/-- CLEAR_NUMERIC_COUNTERS's reply. -/
def cmdClearNumericCounters : (Nat → Nat) → State → Reply :=
  clearCtrs 5 fun m s => s.numCtr fun c => Ctrs.clear c m

/-- CLEAR_NUMERIC_COUNTERS (R88). -/
def execClearNumericCounters (mb : Fin 16) (s : State) :
    Host.Outcome State Fault Refusal :=
  runCmd mb 0x0A09 1 cmdClearNumericCounters s

/-- READ_WGB_COUNTERS's reply. -/
def cmdReadWgbCounters : (Nat → Nat) → State → Reply :=
  reportCtrs fun s => Ctrs.bytes s.num.wgbCtrs 5

/-- READ_WGB_COUNTERS (R262). -/
def execReadWgbCounters (mb : Fin 16) (s : State) :
    Host.Outcome State Fault Refusal :=
  runCmd mb 0x0A0A 1 cmdReadWgbCounters s

/-- CLEAR_WGB_COUNTERS's reply. -/
def cmdClearWgbCounters : (Nat → Nat) → State → Reply :=
  clearCtrs 5 fun m s => s.wgbCtr fun c => Ctrs.clear c m

/-- CLEAR_WGB_COUNTERS (R262). -/
def execClearWgbCounters (mb : Fin 16) (s : State) :
    Host.Outcome State Fault Refusal :=
  runCmd mb 0x0A0B 1 cmdClearWgbCounters s

end Sys2Proof.Machine
end

