-- ==== Sys2Proof/Machine/RseCmds.lean ====
section
/-! DEFINITION. The commands of the resilience engine (R496 to R534). -/

namespace Sys2Proof.Machine

/-- Change the resilience engine. -/
def State.modRse (s : State) (f : Rse → Rse) : State := { s with rse := f s.rse }

/-! ### The error log (R496, R498, R534) -/

/-- ERR_LOG_READ: records from a SEQ on; with none held the newest SEQ reads 0 (127). -/
def cmdErrLogRead (a : Nat → Nat) (s : State) : Reply :=
  let rs := ((s.rse.log.filter fun r => decide (a 0 ≤ r.seq)).take (a 1))
  checked [(decide (a 1 = 0 ∨ 4096 < a 1), St.range)]
    (report (a 2) (rs.flatMap LogRec.bytes) [rs.length, ((s.rse.log.getLast?).map (·.seq)).getD 0] s)

/-- ERR_LOG_READ (R534). -/
def execErrLogRead (mb : Fin 16) (s : State) : Host.Outcome State Fault Refusal := runCmd mb 0x0701 3 cmdErrLogRead s

/-- ERR_LOG_CLEAR's reply. -/
def cmdErrLogClear : (Nat → Nat) → State → Reply :=
  fun _ s => .ok [] (s.modRse fun x => { x with log := [] })

/-- ERR_LOG_CLEAR (R534): SEQ goes on. -/
def execErrLogClear (mb : Fin 16) (s : State) :
    Host.Outcome State Fault Refusal :=
  runCmd mb 0x0702 0 cmdErrLogClear s

/-! ### Scrub (R522 to R524) -/

/-- A scrub's record of a sector. -/
def scrubRecord (cause status k : Nat) (old inj : Bool) : LogRec :=
  let r := ((LogRec.make 0xB cause status (stackOf (32 * k))).atPa (32 * k)).injected inj
  { r with flags := r.flags + 16 + if old then 32 else 0 }

/-- A scrub finds sector k uncorrectable: its marker is set, and it is logged; inside retained state, while a schedule runs,
it is reported for repair (R522, R523). -/
def scrubFinding (k status : Nat) (old inj : Bool) (x : Scrub) (s : State) : Scrub × State :=
  let s := s.memCtr fun c => Ctrs.sat c 7 1
  let s := { s with mem := { s.mem with poison := NSet.insert s.mem.poison k } }
  let s := if s.spine.running && s.retained (32 * k) then badData (scrubRecord 0x03 status k old inj) [32 * k] s
    else logError (scrubRecord 0x40 status k old inj) s
  ({ x with uncorrectable := x.uncorrectable + 1, first := if x.first = 2 ^ 64 - 1 then 32 * k else x.first }, s)

/-- A scrub reads sector k; MODE 1 writes a corrected sector back. -/
def scrubSector (k : Nat) (x : Scrub) (s : State) : Scrub × State :=
  let x := { x with sectors := x.sectors + 1 }
  let s := s.rseCtr fun c => Ctrs.wrap c 9 1
  if s.mem.poison.contains k || s.mem.shareBad (32 * k) then scrubFinding k St.poison true false x s
  else
    let d := sectorDamage k s
    match bytesHit d.1 d.2.1 with
    | 0 => (x, d.2.2.2)
    | 1 =>
      let s := logError (scrubRecord 0 St.ok k false d.2.2.1) ((d.2.2.2).memCtr fun c => Ctrs.sat c 5 1)
      ({ x with corrected := x.corrected + 1 },
        if x.mode = 1 then sectorStored k false (s.memCtr fun c => Ctrs.wrap c 1 1) else s)
    | _ => scrubFinding k St.uncorrectable false d.2.2.1 x d.2.2.2

/-- A scrub takes a controller's share of a granule, given as lines. -/
def scrubShare (lines : List Nat) (x : Scrub) (s : State) : Scrub × State :=
  match lines with
  | [] => (x, s)
  | l :: _ =>
    let s := bitmapLookup (256 * l) s
    if !s.mem.shareWritten (256 * l) && !s.mem.shareBad (256 * l) then ({ x with skipped := x.skipped + 1 }, s)
    else lines.foldl (fun (a : Scrub × State) l =>
      (List.range 8).foldl (fun (a : Scrub × State) j => scrubSector (8 * l + j) a.1 a.2) (a.1, a.2.memCtr fun c => Ctrs.wrap c 0 1)) (x, s)

/-- A scrub takes a granule. -/
def scrubGranule (g : Nat) (x : Scrub) (s : State) : Scrub × State :=
  let lines := (List.range 256).map (256 * g + ·)
  let r := (List.range 20).foldl (fun (a : Scrub × State) st =>
    scrubShare (lines.filter fun l => stackOf (256 * l) == st) a.1 a.2) (x, s)
  ({ r.1 with granules := r.1.granules + 1 }, r.2)

/-- A scrub goes on until n granules have been scanned. -/
def scrubTo (n : Nat) (x : Scrub) (s : State) : Scrub × State :=
  ((List.range n).drop x.granules).foldl (fun (a : Scrub × State) i => scrubGranule (x.pa / pageSize + i) a.1 a.2) (x, s)

/-- Granules that the scrub has reached by now, at its rate (128). -/
def Scrub.due (x : Scrub) (tick : Nat) : Nat := min (x.len / pageSize) (x.rate * 1000 * (tick - x.startTick) / pageSize)

/-- The scrub in progress, brought up to now. -/
def scrubNow (s : State) : State :=
  match s.rse.scrub with
  | some x =>
    if x.state = 1 then
      let r := scrubTo (x.due s.spine.tick) x s
      r.2.modRse fun y => { y with scrub := some r.1 }
    else s
  | none => s

/-- The 64 bytes of a summary (R524); all 0 while there was no scrub. -/
def scrubBytes (r : Option Scrub) : List Byte :=
  match r with
  | none => padTo 64 []
  | some x => natLe 8 x.granules ++ natLe 8 x.skipped ++ natLe 8 x.sectors ++ natLe 8 x.corrected ++ natLe 8 x.uncorrectable
      ++ natLe 8 x.first ++ natLe 6 x.startTick ++ natLe 6 x.endTick ++ natLe 1 x.state ++ natLe 1 x.mode ++ natLe 2 0

/-- A scrub runs. -/
def State.scrubs (s : State) : Bool := (s.rse.scrub.map fun x => x.state == 1).getD false

/-- SCRUB_START. -/
def cmdScrubStart (a : Nat → Nat) (s : State) : Reply :=
  match ptrErr (a 4) 64 64 true s with
  | some e => .fail e
  | none =>
    checked
      [ (decide (a 0 % pageSize ≠ 0 ∨ a 1 % pageSize ≠ 0), St.align),
        (decide (a 1 = 0 ∨ hbmEnd < a 0 + a 1 ∨ a 3 = 0 ∨ 2048 < a 3), St.range), (decide (1 < a 2), St.badArg),
        (s.scrubs || s.generators, St.busy), (s.memOff, St.state) ]
      (let x : Scrub := ⟨a 0, a 1, a 2, a 3, a 4, 0, 0, 0, 0, 0, 2 ^ 64 - 1, s.spine.tick, 0, 1⟩
       .ok [] (s.modRse fun y => { y with scrub := some x }))

/-- SCRUB_START (R522). -/
def execScrubStart (mb : Fin 16) (s : State) : Host.Outcome State Fault Refusal := runCmd mb 0x0703 5 cmdScrubStart s

/-- SCRUB_STATUS's reply. -/
def cmdScrubStatus : (Nat → Nat) → State → Reply :=
  fun a s => let s := scrubNow s; report (a 0) (scrubBytes s.rse.scrub) [] s

/-- SCRUB_STATUS (R524). -/
def execScrubStatus (mb : Fin 16) (s : State) :
    Host.Outcome State Fault Refusal :=
  runCmd mb 0x0704 1 cmdScrubStatus s

/-- The scrub ends in a state, and its summary goes to its destination. -/
def endScrub (x : Scrub) (st : Nat) (s : State) : Except State State :=
  let x := { x with state := st, endTick := s.spine.tick }
  ptrWrite x.dst (scrubBytes (some x)) (s.modRse fun y => { y with scrub := some x })

/-- SCRUB_STOP. -/
def cmdScrubStop (_ : Nat → Nat) (s : State) : Reply :=
  if !s.scrubs then .fail St.state
  else
    let s := scrubNow s
    match s.rse.scrub with
    | some x =>
      match endScrub x 3 s with
      | .ok s' => .ok [] s'
      | .error s' => .wait (s'.modRse fun y => { y with scrub := some x })
    | none => .fail St.state

/-- SCRUB_STOP (R534). -/
def execScrubStop (mb : Fin 16) (s : State) : Host.Outcome State Fault Refusal := runCmd mb 0x0705 0 cmdScrubStop s

/-! ### Injection (R525) -/

/-- Injection is permitted: by the configuration record, or while debug is open. -/
def State.mayInject (s : State) : Bool := (fieldAt s.sec.record 37 1).testBit 0 || s.sec.debug != 0

/-- The location of a site is one that the device has (129). -/
def injPlace (site loc loc2 : Nat) : Bool :=
  match site with
  | 1 | 2 | 7 => decide (loc < hbmEnd) && loc2 == 0
  | 3 => decide (loc < 256 ∧ loc2 < 0x144000)
  | 4 => decide (loc < 256 ∧ loc2 < 65536)
  | 5 => decide (loc < 4) && loc2 == 0
  | 6 => decide (loc < 32 ∧ loc2 < 448)
  | 8 => decide (loc < 20 ∧ loc2 < hbmEnd / pageSize)
  | _ => decide (loc < 2 ^ 32) && loc2 == 0

/-- INJECT_ARM: slot, SITE, location in two words, MASK, COUNT, AFTER, STORE (129). -/
def cmdInjectArm (a : Nat → Nat) (s : State) : Reply :=
  checked
    [ (!s.mayInject, St.auth), (decide (15 < a 0), St.range),
      (decide (a 1 = 0 ∨ 9 < a 1 ∨ 1 < a 7 ∨ (a 7 = 1 ∧ 2 < a 1)), St.badArg),
      (!injPlace (a 1) (a 2) (a 3) || decide (a 5 = 0 ∨ 255 < a 5 ∨ 2 ^ 48 ≤ a 6), St.range),
      ((SMap.lookup s.rse.inj (a 0)).isSome, St.busy) ]
    (let e : Inj := ⟨a 1, a 2, a 3, BitVec.ofNat 64 (a 4), a 5, a 6, a 7 == 1, false⟩
     .ok [] (s.modRse fun x => { x with inj := SMap.put x.inj (a 0) e }))

/-- INJECT_ARM (R525). -/
def execInjectArm (mb : Fin 16) (s : State) : Host.Outcome State Fault Refusal := runCmd mb 0x0706 8 cmdInjectArm s


/-- Disarm a slot; links that it holds in electrical idle leave it. -/
def disarm (k : Nat) (s : State) : State :=
  match SMap.lookup s.rse.inj k with
  | none => s
  | some e =>
    let s := s.modRse fun x => { x with inj := SMap.del x.inj k }
    if e.site = 9 ∧ e.active then endDrop (bitsOf 32 e.loc) s else s

/-- INJECT_DISARM. -/
def cmdInjectDisarm (a : Nat → Nat) (s : State) : Reply :=
  checked [(decide (2 ^ 16 ≤ a 0), St.badArg)] (.ok [] ((bitsOf 16 (a 0)).foldl (fun s k => disarm k s) s))

/-- INJECT_DISARM (R525). -/
def execInjectDisarm (mb : Fin 16) (s : State) : Host.Outcome State Fault Refusal := runCmd mb 0x0707 1 cmdInjectDisarm s

/-! ### Retirement (R526 to R529) -/

/-- The tier 1 page that a frame backs. -/
def State.pageOnFrame (s : State) (g : Nat) : Option (Nat × Page) :=
  s.ptu.pages.find? fun p => p.2.tier == 1 && decide (p.2.frame ≤ g ∧ g < p.2.frame + p.2.frames)

/-- The page is one that the PTU can move to another frame (R527). -/
def State.canMove (s : State) (k : Nat) (p : Page) : Bool :=
  s.candidate k p || (!p.big && !p.motion && !p.lost && !s.mustStay k p)

/-- Copy a page to a frame, with its marks, and free the one it had. -/
def movePage (k : Nat) (p : Page) (f : Nat) (s : State) : State :=
  let full := (List.range 20).any fun i => s.mem.written.contains (20 * p.frame + i)
  let d := frameBytes p.frame 1 s
  let s := fillFrames f 1 full d.1 d.2.1 d.2.2
  s.modPage k fun g => { g with frame := f }

/-- What retiring a granule comes to: retired, pending, or waiting for accesses in flight. -/
inductive Retire where
  | gone (s : State)
  | pends
  | waits

/-- Where a granule that is to be retired stands (R527); a movable page with no free frame is retired when it is freed. -/
def retireOne (g : Nat) (s : State) : Retire :=
  if decide (poolLimit ≤ g) || s.frameFree g 1 || s.isRetired g then .gone s
  else match s.pageOnFrame g with
    | some (k, p) =>
      if !s.canMove k p then .pends
      else match freeRun s 1 poolLimit 0 with
        | some f => if s.frameBusy p.frame then .waits else .gone (movePage k p f s)
        | none => .pends
    | none => .pends

/-- RETIRE_GRANULE: a granule that is retired already stays so. -/
def cmdRetireGranule (a : Nat → Nat) (s : State) : Reply :=
  let g := a 0 / pageSize
  let held := s.rse.retired.length + s.rse.retirePend.length
  checked
    [ (decide (a 0 % pageSize ≠ 0), St.align), (decide (reserveBase ≤ a 0), St.range),
      (!s.isRetired g && !s.rse.retirePend.contains g && decide (16384 ≤ held), St.noMemory), (s.generators, St.busy) ]
    (match retireOne g s with
      | .gone s => .ok [0] (s.modRse fun x => { x with
          retired := if s.isRetired g then x.retired else NSet.insert x.retired g, retirePend := NSet.erase x.retirePend g })
      | .pends => .ok [1] (s.modRse fun x => { x with retirePend := NSet.insert x.retirePend g })
      | .waits => .wait s)

/-- RETIRE_GRANULE (R527). -/
def execRetireGranule (mb : Fin 16) (s : State) : Host.Outcome State Fault Refusal := runCmd mb 0x0708 1 cmdRetireGranule s

/-- Granules of a bank number that are in use: of pages, leaf frames, transfers, windows and the table area. -/
def State.usedOf (s : State) (b : Nat) : List Nat :=
  (s.takenFrames.flatMap fun v => (List.range v.2).map (v.1 + ·)).filter fun g => granuleBank g == b && !s.rse.retired.contains g

/-- Retire the granules of a bank number that are in use: those that stay pend, and whether some access is in flight. -/
def retireUsed : List Nat → List Nat → State → List Nat × Bool × State
  | [], ps, s => (ps, false, s)
  | g :: gs, ps, s =>
    match retireOne g s with
    | .gone s => retireUsed gs ps s
    | .pends => retireUsed gs (ps ++ [g]) s
    | .waits => (ps, true, s)

/-- RETIRE_BANK: its granules leave the pool, those in use when they are freed. -/
def cmdRetireBank (a : Nat → Nat) (s : State) : Reply :=
  checked
    [ (decide (63 < a 0), St.range), (!s.rse.banks.contains (a 0) && decide (4 ≤ s.rse.banks.length), St.noMemory),
      (s.generators, St.busy) ]
    (if s.rse.banks.contains (a 0) then
      let n := (s.rse.retirePend.filter fun g => granuleBank g == a 0).length
      .ok [bankGranules - n, n] s
    else
      let used := NSet.addAll [] (s.usedOf (a 0))
      let t := s.modRse fun x => { x with banks := NSet.insert x.banks (a 0), retirePend := NSet.addAll x.retirePend used }
      let r := retireUsed used [] t
      if r.2.1 then .wait s
      else .ok [bankGranules - r.1.length, r.1.length] (r.2.2.modRse fun x => { x with
        retirePend := x.retirePend.filter fun g => !used.contains g || r.1.contains g }))

/-- RETIRE_BANK (R528). -/
def execRetireBank (mb : Fin 16) (s : State) : Host.Outcome State Fault Refusal := runCmd mb 0x0709 1 cmdRetireBank s

/-- Sector k lies in a row of a pseudo-channel bank. -/
def inRow (stack ch pc bank row k : Nat) : Bool :=
  let l := hbmMap (32 * k)
  l.stack == stack && l.channel == ch && l.pc == pc && l.bank == bank && l.row == row

/-- Firmware reads the row's damaged sectors and writes them back; what it cannot correct stays marked. -/
def rewriteRow (p : Nat → Bool) (s : State) : State :=
  ((s.mem.damage.map (·.1)).filter p).foldl (fun s k =>
    let r := sectorRead k s
    sectorStored k r.2.1 r.2.2) s

/-- ROW_REPAIR: what the stack has left and whether it succeeds come with the event. -/
def cmdRowRepair (repairLeft repairOk : Bool) (a : Nat → Nat) (s : State) : Reply :=
  checked
    [ (decide (19 < a 0 ∨ 31 < a 1 ∨ 1 < a 2 ∨ 63 < a 3 ∨ 12288 ≤ a 4), St.range), (decide (1 < a 5), St.badArg),
      (s.spine.running || s.generators || s.memOff, St.state), (!repairLeft, St.noMemory), (!repairOk, St.uncorrectable) ]
    (.ok [] ((rewriteRow (inRow (a 0) (a 1) (a 2) (a 3) (a 4)) s).modRse fun x => { x with
      rows := x.rows ++ [⟨a 0, a 1, a 2, a 3, a 4, a 5 == 1⟩] }))

/-- ROW_REPAIR (R526). -/
def execRowRepair (mb : Fin 16) (repairLeft repairOk : Bool) (s : State) : Host.Outcome State Fault Refusal :=
  runCmd mb 0x070A 6 (cmdRowRepair repairLeft repairOk) s

/-- The retirement list: a 64-byte head with counts and bank numbers, then retired granules, pending granules and
repaired rows, 8 bytes each (130). -/
def retireListBytes (x : Rse) : List Byte :=
  padTo 64 (natLe 4 x.retired.length ++ natLe 4 x.retirePend.length ++ natLe 4 x.banks.length ++ natLe 4 x.rows.length
      ++ x.banks.flatMap (natLe 1))
    ++ (x.retired ++ x.retirePend).flatMap (fun g => natLe 8 (g * pageSize))
    ++ x.rows.flatMap fun r => natLe 1 r.stack ++ natLe 1 (r.channel + 32 * r.pc) ++ natLe 1 r.bank ++ natLe 1 (bit r.hard 0)
        ++ natLe 4 r.row

/-- RETIRE_LIST_READ's reply. -/
def cmdRetireListRead : (Nat → Nat) → State → Reply :=
  fun a s => report (a 0) (retireListBytes s.rse) [(retireListBytes s.rse).length] s

/-- RETIRE_LIST_READ (R534): the length is returned. -/
def execRetireListRead (mb : Fin 16) (s : State) :
    Host.Outcome State Fault Refusal :=
  runCmd mb 0x070B 1 cmdRetireListRead s

/-! ### Mirrors, manifests, limits (R501, R505, R515) -/

/-- A mirror record from its bytes, for a partition. -/
def MirrorRec.of (r : List Byte) (part : Nat) : MirrorRec :=
  ⟨fieldAt r 0 2, fieldAt r 2 2, fieldAt r 8 8, fieldAt r 16 8, fieldAt r 24 8, fieldAt r 32 8, fieldAt r 40 8, fieldAt r 48 8,
    fieldAt r 56 8, part⟩

/-- The range lies wholly in pinned pages of tier 1. -/
def State.pinnedRange (s : State) (part va len : Nat) : Bool :=
  (pagePieces va len).all fun q =>
    match s.pageAt part q.1 with
    | some (_, g) => g.pin && g.tier == 1 && !g.lost
    | none => false

/-- Every bank that the record uses lies in pinned tier 1 pages of its partition (R506). -/
def State.banksPinned (s : State) (m : MirrorRec) : Bool :=
  s.pinnedRange m.part m.bank0 (bankBytes m.n) && s.pinnedRange m.part m.bank1 (bankBytes m.n)
    && (m.mirrorOf == 0xFFFF || (s.pinnedRange m.part m.mbank0 (bankBytes m.mn) && s.pinnedRange m.part m.mbank1 (bankBytes m.mn)))

/-- The record's fields lie in their ranges. -/
def MirrorRec.inRange (m : MirrorRec) : Bool :=
  [m.twinPos, m.mirrorOf].all (fun p => decide (p < 1024 ∨ p = 0xFFFF))
    && [m.n, m.mn].all (fun n => decide (n % 8192 = 0 ∧ n ≤ 2 ^ 36))
    && [m.bank0, m.bank1, m.readyVa, m.mbank0, m.mbank1].all fun v => decide (v < 2 ^ 52)

/-- MIRROR_CONFIG: the partition is the lowest whose pages hold the banks (125). -/
def cmdMirrorConfig (a : Nat → Nat) (s : State) : Reply :=
  withRecord (a 0) 64 64 s fun r s =>
    let m := MirrorRec.of r 0
    let part := (List.range 4).find? fun p => s.banksPinned (MirrorRec.of r p)
    checked
      [ (!zeroAt r 4 4, St.badArg), (!m.inRange, St.range),
        ([m.bank0, m.bank1, m.mbank0, m.mbank1].any (fun v => v % pageSize != 0) || m.readyVa % 8 != 0, St.align),
        (part.isNone, St.noMemory), (s.rse.mirrorPend.isSome, St.state) ]
      (let m := MirrorRec.of r (part.getD 0)
       .ok [s.nextApply] (s.modRse fun x =>
        if s.spine.running then { x with mirrorPend := some m } else { x with mirror := m }))

/-- MIRROR_CONFIG (R505). -/
def execMirrorConfig (mb : Fin 16) (s : State) : Host.Outcome State Fault Refusal := runCmd mb 0x0710 1 cmdMirrorConfig s

/-- The eight words of a mirror record. -/
def MirrorRec.words (m : MirrorRec) : List Nat :=
  [m.twinPos + 2 ^ 16 * m.mirrorOf, m.n, m.bank0, m.bank1, m.readyVa, m.mbank0, m.mbank1, m.mn]

/-- MIRROR_STATUS's reply. -/
def cmdMirrorStatus : (Nat → Nat) → State → Reply :=
  fun _ s => .ok (s.rse.mirror.words ++ [s.curBank, s.rse.mirroredC / 8192, (readyWord s).1]) s

/-- MIRROR_STATUS (R534): the record, the current bank, the blocks of the last step, the ready word. -/
def execMirrorStatus (mb : Fin 16) (s : State) :
    Host.Outcome State Fault Refusal :=
  runCmd mb 0x0711 0 cmdMirrorStatus s

/-- A code that a manifest may hold (R515). -/
def manifestCode (c : Nat) : Bool := [0x01, 0x02, 0x03, 0x05, 0x06, 0x07, 0x0A].contains (c / 256)

/-- FAWN_MANIFEST_LOAD: the images lie at a virtual address of a partition (131). -/
def cmdFawnManifestLoad (a : Nat → Nat) (s : State) : Reply :=
  let listed := ((s.links.table.map (·.fawnFor)).getD []).contains (a 0)
  match ptrOf (a 1) with
  | some (.va part va) =>
    checked [(!listed, St.range), (decide (a 2 = 0 ∨ 256 < a 2), St.badArg)]
      (withRecord (a 1) (256 * a 2) 64 s fun r s =>
        if (List.range (a 2)).all fun i => manifestCode (fieldAt r (256 * i) 2) then
          .ok [] (s.modRse fun x => { x with manifests := SMap.put x.manifests (a 0) (part, va, a 2) })
        else .fail St.badArg)
  | _ => if listed then .fail St.badArg else .fail St.range

/-- FAWN_MANIFEST_LOAD (R515). -/
def execFawnManifestLoad (mb : Fin 16) (s : State) : Host.Outcome State Fault Refusal := runCmd mb 0x0712 3 cmdFawnManifestLoad s

/-- The 64 bytes of a takeover record (R520); all 0 while there was none. -/
def takeoverBytes (r : Option TakeoverRec) : List Byte :=
  match r with
  | none => padTo 64 []
  | some x => padTo 64 (natLe 2 x.pos ++ natLe 2 x.former ++ natLe 4 x.gen ++ natLe 8 x.commit ++ natLe 6 x.lostTick ++ natLe 6 x.readyTick
      ++ natLe 6 x.fPrime ++ natLe 1 x.result ++ natLe 1 0 ++ natLe 2 x.slots.toNat ++ natLe 2 0 ++ natLe 8 x.leavesLost ++ natLe 8 x.pulled)

/-- TAKEOVER_RECORD_READ's reply. -/
def cmdTakeoverRecordRead : (Nat → Nat) → State → Reply :=
  fun a s => report (a 0) (takeoverBytes s.rse.takeoverRec) [] s

/-- TAKEOVER_RECORD_READ (R520). -/
def execTakeoverRecordRead (mb : Fin 16) (s : State) :
    Host.Outcome State Fault Refusal :=
  runCmd mb 0x0713 1 cmdTakeoverRecordRead s

/-- SET_RECOVERY_LIMITS. -/
def cmdSetRecoveryLimits (a : Nat → Nat) (s : State) : Reply :=
  withRecord (a 0) 16 64 s fun r s =>
    let l : RecLimits := ⟨fieldAt r 0 1, fieldAt r 4 4, fieldAt r 8 8⟩
    checked
      [ (!zeroAt r 1 3, St.badArg),
        (decide (l.replay = 0 ∨ 16 < l.replay ∨ l.bound < 1000 ∨ 30000 < l.bound
          ∨ (l.watchdog ≠ 0 ∧ (l.watchdog < 1000 ∨ 2 ^ 40 < l.watchdog))), St.range) ]
      (.ok [s.nextApply] (s.modRse fun x =>
        if s.spine.running then { x with limitsPend := some (l, s.nextApply) } else { x with limits := l, limitsPend := none }))

/-- SET_RECOVERY_LIMITS (R501). -/
def execSetRecoveryLimits (mb : Fin 16) (s : State) : Host.Outcome State Fault Refusal := runCmd mb 0x0714 1 cmdSetRecoveryLimits s

/-- The result words of RECOVERY_STATUS: window, commit m, F′, the FAULT's position, class, cause and stamp, replays. -/
def recoveryStatus (x : Rse) : List Nat :=
  let f := x.winFault.getD ⟨0, 0, 0, 0, 0⟩
  [x.window, x.winCommit, x.fPrime, f.pos, f.cls, f.cause, f.stamp, x.replays]

/-- RECOVERY_STATUS's reply. -/
def cmdRecoveryStatus : (Nat → Nat) → State → Reply :=
  fun _ s => .ok (recoveryStatus s.rse) s

/-- RECOVERY_STATUS (R504). -/
def execRecoveryStatus (mb : Fin 16) (s : State) :
    Host.Outcome State Fault Refusal :=
  runCmd mb 0x0715 0 cmdRecoveryStatus s

/-! ### The colophon and the counters (R532 to R535) -/

/-- The colophon that can be read: the full dump, or the summary in its slot. -/
def State.coloDump (s : State) : Option Dump := if s.rse.colo.location then SMap.lookup s.rse.slots s.rse.colo.slot else s.rse.dump

/-- COLOPHON_READ. -/
def cmdColophonRead (a : Nat → Nat) (s : State) : Reply :=
  match ptrOf (a 2) with
  | some (.host _) =>
    checked [ (!s.rse.colo.valid, St.state), (decide (s.rse.colo.size < a 0 + a 1), St.range) ]
      (match s.coloDump with
        | some d => report (a 2) (d.read (a 0) (a 1)) [] s
        | none => .fail St.state)
  | _ => .fail St.badArg

/-- COLOPHON_READ (R534). -/
def execColophonRead (mb : Fin 16) (s : State) : Host.Outcome State Fault Refusal := runCmd mb 0x0720 3 cmdColophonRead s

/-- COLOPHON_RELEASE. -/
def cmdColophonRelease (_ : Nat → Nat) (s : State) : Reply :=
  checked [(s.rse.fatal.isSome, St.internal), (!s.rse.colo.valid, St.state)]
    (.ok [] (s.modRse fun x => { x with colo := { x.colo with valid := false }, dump := none, dumping := false }))

/-- COLOPHON_RELEASE (R533). -/
def execColophonRelease (mb : Fin 16) (s : State) : Host.Outcome State Fault Refusal := runCmd mb 0x0721 0 cmdColophonRelease s

/-- READ_RSE_COUNTERS's reply. -/
def cmdReadRseCounters : (Nat → Nat) → State → Reply :=
  reportCtrs fun s => Ctrs.bytes s.rse.ctrs 12

/-- READ_RSE_COUNTERS (R535). -/
def execReadRseCounters (mb : Fin 16) (s : State) :
    Host.Outcome State Fault Refusal :=
  runCmd mb 0x0730 1 cmdReadRseCounters s

/-- CLEAR_RSE_COUNTERS's reply. -/
def cmdClearRseCounters : (Nat → Nat) → State → Reply :=
  clearCtrs 12 fun m s => s.rseCtr fun c => Ctrs.clear c m

/-- CLEAR_RSE_COUNTERS (R535). -/
def execClearRseCounters (mb : Fin 16) (s : State) :
    Host.Outcome State Fault Refusal :=
  runCmd mb 0x0731 1 cmdClearRseCounters s

end Sys2Proof.Machine
end

