-- ==== Sys2Proof/Machine/Manifest.lean ====
section
/-! DEFINITION. The commands that a Fawn's manifest may hold (R515), and how Camlo executes a manifest (R516 step 2). -/

namespace Sys2Proof.Machine

/-- A command: its code, the number of its argument words, and its meaning. -/
abbrev CmdRow := Nat × Nat × ((Nat → Nat) → State → Reply)

/-- Channels and tiles. -/
def chanTable : List CmdRow :=
  [(0x0101, 2, cmdChannelCreate), (0x0102, 1, cmdChannelDestroy), (0x0103, 2, cmdChannelSetMode), (0x0104, 2, cmdProgramLoad), (0x0105, 2, cmdChannelUpdate), (0x0106, 2, cmdChannelStart), (0x0107, 2, cmdChannelStop), (0x0108, 1, cmdChannelStatus), (0x0109, 1, cmdGetTileState), (0x010A, 1, cmdTileReset), (0x010B, 3, cmdReadTileCounters), (0x010C, 3, cmdClearTileCounters)]
    ++ [(0x010D, 3, cmdReadTfeCounters), (0x010E, 3, cmdClearTfeCounters)]

/-- Memory. -/
def memTable : List CmdRow :=
  [(0x0201, 0, cmdMemGetConfig), (0x0202, 2, cmdMemClearRange), (0x0203, 1, cmdMemMapAddress), (0x0204, 1, cmdMemReadCounters), (0x0205, 1, cmdMemClearCounters), (0x0206, 1, cmdShcFlush), (0x0210, 2, cmdPrgSet), (0x0211, 1, cmdPrgReport), (0x0212, 1, cmdHotBankLog), (0x0220, 3, cmdFxRegionDefine), (0x0221, 1, cmdFxRegionRelease), (0x0230, 2, cmdTgcConfig)]
    ++ [(0x0231, 1, cmdTgcStart), (0x0232, 2, cmdTgcStatus), (0x0233, 1, cmdTgcStop)]

/-- Paging and leaves. -/
def pageTable : List CmdRow :=
  [(0x0301, 2, cmdPtuInit), (0x0302, 2, cmdPartitionSetView), (0x0303, 2, cmdPartitionSetQuota), (0x0304, 12, cmdPageMap), (0x0305, 3, cmdPageUnmap), (0x0306, 4, cmdPageMigrate), (0x0307, 4, cmdPagePin), (0x0308, 2, cmdPageQuery), (0x0309, 1, cmdPoolStatus), (0x0310, 2, cmdFarLend), (0x0311, 1, cmdFarUnlend), (0x0312, 2, cmdFarPoolSet)]
    ++ [(0x0313, 1, cmdSetReclaimBound), (0x0318, 2, cmdHostRegionAdd), (0x0319, 1, cmdHostRegionRemove), (0x0320, 1, cmdReadPtuCounters), (0x0321, 1, cmdClearPtuCounters), (0x0340, 2, cmdLeafPoolCreate), (0x0341, 1, cmdLeafPoolDestroy), (0x0342, 2, cmdSlotCreate), (0x0343, 1, cmdSlotReset), (0x0344, 1, cmdSlotDestroy), (0x0345, 2, cmdSlotSetRing), (0x0346, 2, cmdSlotStatus)]
    ++ [(0x0347, 6, cmdLeafPin), (0x0348, 1, cmdSetLeafStallBound), (0x0349, 1, cmdReadLeafCounters), (0x034A, 1, cmdClearLeafCounters), (0x034B, 4, cmdReadLeafEntry)]

/-- The herd. What an operand of the command's row would tell is free here (149). -/
def herdTable (free : BitVec 64) : List CmdRow :=
  [(0x0501, 4, cmdHerdConfig), (0x0502, 0, cmdHerdStatus), (0x0503, 2, cmdGroupDefine), (0x0504, 1, cmdGroupRelease), (0x0505, 1, cmdScheduleLoad), (0x0506, 2, cmdSpineStart), (0x0507, 0, cmdSpineStop), (0x0508, 3, cmdEpochAdvance), (0x0509, 1, cmdReadLateness), (0x050A, 1, cmdClearCleCounters), (0x050B, 1, cmdReadCleCounters), (0x050C, 0, cmdSpineTime free)]
    ++ [(0x050E, 1, cmdCollStatus), (0x050F, 1, cmdPlacementReport)]

/-- Ingest. -/
def ingestTable : List CmdRow :=
  [(0x0601, 1, cmdIgeSetup), (0x0602, 1, cmdIgeDictLoad), (0x0603, 1, cmdIgeSetLimits), (0x0604, 4, cmdIgeStart), (0x0605, 0, cmdIgeStop), (0x0606, 1, cmdIgeStatus), (0x0607, 1, cmdIgeReadSkipLog), (0x0608, 1, cmdIgeReadCounters), (0x0609, 1, cmdIgeClearCounters), (0x060A, 2, cmdIgeCacheSet), (0x060B, 4, cmdIgePermute)]

/-- Resilience. What an operand of the command's row would tell is free here (149). -/
def rseTable (free : BitVec 64) : List CmdRow :=
  [(0x0701, 3, cmdErrLogRead), (0x0702, 0, cmdErrLogClear), (0x0703, 5, cmdScrubStart), (0x0704, 1, cmdScrubStatus), (0x0705, 0, cmdScrubStop), (0x0706, 8, cmdInjectArm), (0x0707, 1, cmdInjectDisarm), (0x0708, 1, cmdRetireGranule), (0x0709, 1, cmdRetireBank), (0x070A, 6, cmdRowRepair (free.getLsbD 0) (free.getLsbD 1)), (0x070B, 1, cmdRetireListRead), (0x0710, 1, cmdMirrorConfig)]
    ++ [(0x0711, 0, cmdMirrorStatus), (0x0712, 3, cmdFawnManifestLoad), (0x0713, 1, cmdTakeoverRecordRead), (0x0714, 1, cmdSetRecoveryLimits), (0x0715, 0, cmdRecoveryStatus), (0x0720, 3, cmdColophonRead), (0x0721, 0, cmdColophonRelease), (0x0730, 1, cmdReadRseCounters), (0x0731, 1, cmdClearRseCounters)]

/-- Numerics. -/
def numTable : List CmdRow :=
  [(0x0A01, 0, cmdGetNumericCaps), (0x0A02, 1, cmdSetSrSeed), (0x0A03, 1, cmdSetGovernorConfig), (0x0A04, 1, cmdGetGovernorConfig), (0x0A05, 3, cmdPinLayerFormat), (0x0A06, 1, cmdGetLayerDecision), (0x0A07, 2, cmdReadTensorStats), (0x0A08, 3, cmdSetFxScale), (0x0A09, 1, cmdClearNumericCounters), (0x0A0A, 1, cmdReadWgbCounters), (0x0A0B, 1, cmdClearWgbCounters)]

/-- The command of a code, with a free value for its operand. -/
def manifestRow (free : BitVec 64) (code : Nat) : Option CmdRow :=
  (match code / 256 with
    | 0x01 => chanTable
    | 0x02 => memTable
    | 0x03 => pageTable
    | 0x05 => herdTable free
    | 0x06 => ingestTable
    | 0x07 => rseTable free
    | 0x0A => numTable
    | _ => []).find? fun r => r.1 == code

/-- What becomes of a manifest. -/
inductive Manifest where
  | ran (s : State)
  | waits (s : State)
  | failed (s : State)

/-- Note how far the manifest has come. -/
def manifestAt (i : Nat) (s : State) : State :=
  { s with rse := { s.rse with takeover := s.rse.takeover.map fun (x : Takeover) => { x with next := i } } }

/-- Execute image i of a manifest: its code and its fifteen argument words, as a mailbox holds them. -/
def runImage (i : Nat) (r : List Byte) (s : State) : Manifest :=
  let d := s.draw
  let arg (k : Nat) : Nat := if k < 15 then fieldAt r (8 + 8 * k) 8 else 0
  match manifestRow (Config.freeWord d.1) (fieldAt r 0 2) with
  | none => .failed s
  | some row =>
    if !((List.range 15).all fun k => k < row.2.1 || arg k == 0) then .failed s
    else match row.2.2 arg (if row.1 = 0x050C ∨ row.1 = 0x070A then d.2 else s) with
      | .ok _ s' => .ran (manifestAt (i + 1) s')
      | .fail _ => .failed s
      | .failed _ s' => .failed s'
      | .wait s' => .waits s'

/-- Execute the images from image i on, in order. -/
def runImages (r : List Byte) : Nat → Nat → State → Manifest
  | 0, _, s => .ran s
  | n + 1, i, s =>
    match runImage i ((r.drop (256 * i)).take 256) s with
    | .ran s' => runImages r n (i + 1) s'
    | m => m

/-- Execute the manifest for a position, from where it stands. -/
def runManifest (p : Nat) (s : State) : Manifest :=
  let from_ := (s.rse.takeover.map (·.next)).getD 0
  match SMap.lookup s.rse.manifests p with
  | none => .failed s
  | some m =>
    match vaReady none m.1 m.2.1 (256 * m.2.2) false s with
    | (some _, s) => .waits s
    | (none, s) =>
      let r := vaRead m.1 m.2.1 (256 * m.2.2) s
      if r.2.1 then .failed r.2.2 else runImages r.1 (m.2.2 - from_) from_ r.2.2

end Sys2Proof.Machine
end

