-- ==== Sys2Proof/Machine/RseEvents.lean ====
section
/-! DEFINITION. The events of resilience: the repair of mirror blocks (R513, R514), takeover by a Fawn (R515 to R520),
the end of a scrub (R524), injected link drops (R525), and fatal events (R530, R587). -/

namespace Sys2Proof.Machine

/-! ### Mirror blocks (R506, R513, R514) -/

/-- The base of the current bank, or of the current mirror bank, and its elements. -/
def State.bankAt (s : State) (mirror : Bool) : Nat × Nat :=
  let m := s.rse.mirror
  if mirror then (if s.curBank = 0 then m.mbank0 else m.mbank1, m.mn) else (if s.curBank = 0 then m.bank0 else m.bank1, m.n)

/-- Block b of a bank at `base` with n elements: where each of the five planes' pieces lies, and its bytes. -/
def blockPieces (base n b : Nat) : List (Nat × Nat) :=
  [ (base + 32768 * b, 32768), (base + 4 * n + 8192 * b, 8192), (base + 5 * n + 256 * b, 256),
    (base + 5 * n + n / 32 + 8192 * b, 8192), (base + 6 * n + n / 32 + 256 * b, 256) ]

/-- Write a block's bytes into its five planes. -/
def writeBlock (part : Nat) : List (Nat × Nat) → List Byte → State → State
  | [], _, s => s
  | p :: ps, data, s => writeBlock part ps (data.drop p.2) (vaWrite part p.1 (data.take p.2) s)

/-- RETAINED_REPAIR (R513, R514): the good copy of a damaged block arrives and is written; a copy that is itself bad
raises cause 0x34. -/
def execRetainedRepair (mirror : Bool) (block : Nat) (data : List Byte) (bad : Bool) (s : State) :
    Host.Outcome State Fault Refusal :=
  if !s.rse.repairs.contains (mirror, block) then .next s
  else if bad then done (reportFault (LogRec.make 3 0x34 St.uncorrectable 0) s)
  else
    let b := s.bankAt mirror
    let s := writeBlock s.rse.mirror.part (blockPieces b.1 b.2 block) (padTo 49664 data) s
    done ((s.modRse fun x => { x with repairs := x.repairs.filter fun r => r != (mirror, block) }).rseCtr fun c => Ctrs.sat c 3 1)

/-! ### State streams (R516 to R518) -/

/-- The blocks of every fixed-point region, in region and block order. -/
def State.fxBlocks (s : State) : List FxBlock :=
  s.mem.fx.flatMap fun r => (List.range r.2.frames.length).map fun i => SMap.getD r.2.blocks i FxBlock.reset

/-- The committed owner state of this device, in the form of R512, with the history of each block. -/
def ownState (s : State) : List Byte :=
  padTo 64 s.ige.retained.bytes
    ++ s.fxBlocks.flatMap (fun b => natLe 1 (twos 8 b.e) ++ natLe 1 (bit b.satC 0) ++ natLe 2 0 ++ natLe 4 b.amaxC.toNat)
    ++ s.fxBlocks.flatMap fun b => (List.range 16).flatMap fun i => natLe 4 (SMap.getD b.hist i 0).toNat

/-- The committed owner state that this device keeps of the position that it mirrors, with its history. -/
def mirroredState (s : State) : List Byte :=
  s.rse.ownerC ++ (List.range ((s.rse.ownerC.length - 64) / 8)).flatMap fun i =>
    (SMap.getD s.rse.ownerHist i (List.replicate 16 0)).flatMap fun v => natLe 4 v.toNat

/-- Bytes in pieces of 4,096 with their offsets. -/
def pieces4k (bs : List Byte) : List (Nat × List Byte) :=
  (List.range ((bs.length + 4095) / 4096)).map fun i => (4096 * i, (bs.drop (4096 * i)).take 4096)

/-- A packet of a state stream (R517). -/
def statePacket (src dst part off : Nat) (data : List Byte) : Packet :=
  ⟨8, 3, src, dst, natLe 6 off ++ natLe 1 part ++ natLe 1 0, padTo (roundUp data.length 16) data⟩

/-- Send packets to a position over its link set, in turn. -/
def sendInTurn (p : Nat) (all : List Packet) (s : State) : State :=
  let ls := s.linkSet p
  if ls.isEmpty then s
  else ((List.range all.length).zip all).foldl (fun s q => sendOn (ls.getD (q.1 % ls.length) 0) q.2 s) s

/-- Stream parts 0 to 3 to a position. -/
def sendStream (p : Nat) (parts : List (List Byte)) (s : State) : State :=
  sendInTurn p (((List.range parts.length).zip parts).flatMap fun q =>
    (pieces4k q.2).map fun d => statePacket s.myPos p q.1 d.1 d.2) s

/-- What a source of state streams to position p: the current mirror bank of p with its owner state, or the source's own
bank with its own (R517, R518). -/
def streamState (mirror : Bool) (p : Nat) (s : State) : State :=
  let b := s.bankAt (!mirror)
  let d := vaRead s.rse.mirror.part b.1 (bankBytes b.2) s
  let owner := if mirror then ownState s else mirroredState s
  let p1 := padTo (roundUp owner.length 16) owner
  let p2 := s.num.tensors.flatMap fun t => t.2.bytes t.1
  sendStream p [d.1, p1, p2, sha3 (d.1 ++ p1 ++ p2)] d.2.2

/-- The holder of the good copy sends block b to the position that asks for it, in part 0 of its bank (R513). -/
def streamBlock (mirror : Bool) (p b : Nat) (s : State) : State :=
  let k := s.bankAt (!mirror)
  (blockPieces 0 k.2 b).foldl (fun s q =>
    let d := vaRead s.rse.mirror.part (k.1 + q.1) q.2 s
    sendInTurn p ((pieces4k d.1).map fun c => statePacket s.myPos p 0 (q.1 + c.1) c.2) d.2.2) s

/-- STATE_REQUEST (R513, R516): the Fawn that stands for a position asks its twin for the state, or the position that it
mirrors for a new mirror; a member with a damaged block asks for that block alone. -/
def execStateRequest (link : Fin 32) (ask : StateAsk) (s : State) : Host.Outcome State Fault Refusal :=
  let p := s.peerOf link
  let mine (mirror : Bool) : Nat := if mirror then s.rse.mirror.twinPos else s.rse.mirror.mirrorOf
  if p = 0xFFFF ∨ mine ask.mirror ≠ p ∨ (s.link link).st ≠ 3 then .next s
  else match ask with
    | .state mirror => done (streamState mirror p s)
    | .block mirror b => if 8192 * (b + 1) ≤ (s.bankAt (!mirror)).2 then done (streamBlock mirror p b s) else .next s

/-! ### The Fawn's side (R516 to R519) -/

/-- A takeover that goes on. -/
def State.taking (s : State) : Option Takeover := s.rse.takeover.filter fun x => !x.failed

/-- Change the stream of a takeover. -/
def modStream (mirror : Bool) (f : Stream → Stream) (s : State) : State :=
  s.modRse fun r => { r with takeover := r.takeover.map fun (x : Takeover) =>
    if mirror then { x with mirror := f x.mirror } else { x with own := f x.own } }

/-- The stream that a packet from a position belongs to: with one source for both, the second follows the first. -/
def State.streamOf (s : State) (x : Takeover) (src : Nat) : Option Bool :=
  let m := s.rse.mirror
  if src = m.twinPos ∧ !x.own.done then some false
  else if src = m.mirrorOf ∧ !x.mirror.done then some true
  else none

/-- Put bytes at an offset of a part. -/
def putPart (old : List Byte) (off : Nat) (d : List Byte) : List Byte := splice (padTo (max old.length off) old) off d

/-- A packet of a stream is placed by PART and OFFSET; part 0 goes to the bank. -/
def placeState (mirror : Bool) (part off : Nat) (d : List Byte) (s : State) : State :=
  let s := modStream mirror (fun x =>
    let x := { x with bytes := x.bytes + d.length }
    match part with
    | 1 => { x with part1 := putPart x.part1 off d }
    | 2 => { x with part2 := putPart x.part2 off d }
    | 3 => { x with part3 := putPart x.part3 off d }
    | _ => x) s
  let b := s.bankAt mirror
  if part = 0 ∧ off + d.length ≤ bankBytes b.2 then vaWrite s.rse.mirror.part (b.1 + off) d s else s

/-- The bank in which a byte that a position sends lies in a block that waits for repair (R513). -/
def State.repairAt (s : State) (src off : Nat) : Option Bool :=
  [false, true].find? fun m =>
    src == (if m then s.rse.mirror.mirrorOf else s.rse.mirror.twinPos)
      && s.rse.repairs.any fun r => r.1 == m
        && (blockPieces 0 (s.bankAt m).2 r.2).any fun q => decide (q.1 ≤ off ∧ off < q.1 + q.2)

/-- What a class 0x8 packet does: it belongs to a takeover's stream, or to a block that is being repaired. -/
def takeState (p : Packet) (s : State) : State :=
  match s.taking with
  | none =>
    let off := fieldAt p.cword 0 6
    match s.repairAt p.srcPos off with
    | some m => if fieldAt p.cword 6 1 = 0 then vaWrite s.rse.mirror.part ((s.bankAt m).1 + off) p.data s else s
    | none => s
  | some x =>
    if !x.manifestDone then s
    else match s.streamOf x p.srcPos with
      | some mirror => placeState mirror (fieldAt p.cword 6 1) (fieldAt p.cword 0 6) p.data s
      | none => s

/-- STATE_TRANSFER_PACKET (R513, R517). -/
def execStateTransferPacket (link : Fin 32) (p : Packet) (s : State) : Host.Outcome State Fault Refusal :=
  takePacket link p (p.cls == 8) (takeState p) s

/-- Ask a source for its stream. -/
def askStream (mirror : Bool) (s : State) : State :=
  s.emit (.stateRequest (if mirror then s.rse.mirror.mirrorOf else s.rse.mirror.twinPos) mirror)

/-- MANIFEST_COMPLETE (R516, R519): Camlo has executed the manifest; the Fawn asks for the two streams. With no twin there
is no state to take; with nothing to mirror there is no second stream. -/
def execManifestComplete (s : State) : Host.Outcome State Fault Refusal :=
  match s.taking with
  | none => .next s
  | some x =>
    if x.manifestDone then .next s
    else match runManifest x.pos s with
      | .failed s' => done (failTakeover 4 s')
      | .waits s' => done s'
      | .ran s' =>
        let none_ := s'.rse.mirror.mirrorOf = 0xFFFF
        let s' := s'.modRse fun r => { r with takeover := r.takeover.map fun (y : Takeover) => { y with
          manifestDone := true, mirror := { y.mirror with done := decide none_ } } }
        if s'.rse.mirror.twinPos = 0xFFFF then done (failTakeover 2 s')
        else done (if none_ then askStream false s' else askStream true (askStream false s'))

/-- An ingest record from its 48 bytes. -/
def IgeState.of (r : List Byte) : IgeState :=
  let c := fieldAt r 16 8
  ⟨fieldAt r 0 8, fieldAt r 8 8, if c = 2 ^ 64 - 1 then none else some c, fieldAt r 24 8, fieldAt r 32 8, fieldAt r 40 8⟩

/-- Block i of a region as part 1 has it: E, flag, amax, and the history at `h`. -/
def FxBlock.restored (b : FxBlock) (r : List Byte) (o h : Nat) : FxBlock :=
  { b with
    e := signedOf 8 (fieldAt r o 1), eNext := none, satC := fieldAt r (o + 1) 1 == 1, amaxC := BitVec.ofNat 32 (fieldAt r (o + 4) 4)
    amaxU := 0, satU := false
    hist := (List.range 16).foldl (fun (m : SMap (BitVec 32)) i => SMap.setD m 0 i (BitVec.ofNat 32 (fieldAt r (h + 4 * i) 4))) [] }

/-- Restore every block of every region from part 1. -/
def restoreBlocks (r : List Byte) (s : State) : State :=
  let n := s.fxBlocks.length
  let one (j : Nat) (b : FxBlock) : FxBlock := b.restored r (64 + 8 * j) (64 + 8 * n + 64 * j)
  let go := s.mem.fx.foldl (fun (a : SMap FxRegion × Nat) f =>
    let k := f.2.frames.length
    let blocks := ((List.range k).map fun i => (i, one (a.2 + i) (SMap.getD f.2.blocks i FxBlock.reset))).filter fun b => b.2 != FxBlock.reset
    (a.1 ++ [(f.1, { f.2 with blocks := blocks })], a.2 + k)) ([], 0)
  { s with mem := { s.mem with fx := go.1 } }

/-- What a verified stream restores: p's own state, or the owner state of the mirrored position (R518). -/
def installStream (mirror : Bool) (x : Stream) (s : State) : State :=
  if mirror then
    let k := (x.part1.length - 64) / 72
    s.modRse fun r => { r with
      ownerC := x.part1.take (64 + 8 * k), ownerU := x.part1.take (64 + 8 * k)
      ownerHist := (List.range k).map fun i =>
        (i, (List.range 16).map fun j => BitVec.ofNat 32 (fieldAt x.part1 (64 + 8 * k + 64 * i + 4 * j) 4)) }
  else
    let st := IgeState.of x.part1
    let s := restoreBlocks x.part1 (s.modIge fun g => { g with retained := st, cur := st })
    let recs := (List.range (x.part2.length / 768)).map fun i => TensorRec.of ((x.part2.drop (768 * i)).take 768)
    { s with num := { s.num with tensors := recs.foldl (fun (m : SMap TensorRec) t => SMap.put m t.1 t.2) [] } }

/-- Both streams are in: the Fawn is ready, and its record says so. Which slots of the lost device held tokens the Fawn
cannot know: the mask is a free value (150). -/
def finishTakeover (x : Takeover) (s : State) : State :=
  let d := s.draw
  let r : TakeoverRec := ⟨x.pos, x.former, x.gen, x.commit, x.lostTick, s.spine.tick, 0, 0,
    BitVec.setWidth 16 (Config.freeWord d.1), 0, x.own.bytes + x.mirror.bytes⟩
  noteReady (d.2.modRse fun y => { y with takeover := none, takeoverRec := some r })

/-- TAKEOVER_STREAM_COMPLETE (R518, R519): a stream is in. Its digest is checked; a mismatch asks once more, then fails. -/
def execTakeoverStreamComplete (mirror : Bool) (s : State) : Host.Outcome State Fault Refusal :=
  match s.taking with
  | none => .next s
  | some x =>
    let t := if mirror then x.mirror else x.own
    if !x.manifestDone || t.done then .next s
    else
      let b := s.bankAt mirror
      let d := vaRead s.rse.mirror.part b.1 (bankBytes b.2) s
      if sha3 (d.1 ++ t.part1 ++ t.part2) = t.part3 then
        let s := modStream mirror (fun y => { y with done := true }) (installStream mirror t d.2.2)
        match s.taking with
        | some y => if y.own.done && y.mirror.done then done (finishTakeover y s) else done s
        | none => done s
      else if t.retried then done (failTakeover 3 d.2.2)
      else done (askStream mirror (modStream mirror (fun y => { Stream.reset with retried := true, bytes := y.bytes }) d.2.2))

/-- TAKEOVER_BOUND_EXPIRY (R519): the Fawn's takeover fails; the acting Stag has no time for another Fawn and stops the
herd. -/
def execTakeoverBoundExpiry (s : State) : Host.Outcome State Fault Refusal :=
  if s.rse.window != 2 then .next s
  else
    let s := failTakeover 5 s
    match s.rse.ordered with
    | some o =>
      if s.spine.stag && s.spine.running then
        done (stopForLack ⟨o.1, 3, 0x35, s.spine.tick, 0xFFFF⟩ o.2 5 s)
      else done s
    | none => done s

/-! ### Scrub and injection (R524, R525) -/

/-- SCRUB_COMPLETE (R524): what is left is scanned, and the summary goes to its destination. -/
def execScrubComplete (s : State) : Host.Outcome State Fault Refusal :=
  match s.rse.scrub with
  | none => .next s
  | some x =>
    if x.state ≠ 1 then .next s
    else
      let r := scrubTo (x.len / pageSize) x s
      match endScrub r.1 2 r.2 with
      | .ok s' => done s'
      | .error s' => done (s'.modRse fun y => { y with scrub := some r.1 })

/-- A link goes into electrical idle: an Active one retrains, as a natural loss of its signal would have it (R389). -/
def dropLink (l : Nat) (s : State) : State :=
  let s := s.modLink l fun x => { x with dropped := true }
  (retrain l s).modLink l fun x => { x with signal := false }

/-- INJECT_LINK_DROP (R525): site 0x9 acts once, at the first tick at or after AFTER. -/
def execInjectLinkDrop (slot : Fin 16) (s : State) : Host.Outcome State Fault Refusal :=
  match SMap.lookup s.rse.inj slot with
  | none => .next s
  | some e =>
    if e.site ≠ 9 ∨ e.active ∨ s.spine.tick < e.after then .next s
    else
      let s := s.modRse fun r => { r with inj := SMap.put r.inj slot { e with active := true } }
      done ((bitsOf 32 e.loc).foldl (fun s l => dropLink l s) (s.rseCtr fun c => Ctrs.sat c 10 1))

/-- INJECT_LINK_DROP_END (R525): after COUNT ms the links leave electrical idle, and the slot is no longer armed. -/
def execInjectLinkDropEnd (slot : Fin 16) (s : State) : Host.Outcome State Fault Refusal :=
  match SMap.lookup s.rse.inj slot with
  | none => .next s
  | some e => if e.site = 9 ∧ e.active then .next (disarm slot s) else .next s

/-! ### Fatal events (R530, R531, R587) -/

/-- CAMLO_WATCHDOG_EXPIRY (R530): cause 3. -/
def execCamloWatchdogExpiry (s : State) : Host.Outcome State Fault Refusal :=
  if 7 ≤ s.sys.bootStep then done (goFatal 3 s) else .next s

/-- FATAL_EVENT (R530): causes 1 to 5. -/
def execFatalEvent (cause : Fin 6) (s : State) : Host.Outcome State Fault Refusal :=
  if 7 ≤ s.sys.bootStep ∧ cause.val ≠ 0 then done (goFatal cause s) else .next s

/-- COLOPHON_SUMMARY_WRITTEN (R530, R587, R601): the summary is in the next slot; after a thermal trip the dies are
power-gated. -/
def execColophonSummaryWritten (s : State) : Host.Outcome State Fault Refusal :=
  if !s.rse.dumping then .next s
  else
    let s := summaryDone s
    .next (if s.rse.fatal = some 4 then { s with pcm := { s.pcm with diesOn := false } } else s)

end Sys2Proof.Machine
end

