-- ==== Sys2Proof/Machine/SpineEvents.lean ====
section
/-! DEFINITION. The events of the Spine: SYNC (R411 to R417), STATUS and FAULT (R420), commits and steps (R423 to
R428), and the orders REWIND, STOP and REBIND (R402, R421, R430, R431, R498 to R500). -/

namespace Sys2Proof.Machine

/-- SYNC_SEND (R411): the Stag sends SYNC at phase 0 of every 64th tick. -/
def execSyncSend (s : State) : Host.Outcome State Fault Refusal :=
  if s.spine.stag && s.spine.tick % 64 == 0 then
    let s := { s with spine := { s.spine with phase := 0, lastSync := s.spine.tick } }
    .next (sendSync 0 [] s)
  else .next s

/-- SYNC (R412, R413, R417). -/
def execSync (link : Fin 32) (p : Packet) (s : State) : Host.Outcome State Fault Refusal :=
  takePacket link p (p.cls == 1 && skindOf p == 1) (takeSync link p) s

/-- The device's index among the backup candidates: 1 to 3 (R416). -/
def State.candIndex (s : State) : Option Nat := (s.spine.cands.findIdx? (· == s.myPos)).map (· + 1)

/-- STAG_CANDIDATE_TIMEOUT (R416): a backup candidate that has heard no SYNC for its bound takes the role. -/
def execStagCandidateTimeout (s : State) : Host.Outcome State Fault Refusal :=
  match s.candIndex with
  | none => .next s
  | some k =>
    let due := s.spine.lastSync + 200 + 100 * k
    if !s.spine.running || s.spine.stag || decide (s.spine.tick < due) then .next s
    else
      let s := { s with spine := { s.spine with
        stag := true, newStag := true, gen := (s.spine.gen + 1) % 2 ^ 32, cand := k, parent := none, hops := 0
        heard := [], children := [], lastSync := s.spine.tick } }
      let s := sendSync 0 [] (s.cleCtr fun c => Ctrs.sat c 9 1)
      done (reportAt s.myPos due (LogRec.make 6 0x08 St.uncorrectable 0) s)

/-- STATUS_REPORT (R420): the aggregate goes to the parent; at the acting Stag it is judged (R418, R516). -/
def execStatusReport (s : State) : Host.Outcome State Fault Refusal :=
  let s := noteReady s
  if s.spine.stag then done (afterStatus s)
  else match s.spine.parent with
    | some p => .next (sendTo (spinePacket s 2 p s.aggregate.bytes) s)
    | none => .next s

/-- Keep a child's STATUS as its latest. -/
def takeStatus (p : Packet) (s : State) : State :=
  afterStatus (noteReady { s with spine := { s.spine with
    children := SMap.put s.spine.children p.srcPos (StatusRec.of p.data) } })

/-- STATUS (R420). -/
def execStatus (link : Fin 32) (p : Packet) (s : State) : Host.Outcome State Fault Refusal :=
  takePacket link p (p.cls == 1 && skindOf p == 2) (takeStatus p) s

/-- COMMIT_DECIDE (R425). -/
def execCommitDecide (s : State) : Host.Outcome State Fault Refusal :=
  if s.spine.stag && s.spine.running && !s.spine.newStag then done (decideCommit (noteReady s)) else .next s

/-- COMMIT (R421, R427). -/
def execCommit (link : Fin 32) (p : Packet) (s : State) : Host.Outcome State Fault Refusal :=
  let n := fieldAt p.data 0 8
  let f := fieldAt p.data 14 6
  takePacket link p (p.cls == 1 && skindOf p == 3)
    (takeOrder link p n f (takeCommit n (fieldAt p.data 8 6) f (fieldAt p.data 20 4))) s

/-- STEP_START (R423): at tick F the step starts; the replayed step starts by REPLAY_START. -/
def execStepStart (s : State) : Host.Outcome State Fault Refusal :=
  if s.spine.running && !s.spine.started && s.rse.window == 0 && decide (s.spine.fTick ≤ s.spine.tick) then
    done (enterStep s)
  else .next s

/-- FAULT (R420, R430): it is forwarded at once, and at the Stag it is answered. -/
def execFault (link : Fin 32) (p : Packet) (s : State) : Host.Outcome State Fault Refusal :=
  let f : FaultRec := ⟨fieldAt p.data 6 2, fieldAt p.data 8 1, fieldAt p.data 9 1, fieldAt p.data 0 6, 0xFFFF⟩
  takePacket link p (p.cls == 1 && skindOf p == 6)
    (fun s => if s.spine.running then passFault f (fieldAt p.data 10 2) s else s) s

/-- The fault that REWIND and STOP name. -/
def orderFault (d : List Byte) : FaultRec := ⟨fieldAt d 20 2, fieldAt d 22 1, 0, fieldAt d 23 6, 0xFFFF⟩

/-- REWIND (R421, R431). -/
def execRewind (link : Fin 32) (p : Packet) (s : State) : Host.Outcome State Fault Refusal :=
  let m := fieldAt p.data 0 8
  let fp := fieldAt p.data 14 6
  takePacket link p (p.cls == 1 && skindOf p == 4)
    (takeOrder link p m fp (applyRewind m (fieldAt p.data 8 6) fp (some (orderFault p.data)))) s

/-- STOP (R421, R431). A deterministic fault stops the herd and interrupts the host (R430). -/
def execStop (link : Fin 32) (p : Packet) (s : State) : Host.Outcome State Fault Refusal :=
  let m := fieldAt p.data 0 8
  takePacket link p (p.cls == 1 && skindOf p == 5)
    (takeOrder link p m 0 (applyStop m (fieldAt p.data 8 6) (some (orderFault p.data)))) s

/-- REBIND (R402, R421). -/
def execRebind (link : Fin 32) (p : Packet) (s : State) : Host.Outcome State Fault Refusal :=
  let g := fieldAt p.data 4 4
  takePacket link p (p.cls == 1 && skindOf p == 7)
    (takeOrder link p g 0 (applyRebind (fieldAt p.data 0 2) (fieldAt p.data 2 2) g)) s

/-- RESTORE_COMPLETE (R499): the restoration of commit m is complete; after F′ the replay starts at once. -/
def execRestoreComplete (s : State) : Host.Outcome State Fault Refusal :=
  if s.rse.window != 1 || !s.rse.restoring || !s.rse.repairs.isEmpty then .next s
  else
    let s := { s with rse := { s.rse with restoring := false } }
    if s.rse.late then
      done (enterStep ({ s with rse := { s.rse with late := false } }.rseCtr fun c => Ctrs.sat c 7 1))
    else .next s

/-- REPLAY_START (R498): at tick F′ the replayed step starts and the window closes, unless the restoration is
still under way. -/
def execReplayStart (s : State) : Host.Outcome State Fault Refusal :=
  if s.rse.window != 1 || !s.spine.running || s.spine.started || decide (s.spine.tick < s.spine.fTick) then .next s
  else if s.rse.restoring then .next { s with rse := { s.rse with late := true } }
  else done (enterStep s)

/-- STEP_WATCHDOG (R500): a step-periodic channel has not completed the step by its bound. -/
def execStepWatchdog (chan : Fin 4096) (s : State) : Host.Outcome State Fault Refusal :=
  let w := if s.rse.limits.watchdog = 0 then 2 * (s.spine.sched.map (·.commitOffset)).getD 0 else s.rse.limits.watchdog
  match s.chan chan with
  | none => .next s
  | some x =>
    if s.spine.running && s.spine.started && x.running && x.started && (x.header.map (·.periodic)).getD false
        && !s.chanDone x && decide (s.spine.fTick + w ≤ s.spine.tick) then
      done (reportFault ((LogRec.make 0xA 0x0A St.uncorrectable 0).ofChan (some chan.val)) s)
    else .next s

end Sys2Proof.Machine
end

