-- ==== Sys2Proof/Machine/LinkRx.lean ====
section
/-! DEFINITION. A link's receiver (R376 to R389): what an arriving flit does, and how packets come out of data flits and
reach their engines. -/

namespace Sys2Proof.Machine

/-! ### Packets (R381 to R384) -/

/-- What a Spine packet does (R419 to R421). -/
def spineArrives (l : Nat) (p : Packet) (s : State) : State :=
  let n := fieldAt p.data 0 8
  let c := fieldAt p.data 8 6
  let f := fieldAt p.data 14 6
  match skindOf p with
  | 1 => takeSync l p s
  | 2 => takeStatus p s
  | 3 => takeOrder l p n f (takeCommit n c f (fieldAt p.data 20 4)) s
  | 4 => takeOrder l p n f (applyRewind n c f (some (orderFault p.data))) s
  | 5 => takeOrder l p n 0 (applyStop n c (some (orderFault p.data))) s
  | 6 =>
    if s.spine.running then
      passFault ⟨fieldAt p.data 6 2, fieldAt p.data 8 1, fieldAt p.data 9 1, fieldAt p.data 0 6, 0xFFFF⟩ (fieldAt p.data 10 2) s
    else s
  | 7 => takeOrder l p (fieldAt p.data 4 4) 0 (applyRebind (fieldAt p.data 0 2) (fieldAt p.data 2 2) (fieldAt p.data 4 4)) s
  | _ => s

/-- A whole packet reaches its engine. Quires and far traffic have no CLASS_WORD in the spec: what they carry arrives by
commands of its own, and here they only free their slots (28). -/
def packetArrives (l : Nat) (p : Packet) (s : State) : State :=
  let s := s.modLink l fun x => { x with freed := SMap.updD x.freed 0 p.vc (· + slotsOf p) }
  if s.misrouted p then misroute l s
  else match p.cls with
    | 1 => spineArrives l p s
    | 2 => takeColl l p s
    | 3 => takeColl l p s
    | 8 => takeState p s
    | _ => s

/-- Take the packets that waiting slots hold: a packet follows the end of the one before it, and slots of zeros between
packets fill a flit up (70). -/
def takeSlots (l : Nat) : Nat → List Byte → State → State
  | 0, buf, s => s.modLink l fun x => { x with rxSlots := buf }
  | n + 1, buf, s =>
    let head := buf.take 16
    let size := 16 * (1 + headLen head)
    if buf.length < 16 then s.modLink l fun x => { x with rxSlots := buf }
    else if head.all (· == 0) then takeSlots l n (buf.drop 16) s
    else if buf.length < size then s.modLink l fun x => { x with rxSlots := buf }
    else takeSlots l n (buf.drop size) (packetArrives l (packetOf (buf.take size)) s)

/-- The payload of an accepted data flit: it goes on with the packet that has begun, or starts at FIRST. -/
def takePayload (l first : Nat) (payload : List Byte) (s : State) : State :=
  let old := (s.link l).rxSlots
  if old.isEmpty && first == 31 then s
  else takeSlots l 32 (if old.isEmpty then payload.drop (16 * first) else old ++ payload) s

/-! ### Flits (R384, R386 to R389) -/

/-- A good data flit: the next one expected is accepted, any other is discarded. -/
def takeData (l : Nat) (h : FlitHead) (payload : List Byte) (s : State) : State :=
  let s := takeHead l h s
  if (s.link l).st ≠ 3 then s
  else if h.seq ≠ (s.link l).rxNext then discard l s
  else
    let s := (s.modLink l fun x => { x with rxNext := (x.rxNext + 1) % 4096, episode := false }).linkCtr l fun c => Ctrs.wrap c 1 1
    takePayload l h.first payload s

/-- DATA_FLIT_RECEIVE (R387). -/
def execDataFlitReceive (link : Fin 32) (flit : List Byte) (s : State) : Host.Outcome State Fault Refusal :=
  let l := link.val
  if (s.link l).st ≠ 3 then .next s
  else match flitDecode flit with
    | .uncorrectable => done (undecoded l (discard l s))
    | .badCrc fixed => done (discard l ((decoded l fixed 0 s).linkCtr l fun c => Ctrs.sat c 5 1))
    | .good h payload fixed =>
      if h.type = 1 then done (takeData l h payload (decoded l fixed h.seq s)) else .next s

/-- IDLE_FLIT_RECEIVE (R387): a flit that fails a check is discarded without NAK. -/
def execIdleFlitReceive (link : Fin 32) (flit : List Byte) (s : State) : Host.Outcome State Fault Refusal :=
  let l := link.val
  if (s.link l).st ≠ 3 then .next s
  else match flitDecode flit with
    | .uncorrectable => done (undecoded l s)
    | .badCrc fixed => done ((decoded l fixed 0 s).linkCtr l fun c => Ctrs.sat c 5 1)
    | .good h _ fixed => if h.type = 0 then done (takeHead l h (decoded l fixed 0 s)) else .next s

end Sys2Proof.Machine
end

