-- ==== Sys2Proof/Machine/SecOps.lean ====
section
/-! DEFINITION. What the boot ROM and the security block share: the flash layout (R600), the checks of an image (R603)
and of a configuration record (R604), the measurements (R609), the certificate chain (R613), and debug (R616).

A signature's verification is the outcome that the command carries: it says that the object's key has the digest
of its role in the boot ROM and that the signature verifies with it (R596, R597, 9). -/

namespace Sys2Proof.Machine

/-! ### The flash (R600, R601) -/

/-- Where the helper data lies. -/
abbrev helperOffset : Nat := 0x10000

/-- Where the firmware image lies. -/
abbrev imageOffset : Nat := 0x600000

/-- The size of the firmware region. -/
def imageRegion : Nat := if Config.flashLarge then 58 * 2 ^ 20 else 26 * 2 ^ 20

/-- Bytes of the flash. -/
def State.flashRead (s : State) (a n : Nat) : List Byte := Mem.readN s.flash a n

/-- Write bytes of the flash. -/
def flashWrite (a : Nat) (bs : List Byte) (s : State) : State := { s with flash := Mem.writeN s.flash a bs }

/-! ### Records and images -/

/-- A byte of a record. -/
def byteAt (r : List Byte) (o : Nat) : Nat := fieldAt r o 1

/-- The typed entries of a list of bytes: TYPE, LEN, content, padding to 8 bytes. None when the bytes do not end with
an entry's end. -/
def typedEntries : Nat → List Byte → Option (List (Nat × List Byte))
  | _, [] => some []
  | 0, _ => none
  | n + 1, bs =>
    let len := fieldAt bs 2 2
    let size := roundUp (4 + len) 8
    if bs.length < size then none
    else (typedEntries n (bs.drop size)).map fun l => (fieldAt bs 0 2, (bs.drop 4).take len) :: l

/-- LENGTH of a configuration record. -/
def recordLength (r : List Byte) : Nat := fieldAt r 28 4

/-- The entries of a configuration record. -/
def recordEntries (r : List Byte) : Option (List (Nat × List Byte)) :=
  typedEntries 8192 ((r.drop 1632).take (recordLength r - 2420 - 1632))

/-- The content of the entry of a type. -/
def recordEntry (r : List Byte) (type : Nat) : List Byte :=
  (((recordEntries r).getD []).find? fun e => e.1 == type).map (·.2) |>.getD []

/-- The fields of a configuration record that do not depend on a key are as R604 has them. -/
def recordForm (r : List Byte) : Bool :=
  let n := recordLength r
  fieldAt r 0 4 == 0x47464344 && fieldAt r 4 2 == 1 && byteAt r 6 == 2 && zeroAt r 7 1 && zeroAt r 25 3
    && decide (1632 + 2420 ≤ n ∧ n ≤ 65536) && decide (byteAt r 36 < 3) && decide (byteAt r 37 < 8) && zeroAt r 39 25
    && match recordEntries r with
      | some es => (List.range 7).all fun i => (es.filter fun e => e.1 == i + 1).length == 1
      | none => false

/-- Why a configuration record is not valid: 1 its form, 2 its key or signature, 3 its DEVICE_ID (138). -/
def recordFault (r : List Byte) (id : Nat) (sigValid : Bool) : Option Nat :=
  if !recordForm r then some 1
  else if !sigValid then some 2
  else if fieldAt r 8 8 ≠ id then some 3
  else none

/-- BODY_LENGTH of an image header. -/
def bodyLength (h : List Byte) : Nat := fieldAt h 16 4

/-- An image header's own form. -/
def headerForm (h : List Byte) : Bool :=
  fieldAt h 0 4 == 0x4D494644 && fieldAt h 4 2 == 1 && decide (byteAt h 6 < 2) && zeroAt h 7 1 && zeroAt h 24 8
    && zeroAt h 1376 64 && zeroAt h 3860 236 && bodyLength h % 4096 == 0 && decide (bodyLength h + 4096 ≤ imageRegion)

/-- Why an image header is not valid under a configuration record: 1 its form, 2 its key or signature, 3 a revoked
key, 4 its SVN (138). -/
def headerFault (h record : List Byte) (sigValid : Bool) : Option Nat :=
  if !headerForm h then some 1
  else if !sigValid then some 2
  else if (byteAt record 36).testBit (byteAt h 6) then some 3
  else if fieldAt h 20 4 < fieldAt record 32 4 then some 4
  else none

/-- Why an image is not valid: its header, or 5 its body's digest. -/
def imageFault (h body record : List Byte) (sigValid : Bool) : Option Nat :=
  match headerFault h record sigValid with
  | some e => some e
  | none => if sha3 body = (h.drop 32).take 32 then none else some 5

/-! ### Measurements and the chain (R609, R613) -/

/-- Measurement i. -/
def State.measure (s : State) (i : Nat) : List Byte := SMap.getD s.sec.meas i (List.replicate 32 0)

/-- The slot 0 chain: root, identity and alias certificates. -/
def State.chain (s : State) : List Byte :=
  recordEntry s.sec.record 6 ++ recordEntry s.sec.record 7 ++ s.sec.aliasCert

/-! ### Image recovery (R605, R606) -/

/-- The boot ROM enters image recovery. -/
def enterRecovery (step reason : Nat) (s : State) : State :=
  { s with sec := { s.sec with recovery := true, bootFail := some (step, reason) } }

/-- The security block after a reset: DEVICE_ID and LOT_CODE are restored by none (R12, R546). -/
def Sec.cleared (x : Sec) : Sec := { Sec.reset with deviceId := x.deviceId, lotCode := x.lotCode }

/-- The boot ROM starts again from step 1. -/
def reboot (s : State) : State :=
  { s with
    sec := s.sec.cleared
    sys := { s.sys with bootStep := 1, ready := false } }

/-! ### Debug (R615 to R617) -/

/-- Debug closes; SECURITY is raised when it was open. -/
def closeDebug (s : State) : State :=
  let s1 := { s with sec := { s.sec with debug := 0 } }
  if s.sec.debug = 0 then s1 else raiseCause Cause.security s1

/-- PERMIT DEBUG of the configuration record. -/
def State.debugPermitted (s : State) : Bool := (byteAt s.sec.record 37).testBit 2

/-- How long a nonce is valid, in microseconds. -/
abbrev nonceLife : Nat := 60000000

/-- A debug nonce is valid. -/
def State.nonceValid (s : State) : Bool :=
  match s.sec.nonce with
  | some n => decide (s.pcm.us < n.2 + nonceLife)
  | none => false

/-- The nonce is used up. -/
def dropNonce (s : State) : State := { s with sec := { s.sec with nonce := none } }

end Sys2Proof.Machine
end

