-- ==== Sys2Proof/Machine/PowerCmds.lean ====
section
/-! DEFINITION. The commands of the power, clock and thermal manager (R578 to R584, R588, R594, R595). -/

namespace Sys2Proof.Machine

/-- Change the power manager. -/
def State.modPcm (s : State) (f : Pcm → Pcm) : State := { s with pcm := f s.pcm }

/-! ### Limits and caps (R578, R594) -/

/-- PWR_GET_LIMITS: peak limit, host cap, management cap, T, cap range, budget range, low half first (132). -/
def cmdPwrGetLimits (a : Nat → Nat) (s : State) : Reply :=
  report (a 0) ((List.range 256).flatMap fun t => natLe 1 (s.ceiling t))
    [3300, s.pcm.hostCap, s.pcm.mgmtCap, s.target, 1200 + 3000 * 2 ^ 32, 72000 + 198000 * 2 ^ 32] s

/-- PWR_GET_LIMITS (R594). -/
def execPwrGetLimits (mb : Fin 16) (s : State) : Host.Outcome State Fault Refusal := runCmd mb 0x0801 1 cmdPwrGetLimits s

/-- PWR_SET_CAP: the sustained loop uses the new cap from its next period on (R579). -/
def cmdPwrSetCap (a : Nat → Nat) (s : State) : Reply :=
  let s' := s.modPcm fun p => { p with hostCap := a 0 }
  checked [(decide (a 0 < 1200 ∨ 3000 < a 0), St.envelope)] (.ok [s'.target] s')

/-- PWR_SET_CAP (R578). -/
def execPwrSetCap (mb : Fin 16) (s : State) : Host.Outcome State Fault Refusal := runCmd mb 0x0802 1 cmdPwrSetCap s

/-! ### The envelope (R580, R594) -/

/-- An entry of ENV_DECLARE: minute index and budget. -/
def budgetAt (r : List Byte) (i : Nat) : Nat × Nat := (fieldAt r (16 * i) 8, fieldAt r (16 * i + 8) 4)

/-- The indices rise from entry to entry. -/
def rising : List Nat → Bool
  | a :: b :: l => decide (a < b) && rising (b :: l)
  | _ => true

/-- ALIGN moves the minutes: the current one is numbered anew, and keeps the energy it has counted (133). -/
def setAlign (v : Nat) (s : State) : State :=
  if v = 2 ^ 64 - 1 then s
  else
    let s := s.modPcm fun p => { p with align := v }
    s.modPcm fun p => { p with minute := (s.minuteNow.map (·.1)).getD 0 }

/-- ENV_DECLARE: a count of 0 clears every budget. -/
def cmdEnvDeclare (a : Nat → Nat) (s : State) : Reply :=
  let align := if a 0 = 2 ^ 64 - 1 then s.pcm.align else a 0
  let badAlign := decide (a 0 ≠ 2 ^ 64 - 1 ∧ 2 ^ 48 ≤ a 0)
  if badAlign || decide (64 < a 2) then .fail St.range
  else if a 2 = 0 then .ok [] ((setAlign (a 0) s).modPcm fun p => { p with budgets := [], allowance := none })
  else
    withRecord (a 1) (16 * a 2) 64 s fun r s =>
      let es := (List.range (a 2)).map (budgetAt r)
      checked
        [ ((List.range (a 2)).any (fun i => !zeroAt r (16 * i + 12) 4) || !rising (es.map (·.1)), St.badArg),
          (es.any fun e => decide (e.2 < 72000 ∨ 198000 < e.2), St.envelope),
          (es.any fun e => decide (align + 60000 * e.1 < s.pcm.ms + 2000), St.range) ]
        (.ok [] ((setAlign (a 0) s).modPcm fun p => { p with
          budgets := es.foldl (fun (m : SMap Nat) e => SMap.put m e.1 e.2) p.budgets }))

/-- ENV_DECLARE (R580). -/
def execEnvDeclare (mb : Fin 16) (s : State) : Host.Outcome State Fault Refusal := runCmd mb 0x0803 3 cmdEnvDeclare s

/-- The 64 bytes of ENV_STATUS (132). -/
def envStatusBytes (s : State) : List Byte :=
  let p := s.pcm
  padTo 64 (natLe 8 p.minute ++ natLe 4 (joules p.minuteE) ++ natLe 4 (s.budget.getD 0) ++ natLe 4 (p.allowance.getD 0) ++ natLe 4 p.lastJ
    ++ natLe 4 p.lastBudget ++ natLe 4 p.lastOver ++ natLe 8 p.ms)

/-- ENV_STATUS (R594). -/
def execEnvStatus (mb : Fin 16) (s : State) : Host.Outcome State Fault Refusal :=
  runCmd mb 0x0804 1 (fun a s => report (a 0) (envStatusBytes s) [] s) s

/-! ### Tile frequencies (R570, R594) -/

/-- TILE_FREQ_SET: a target above a tile's ceiling becomes the ceiling; the tiles change at the next period (R579). -/
def cmdTileFreqSet (a : Nat → Nat) (s : State) : Reply :=
  let ts := (List.range (a 1)).map (a 0 + ·)
  checked [(decide (a 1 = 0 ∨ 256 < a 0 + a 1 ∨ a 2 < 40 ∨ 86 < a 2), St.range)]
    (.ok [(ts.filter fun t => decide (s.ceiling t < a 2)).length]
      (ts.foldl (fun s t => s.modTilePwr t fun x => { x with target := some (min (a 2) (s.ceiling t)) }) s))

/-- TILE_FREQ_SET (R570). -/
def execTileFreqSet (mb : Fin 16) (s : State) : Host.Outcome State Fault Refusal := runCmd mb 0x0805 3 cmdTileFreqSet s

/-- The 8 bytes of a tile. -/
def State.tileFreqBytes (s : State) (t : Nat) : List Byte :=
  let x := s.tilePwr t
  natLe 1 (s.ceiling t) ++ natLe 1 (x.target.getD (s.ceiling t)) ++ natLe 1 x.freq ++ natLe 1 (s.throttle t) ++ natLe 1 x.result ++ natLe 3 0

/-- TILE_FREQ_GET (R594). -/
def execTileFreqGet (mb : Fin 16) (s : State) : Host.Outcome State Fault Refusal :=
  runCmd mb 0x0806 1 (fun a s => report (a 0) ((List.range 256).flatMap s.tileFreqBytes) [] s) s

/-! ### Sleep (R588) -/

/-- Something runs that must not sleep. -/
def State.atWork (s : State) : Bool :=
  !s.runningChans.isEmpty || s.spine.running || s.ige.running || s.scrubs || s.generators || s.rse.window == 1 || s.rse.window == 2

/-- SLEEP_ENTER: the transition begins; SLEEP_TRANSITION_DONE ends it (134). -/
def cmdSleepEnter (a : Nat → Nat) (s : State) : Reply :=
  checked [ (decide (3 < a 0), St.range), (a 0 != 0 && s.atWork, St.state) ]
    (if s.pcm.sleepTo.isSome then .wait s
     else if a 0 = s.pcm.sstate then .ok [] s
     else .ok [] (s.modPcm fun p => { p with sleepTo := some (a 0) }))

/-- SLEEP_ENTER (R588). -/
def execSleepEnter (mb : Fin 16) (s : State) : Host.Outcome State Fault Refusal := runCmd mb 0x0807 1 cmdSleepEnter s

/-! ### Calibration (R584, R594) -/

/-- The rail group that the PMBus entry of the configuration record lists a regulator for (R584, R607, R642; 9). -/
def State.groupOf (s : State) (reg : Nat) : Option Nat :=
  let b := ((recordEntry s.sec.record 4)[(Config.railPlace reg).val]?)
  (List.range 6).find? fun g => b == some (Config.railCode g)

/-- A rail group's gain in 1/1,024. -/
def State.gain (s : State) (g : Nat) : Nat := SMap.getD s.pcm.gains g 1024

/-- PMBUS_CALIBRATE: a calibration begins; the gains in force are returned (135). -/
def cmdPmbusCalibrate (answers : Bool) (_ : Nat → Nat) (s : State) : Reply :=
  checked
    [ (s.pcm.calibrating, St.busy), ((List.range 12).all (fun r => (s.groupOf r).isNone) || !answers, St.state) ]
    (.ok ((List.range 6).map s.gain) (s.modPcm fun p => { p with calibrating := true, measured := [], model := [] }))

/-- PMBUS_CALIBRATE (R584). -/
def execPmbusCalibrate (mb : Fin 16) (answers : Bool) (s : State) : Host.Outcome State Fault Refusal :=
  runCmd mb 0x0808 0 (cmdPmbusCalibrate answers) s

/-! ### Temperatures and counters (R586, R595) -/

/-- THERMAL_STATUS: 256 tiles, 20 stacks, 4 dies, then the nine thresholds of R586, one byte each (132). -/
def thermalBytes (s : State) : List Byte :=
  padTo 320 ((s.tileTemps ++ s.stackTemps ++ s.dieTemps ++ [95, 92, 100, 97, 85, 95, 92, 110, 105]).flatMap (natLe 1))

/-- THERMAL_STATUS (R594). -/
def execThermalStatus (mb : Fin 16) (s : State) : Host.Outcome State Fault Refusal :=
  runCmd mb 0x0809 1 (fun a s => report (a 0) (thermalBytes s) [] s) s

/-- READ_PCM_COUNTERS (R595). -/
def execReadPcmCounters (mb : Fin 16) (s : State) : Host.Outcome State Fault Refusal :=
  runCmd mb 0x080A 1 (reportCtrs fun s => Ctrs.bytes s.pcm.ctrs 13) s

/-- CLEAR_PCM_COUNTERS (R595). -/
def execClearPcmCounters (mb : Fin 16) (s : State) : Host.Outcome State Fault Refusal :=
  runCmd mb 0x080B 1 (clearCtrs 13 fun m s => s.pcmCtr fun c => Ctrs.clear c m) s

end Sys2Proof.Machine
end

