-- ==== Sys2Proof/Machine/PowerEvents.lean ====
section
/-! DEFINITION. The power, clock and thermal manager's own events: droop and relocks (R572 to R574), the loops of R575, the
minute envelope (R580 to R582), calibration (R584, R585), temperatures (R586, R587), and the management controller's
PLDM requests (R590 to R592, R655). -/

namespace Sys2Proof.Machine

/-- After a change of a limit the tiles ask for the frequencies they need, and sensor 33 is brought up to date. -/
def settlePower (s : State) : State := noteHealth (retargetAll s)

/-! ### Droop and relocks (R572 to R574) -/

/-- DROOP_EVENT: the tile's cycles stretch; more than 16 while a change waits abandon it. -/
def execDroopEvent (tile : Fin 256) (s : State) : Host.Outcome State Fault Refusal :=
  let x := s.tilePwr tile
  if x.stretched then .next s
  else
    let s := s.pcmCtr fun c => Ctrs.sat c 0 1
    let n := x.droops + 1
    if x.change.isNone then .next (s.modTilePwr tile fun x => { x with stretched := true })
    else if 16 < n then
      .next ((s.modTilePwr tile fun x => { x with
        stretched := true, change := none, waited := false, droops := 0, result := 2 }).pcmCtr fun c => Ctrs.sat c 4 1)
    else .next (s.modTilePwr tile fun x => { x with stretched := true, droops := n })

/-- DROOP_RELEASE: the stretch ends after some cycles. -/
def execDroopRelease (tile : Fin 256) (cycles : Nat) (s : State) : Host.Outcome State Fault Refusal :=
  if (s.tilePwr tile).stretched then
    .next ((s.modTilePwr tile fun x => { x with stretched := false, stretchEnd := some s.pcm.us }).pcmCtr fun c => Ctrs.wrap c 1 cycles)
  else .next s

/-- Tiles that relock now. -/
def State.relocking (s : State) : List Nat := (s.pcm.tiles.filter fun x => x.2.relock.isSome).map (·.1)

/-- A waiting change may start: no stretch, none in the last 10 µs, one die at a time, at most 16 tiles (R572, R574). -/
def State.mayRelock (s : State) (t : Nat) : Bool :=
  let x := s.tilePwr t
  x.change.isSome && x.relock.isNone && !x.stretched
    && (match x.stretchEnd with | some e => decide (e + 10 ≤ s.pcm.us) | none => true)
    && (s.relocking.all fun u => u / 64 == t / 64) && decide (s.relocking.length < 16)

/-- FREQ_RELOCK_START: the tile's clock stops for the relock. -/
def execFreqRelockStart (tile : Fin 256) (s : State) : Host.Outcome State Fault Refusal :=
  if s.mayRelock tile then
    let x := s.tilePwr tile
    let s := if x.waited then s.pcmCtr fun c => Ctrs.sat c 3 1 else s
    .next (s.modTilePwr tile fun x => { x with relock := x.change, change := none, droops := 0 })
  else .next s

/-- FREQ_RELOCK_COMPLETE: the tile runs at the new frequency. -/
def execFreqRelockComplete (tile : Fin 256) (s : State) : Host.Outcome State Fault Refusal :=
  match (s.tilePwr tile).relock with
  | some f =>
    let s := s.modTilePwr tile fun x => { x with relock := none, freq := f, result := if x.waited then 1 else 0, waited := false }
    .next (retarget tile (s.pcmCtr fun c => Ctrs.wrap c 2 1))
  | none => .next s

/-! ### The energy model and the peak limiter (R576, R582, R583) -/

/-- The sample of each rail group with its gain. -/
def State.gained (s : State) (energy : List Nat) : Nat :=
  ((List.range 6).map fun g => energy.getD g 0 * s.gain g / 1024).foldl (· + ·) 0

/-- The peak limiter at a sample: `sum` is the energy of the last 1 ms in µJ. -/
def peakLimit (sum : Nat) (s : State) : State :=
  if 3200000 < sum then
    raiseCause Cause.power ((s.modPcm fun p => { p with
      peakThrottle := min 15 (p.peakThrottle + 2), lowUs := 0 }).pcmCtr fun c => Ctrs.sat c 5 1)
  else if sum < 3100000 then
    if 100 ≤ s.pcm.lowUs + 10 then s.modPcm fun p => { p with peakThrottle := p.peakThrottle - 1, lowUs := 0 }
    else s.modPcm fun p => { p with lowUs := p.lowUs + 10 }
  else s.modPcm fun p => { p with lowUs := 0 }

/-- The energy of the minute has reached its budget: the rest of the minute is held. -/
def holdMinute (s : State) : State :=
  match s.budget with
  | some b =>
    if b * 1000000 ≤ s.pcm.minuteE && !s.pcm.held then raiseCause Cause.power (s.modPcm fun p => { p with held := true }) else s
  | none => s

/-- ENERGY_MODEL_SAMPLE: the energy of each rail group in µJ before gain (11), and the throttled cycles of the 10 µs. -/
def execEnergyModelSample (energy : List Nat) (s : State) : Host.Outcome State Fault Refusal :=
  let e := s.gained energy
  let level := s.throttleNow
  let frozen := s.throttledCycles
  let s := if frozen = 0 then s else s.pcmCtr fun c => Ctrs.wrap c 6 frozen
  let s := s.modPcm fun p =>
    let samples := (e :: p.samples).take 100
    { p with
      samples := samples
      peaks := noteHigh 1000000 p.us (min 65535 ((samples.foldl (· + ·) 0) / 1000)) p.peaks
      levels := noteHigh 1000 p.us level p.levels
      minuteE := p.minuteE + e
      secondE := p.secondE + e
      energy := (p.energy + e) % 2 ^ 64
      model := (List.range 6).foldl (fun (m : SMap Nat) g => SMap.updD m 0 g (· + energy.getD g 0)) p.model }
  .next (settlePower (holdMinute (peakLimit (s.pcm.samples.foldl (· + ·) 0) s)))

/-! ### The sustained loop and the envelope (R578 to R582) -/

/-- SUSTAINED_LOOP_PERIOD: the energy of the second against T × its elapsed part. -/
def execSustainedLoopPeriod (s : State) : Host.Outcome State Fault Refusal :=
  let due := s.target * (s.pcm.ms % 1000) * 1000
  let e := s.pcm.secondE
  if due < e then
    let s := if 40 < s.pcm.fl then s.modPcm fun p => { p with fl := p.fl - 1 }
      else s.modPcm fun p => { p with susThrottle := min 15 (p.susThrottle + 1) }
    .next (settlePower (raiseCause Cause.power (s.pcmCtr fun c => Ctrs.sat c 7 1)))
  else if e * 100 < due * 98 then
    .next (settlePower (s.modPcm fun p => { p with susThrottle := p.susThrottle - 1, fl := min 0x56 (p.fl + 1) }))
  else .next (settlePower s)

/-- The allowance of second `sec` of a minute with budget b (R581). -/
def allowanceOf (b e sec : Nat) : Nat := max 1200 ((b * 1000000 - e) / ((60 - sec) * 1000000))

/-- ENVELOPE_SECOND: a second starts, with its allowance and with gains that waited for it. -/
def execEnvelopeSecond (s : State) : Host.Outcome State Fault Refusal :=
  let sec := (s.minuteNow.map (·.2)).getD 0
  let al := s.budget.map fun b => allowanceOf b s.pcm.minuteE sec
  let s := s.modPcm fun p => { p with
    secondE := 0, allowance := al, gains := p.gainsNext.getD p.gains, gainsNext := none }
  .next (if (al.map fun a => decide (a < s.caps)).getD false then s.pcmCtr fun c => Ctrs.sat c 8 1 else s)

/-- MINUTE_END: the minute is closed, an overrun is reported, and the next begins. -/
def execMinuteEnd (s : State) : Host.Outcome State Fault Refusal :=
  let b := s.budget
  let e := s.pcm.minuteE
  let above := (b.map fun b => decide (b * 1000000 < e)).getD false
  let m := s.pcm.minute
  let s := s.modPcm fun p => { p with
    lastJ := joules e, lastBudget := b.getD 0, lastOver := if above then joules (e - b.getD 0 * 1000000) else 0
    minute := (m + 1) % 2 ^ 32, minuteE := 0, held := false, allowance := none
    budgets := SMap.del p.budgets m }
  let s := if above then
      pldmEvent (.overrun m (joules e) (b.getD 0)) (raiseCause Cause.power (s.pcmCtr fun c => Ctrs.sat c 9 1))
    else s
  .next (settlePower s)

/-! ### Temperatures (R586, R587) -/

/-- A tile's thermal limit and level at a sample. -/
def TilePwr.heat (x : TilePwr) (temp ceiling : Nat) : TilePwr :=
  let ms := min 10 (x.hotMs + 1)
  let hot := decide (100 ≤ temp) || (x.hot && decide (97 ≤ temp))
  let f := x.thermal.getD ceiling
  if 95 ≤ temp ∧ 10 ≤ ms then { x with temp := temp, hot := hot, hotMs := 0, thermal := some (f - 1) }
  else if temp < 92 ∧ 10 ≤ ms ∧ x.thermal.isSome then
    { x with temp := temp, hot := hot, hotMs := 0, thermal := if ceiling ≤ f + 1 then none else some (f + 1) }
  else { x with temp := temp, hot := hot, hotMs := ms }

/-- Events of R587 for one sensor: each threshold that the reading reaches and the one before did not. -/
def thermalEvents (sensor old new : Nat) (marks : List Nat) (trip : Nat) (s : State) : State :=
  let s := marks.foldl (fun s m => if old < m ∧ m ≤ new then
    pldmEvent (.thermal sensor new false) (raiseCause Cause.thermal s) else s) s
  if old < trip ∧ trip ≤ new then pldmEvent (.thermal sensor new true) (raiseCause Cause.thermal s) else s

/-- The readings of a list by index. -/
def readings (l : List Nat) : SMap Nat := ((List.range l.length).zip l).foldl (fun (m : SMap Nat) p => SMap.setD m 0 p.1 (p.2 % 256)) []

/-- THERMAL_SAMPLE: every sensor is read. -/
def execThermalSample (tiles hbms dies : List Nat) (s : State) : Host.Outcome State Fault Refusal :=
  let ts := (tiles ++ List.replicate (256 - tiles.length) 0).take 256 |>.map (· % 256)
  let ss := (hbms ++ List.replicate (20 - hbms.length) 0).take 20 |>.map (· % 256)
  let ds := (dies ++ List.replicate (4 - dies.length) 0).take 4 |>.map (· % 256)
  let old := s
  let s := (List.range 256).foldl (fun (s : State) t => s.modTilePwr t fun x => x.heat (ts.getD t 0) (s.ceiling t)) s
  let hotStack (i : Nat) : Bool := decide (95 ≤ ss.getD i 0) || (s.pcm.stackHot.contains i && decide (92 ≤ ss.getD i 0))
  let s := s.modPcm fun p => { p with
    stackT := readings ss, dieT := readings ds, stackHot := NSet.addAll [] ((List.range 20).filter hotStack) }
  let s := { s with mem := { s.mem with refresh2 := NSet.addAll [] ((List.range 20).filter fun i => decide (85 ≤ ss.getD i 0)) } }
  let s := if !s.pcm.stackHot.isEmpty || s.pcm.tiles.any fun t => t.2.hot then s.pcmCtr fun c => Ctrs.sat c 10 1 else s
  let s := (List.range 256).foldl (fun s t => thermalEvents t (old.tilePwr t).temp (ts.getD t 0) [95, 100] 110 s) s
  let s := (List.range 20).foldl (fun s i => thermalEvents (256 + i) (SMap.getD old.pcm.stackT i 0) (ss.getD i 0) [95] 105 s) s
  let s := (List.range 4).foldl (fun s i => thermalEvents (276 + i) (SMap.getD old.pcm.dieT i 0) (ds.getD i 0) [] 110 s) s
  let s := settlePower s
  if (ts ++ ds).any (fun v => decide (110 ≤ v)) || ss.any fun v => decide (105 ≤ v) then
    done (goFatal 4 { s with sys := { s.sys with thermtrip := true } })
  else .next s

/-! ### Calibration (R584, R585) -/

/-- PMBUS_READ: the answer of a listed regulator in W over a second; the third failure in a row stops its group. -/
def execPmbusRead (reg : Fin 12) (pout : Option Nat) (s : State) : Host.Outcome State Fault Refusal :=
  match s.groupOf reg with
  | none => .next s
  | some g =>
    match pout with
    | some w => .next (s.modPcm fun p => { p with
        measured := SMap.updD p.measured 0 reg (· + w), fails := SMap.setD p.fails 0 reg 0 })
    | none =>
      let n := SMap.getD s.pcm.fails reg 0 + 1
      let s := s.modPcm fun p => { p with fails := SMap.setD p.fails 0 reg n }
      if n = 3 then
        .next (noteHealth ((s.modPcm fun p => { p with stopped := NSet.insert p.stopped g }).pcmCtr fun c => Ctrs.sat c 11 1))
      else .next s

/-- The gain that a group's measured and modelled energies give, in 1/1,024: 0.80 to 1.25 (104). -/
def gainOf (measured model : Nat) : Nat := max 819 (min 1280 ((measured * 1000000 * 1024 * 2 + model) / (2 * model)))

/-- The gains that a calibration sets: those of listed groups that still calibrate. -/
def State.newGains (s : State) : SMap Nat :=
  (List.range 6).foldl (fun (m : SMap Nat) g =>
    let regs := (List.range 12).filter fun r => s.groupOf r == some g
    let model := SMap.getD s.pcm.model g 0
    if regs.isEmpty || s.pcm.stopped.contains g || model = 0 then m
    else SMap.setD m 1024 g (gainOf ((regs.map fun r => SMap.getD s.pcm.measured r 0).foldl (· + ·) 0) model)) s.pcm.gains

/-- PMBUS_CALIBRATION: 60 s of readings are in; the gains apply from the next second. -/
def execPmbusCalibration (s : State) : Host.Outcome State Fault Refusal :=
  if (List.range 12).all fun r => (s.groupOf r).isNone then .next s
  else .next ((s.modPcm fun p => { p with
    gainsNext := some s.newGains, measured := [], model := [], calibrating := false, calibrated := true }).pcmCtr fun c => Ctrs.sat c 12 1)

/-! ### The management controller (R590 to R592, R631, R655) -/

/-- PLDM requests are answered: firmware is ready, or the device rests in S3. -/
def State.mgmtReady (s : State) : Bool := (s.sys.ready && !s.sec.recovery) || s.pcm.sstate == 3

/-- The reading of a sensor. -/
def State.sensor (s : State) (id : Nat) : Option Nat :=
  let p := s.pcm
  if 9 ≤ id ∧ id < 29 then s.stackTemps[id - 9]?
  else if 29 ≤ id ∧ id < 33 then s.dieTemps[id - 29]?
  else match id with
    | 1 => some s.power
    | 2 => some (joules p.energy)
    | 3 => some (joules p.minuteE)
    | 4 => some p.lastJ
    | 5 => some (s.budget.getD 0)
    | 6 => some s.target
    | 7 => some 3300
    | 8 => some (highest s.tileTemps)
    | 33 => some s.healthNow
    | 34 => some p.sstate
    | _ => none

/-- PLDM_SENSOR_READ (R590). -/
def execPldmSensorRead (id : BitVec 16) (s : State) : Host.Outcome State Fault Refusal :=
  if !s.mgmtReady then .next (s.emit .notReady)
  else match s.sensor id.toNat with
    | some v => .next (s.emit (.sensor id.toNat v))
    | none => .next (s.emit .pldmError)

/-- MGMT_CAP_EFFECTER_SET (R592): permitted by the configuration record. -/
def execMgmtCapEffecterSet (watts : Nat) (s : State) : Host.Outcome State Fault Refusal :=
  if !s.mgmtReady then .next (s.emit .notReady)
  else if !(fieldAt s.sec.record 37 1).testBit 1 || decide (watts ≠ 0 ∧ (watts < 1200 ∨ 3000 < watts)) then .next (s.emit .pldmError)
  else .next ((s.modPcm fun p => { p with mgmtCap := watts }).emit .pldmOk)

/-- PLDM_EVENT_READ (R655): the oldest event that waits. -/
def execPldmEventRead (s : State) : Host.Outcome State Fault Refusal :=
  if !s.mgmtReady then .next (s.emit .notReady)
  else match s.pcm.events with
    | e :: es => .next ((s.modPcm fun p => { p with events := es }).emit (.pldm e))
    | [] => .next s

end Sys2Proof.Machine
end

