-- ==== Sys2Proof/Machine/ResetOps.lean ====
section
/-! DEFINITION. What each kind of reset and each sleep state keeps and loses (R619 to R637, R588, R634). -/

namespace Sys2Proof.Machine

/-! ### PWR, PERST and the wake from S3 -/


/-- What lies outside the device, the flash, what no reset restores, and the model's own bookkeeping. -/
def State.outside (s : State) : State :=
  { State.reset with
    pending := s.pending, out := s.out, freeCtr := s.freeCtr, host := s.host, hostBad := s.hostBad, flash := s.flash
    rse := { Rse.reset with slots := s.rse.slots }, sec := s.sec.cleared }

/-- Everything after PWR; pins and the straps' samples stay as they are. The boot ROM does not run yet, and the flash is
held in reset (R654). -/
def pwrLost (s : State) : State :=
  { s.outside with sys := { Sys.reset with
      pwrGood := s.sys.pwrGood, perstN := s.sys.perstN, mainGood := s.sys.mainGood
      mgmtMode := s.sys.mgmtMode, mgmtAddr := s.sys.mgmtAddr, bootStep := 0, xspiResetN := false, xspiDriven := false } }

/-- The colophon descriptor after PERST: only the summary in flash is left (R532). -/
def Colophon.afterPerst (c : Colophon) (dumping : Bool) : Colophon :=
  if c.valid then { c with location := true, size := 0x50000, complete := c.complete && !dumping } else c

/-- Everything after PERST: the always-on domain keeps its record, its counters and its pins (R634); PLDM events that
wait stay until they are read (144). -/
def perstLost (s : State) : State :=
  let t := pwrLost s
  { t with
    sys := { t.sys with
      mainEn := s.sys.mainEn, thermtrip := s.sys.thermtrip, dynAddr := s.sys.dynAddr, cause := s.sys.cause
      running := s.sys.running, mainGoodFell := s.sys.mainGoodFell, mainEnRose := s.sys.mainEnRose, waking := s.sys.waking }
    pcm := { t.pcm with ms := s.pcm.ms, us := s.pcm.us, events := s.pcm.events }
    rse := { t.rse with colo := s.rse.colo.afterPerst s.rse.dumping } }

/-- The supplies that hold the device in reset are good (R620, R645). -/
def State.powered (s : State) : Bool := s.sys.pwrGood && (s.sys.mainGood || !s.sys.mainEn)

/-- Nothing holds the device in reset, and it is not in S3: the boot ROM starts at step 1 (R620). -/
def startBoot (s : State) : State :=
  if s.powered && s.sys.perstN && s.sys.mainEn && s.sys.bootStep == 0 then
    { s with sys := { s.sys with bootStep := 1, xspiResetN := true, xspiDriven := true } }
  else s

/-- PWR begins (R620). -/
def beginPwr (s : State) : State := startBoot (pwrLost s)

/-- PERST, or a wake from S3 that behaves as it, begins (R619, R623): under a PWR that still runs, that goes on. -/
def beginPerst (kind : ResetKind) (s : State) : State :=
  let k := match s.sys.running with
    | some .pwr => ResetKind.pwr
    | some .wake => ResetKind.wake
    | _ => kind
  let s := perstLost s
  startBoot { s with sys := { s.sys with running := some k } }

/-! ### HOT and FLR (R625 to R627) -/

/-- Every tile as TILE reset leaves it, with its counters kept (R625, R634). -/
def resetTiles (keep : Bool) (s : State) : State :=
  (List.range 256).foldl (fun s t =>
    let s := dropTickets t s
    let x := s.tile t
    s.setTile t (if keep then { Tile.reset with ctrs := x.ctrs, tfeCtrs := x.tfeCtrs } else Tile.reset)) s

/-- Configuration space, BAR sizes and the MSI-X table are lost; the link's rate and width too when it went down
(R546, R634, R636). -/
def losePcie (linkDown : Bool) (s : State) : State :=
  { s with
    hif := { s.hif with
      bar2Size := Hif.reset.bar2Size, msixTable := [], msixPba := 0, cfg := []
      pcieRate := if linkDown then 0 else s.hif.pcieRate, pcieWidth := if linkDown then 0 else s.hif.pcieWidth }
    sec := { s.sec with spdmDoe := Spdm.reset } }

/-- Mailboxes, interrupt registers and routing, completion ring, window base and partition are lost (R554, R634). -/
def loseHif (s : State) : State :=
  { s with hif := { Hif.reset with
      bar2Size := s.hif.bar2Size, msixTable := s.hif.msixTable, msixPba := s.hif.msixPba, cfg := s.hif.cfg
      pcieRate := s.hif.pcieRate, pcieWidth := s.hif.pcieWidth, mirror := s.hif.mirror, ctrs := s.hif.ctrs } }

/-- A page move that PAGE_MIGRATE had begun is abandoned: what it took is free again (R554). -/
def abandonMove (part : Nat) (s : State) : State :=
  let ps := s.ptu.pages.filter fun p => keyPart p.1 == part && p.2.motion && !(s.pageXfers p.1 p.2).isEmpty
  ps.foldl (fun s p =>
    let xs := s.pageXfers p.1 p.2
    let s := s.modPtu fun q => { q with xfers := SMap.cut q.xfers p.1 p.2.frames }
    let s := s.modPage p.1 fun g => { g with motion := false }
    (xs.filter fun x => x.2.dest.isNone).foldl (fun s x => releaseFrames x.2.frame 1 s) s) s

/-- Commands that were in progress are abandoned whole (R554). -/
def abandonCmds (s : State) : State :=
  let s := s.ptu.moves.foldl (fun s m => abandonMove m.1 s) s
  { s with
    ptu := { s.ptu with moves := [] }
    spine := { s.spine with starting := none }
    pcm := { s.pcm with calibrating := false } }

/-- The ingest engine stops as IGE_STOP stops it; its retained record stays. -/
def stopIngest (s : State) : State :=
  s.modIge fun g => { g with
    running := false, open_ := false, fill := 0, tail := [], sample := none, skips := 0, wait := none, waitsRelease := false
    touched := false }

/-- A schedule runs: FAULT of class 2 and cause 0x20 goes out, and the device isolates itself (R622, R627). -/
def leaveHerd (s : State) : State :=
  if s.spine.running && s.rse.fatal.isNone then isolate (ownFault 2 0x20 St.peerLost s) else s

/-- What HOT and FLR do (R625). -/
def applyHot (linkDown : Bool) (s : State) : State :=
  let s := leaveHerd s
  let s := s.runningChans.foldl (fun s c => stopChan c 6 s) s
  let s := (List.range 32).foldl (fun s l => s.modLink l Link.dropTraffic) s
  let s := resetTiles true { s with chans := Chans.reset }
  let s := eachSlot rewindSlot (stopIngest (abandonCmds s))
  let s := clearRegions { s with mem := s.mem.mapFx rewindBlock }
  let s := clearInj (losePcie linkDown (loseHif s))
  { s with sec := { s.sec with debug := 0, meas := SMap.del s.sec.meas 6 } }

/-- HOT or FLR begins. It completes at once when nothing of higher rank runs; under PWR, PERST, DEV or a wake, that goes
on and takes the PCIe configuration reset with it (R623, 145). -/
def beginHot (kind : ResetKind) (s : State) : State :=
  let down := kind == .hot
  match s.sys.running with
  | some _ => losePcie down s
  | none =>
    let s := applyHot down s
    { s with sys := { s.sys with cause := kind.code } }

/-! ### Sleep (R588) -/

/-- Every line leaves the shared cache. -/
def flushCache (s : State) : State := s.mem.shc.foldl (fun s e => shcEvict e.1 s) s

/-- HBM in self-refresh, with the bitmap in the firmware reserve (R280, R588, R628). -/
def parkHbm (s : State) : State :=
  let s := flushCache s
  { s with mem := { s.mem with saved := some s.mem.written, selfRefresh := true } }

/-- A link at the entry to S2: an Active one sends HOLD and is Held; one that trains starts over later (R405, 146). -/
def holdLink (l : Nat) (s : State) : State :=
  let x := s.link l
  if x.st = 3 then
    (sendControl l (shortMsg 4) s).modLink l fun x => { (x.fresh 8) with outSince := none, hello := x.hello, joined := x.joined }
  else if x.st = 1 ∨ x.st = 2 ∨ x.st = 4 ∨ x.st = 5 ∨ x.st = 6 then s.modLink l fun x => { x.fresh 1 with signal := false }
  else s

/-- A link at the exit from S2: a Held one retrains, and one that trained goes on (R405). -/
def wakeLink (l : Nat) (s : State) : State :=
  let up := s.modLink l fun x => { x with signal := true }
  if (s.link l).st = 8 then startRetrain l up else if (s.link l).st = 1 then beginTraining l 1 up else s

/-- S0 or S1 to S2: tile state is lost, tile counters are kept (R588, R635). -/
def enterS2 (s : State) : State :=
  let s := parkHbm s
  let s := (List.range 32).foldl (fun s l => holdLink l s) s
  let s := resetTiles true s
  s.modPcm fun p => { p with
    sstate := 2, diesOn := false, tiles := p.tiles.map fun (t : Nat × TilePwr) => (t.1, { t.2 with freq := 0, change := none, relock := none, stretched := false }) }

/-- S2 to S0: the dies are powered, the clocks start, HBM leaves self-refresh, the bitmap is restored and the links
retrain in ascending order. -/
def exitS2 (s : State) : State :=
  let s := s.modPcm fun p => { p with sstate := 0, diesOn := true }
  let s := { s with mem := { s.mem with selfRefresh := false, written := s.mem.saved.getD s.mem.written, saved := none } }
  (List.range 32).foldl (fun s l => wakeLink l s) (startClocks s)

/-- S2 to S3: MAIN_EN falls; everything but the always-on domain is lost, while energy accounting and the management
bus go on (R588, R589, R646). -/
def enterS3 (s : State) : State :=
  let t := perstLost s
  { t with
    sys := { t.sys with mainEn := false, running := none, waking := false, xspiResetN := true, xspiDriven := true }
    pcm := { s.pcm with sstate := 3, diesOn := false, calibrating := false, tiles := [] }
    sec := { t.sec with record := s.sec.record } }

/-- Raise MAIN_EN for a wake that waits, never earlier than 10 ms after MAIN_GOOD fell (R646). -/
def raiseMainEn (s : State) : State :=
  if s.sys.waking && !s.sys.mainEn && !s.sys.mainGood && decide (s.sys.mainGoodFell + 10 ≤ s.pcm.ms) then
    { s with sys := { s.sys with mainEn := true, mainEnRose := s.pcm.ms } }
  else s

/-- A wake from S3 begins (R588, R646). -/
def beginWake (s : State) : State :=
  if s.pcm.sstate == 3 then raiseMainEn { s with sys := { s.sys with waking := true } } else s

/-! ### DEV (R628, R629) -/

/-- What DEV keeps of the memory system: contents, marks, the bitmap, the rate and the hot-bank log. -/
def Hbm.afterDev (m : Hbm) : Hbm :=
  { Hbm.reset with
    rate := m.rate, declared := m.declared, failed := m.failed, bytes := m.bytes, written := m.written, bitmapBad := m.bitmapBad
    saved := m.saved, selfRefresh := m.selfRefresh, refresh2 := m.refresh2, poison := m.poison, damage := m.damage
    hotLog := m.hotLog }

/-- What DEV keeps of the resilience engine: logs, the retirement list, the colophon. -/
def Rse.afterDev (r : Rse) : Rse :=
  { Rse.reset with
    log := r.log, nextSeq := r.nextSeq, recent := r.recent, takeoverRec := r.takeoverRec
    retired := r.retired, retirePend := r.retirePend, banks := r.banks, rows := r.rows, colo := r.colo, dump := r.dump
    slots := r.slots }

/-- What DEV keeps of the power manager: energy accounting, readings and the always-on counters. -/
def Pcm.afterDev (p : Pcm) : Pcm :=
  { Pcm.reset with
    tiles := p.tiles.map fun (t : Nat × TilePwr) => (t.1, { TilePwr.reset with temp := t.2.temp, freq := t.2.freq })
    samples := p.samples, peaks := p.peaks, levels := p.levels, align := p.align, minuteE := p.minuteE, minute := p.minute
    lastJ := p.lastJ, lastBudget := p.lastBudget, lastOver := p.lastOver, secondE := p.secondE, energy := p.energy
    model := p.model, gains := p.gains, gainsNext := p.gainsNext, measured := p.measured, fails := p.fails
    stopped := p.stopped, calibrated := p.calibrated, stackT := p.stackT, dieT := p.dieT, ms := p.ms, us := p.us
    events := p.events, health := p.health }

/-- DEV (R628): from S1 or S2 the device returns to S0 first (R629). -/
def beginDev (s : State) : State :=
  let s := if s.pcm.sstate = 2 then exitS2 s else s
  let s := s.runningChans.foldl (fun s c => stopChan c 6 s) s
  let s := loseHif (resetTiles false (parkHbm s))
  let kept := s
  let s := { s.outside with
    sys := { s.sys with bootStep := 2, ready := false, running := some .dev, devPending := false, refBad := [] }
    hif := { s.hif with ctrs := [] }
    mem := kept.mem.afterDev
    rse := kept.rse.afterDev
    links := { Links.reset with events := kept.links.events }
    ige := { Ige.reset with skipLog := kept.ige.skipLog }
    pcm := kept.pcm.afterDev
    sec := { kept.sec.cleared with meas := kept.sec.meas.filter fun m => m.1 == 5 } }
  noteHealth (updateMirror s)

end Sys2Proof.Machine
end

