-- ==== Sys2Proof/Machine/ResetEvents.lean ====
section
/-! DEFINITION. The power pins (R643 to R647, R655), the resets (R619 to R630) and the sleep transitions (R588). -/

namespace Sys2Proof.Machine

/-! ### PWR_GOOD, PERST_N, MAIN_GOOD -/

/-- PWR_GOOD_RISE (R620, R655): the straps are sampled, and PWR begins once MAIN_GOOD is high too. -/
def execPwrGoodRise (mgmtMode : Bool) (mgmtAddr : BitVec 2) (s : State) : Host.Outcome State Fault Refusal :=
  if s.sys.pwrGood then .next s
  else .next (beginPwr { s with sys := { s.sys with pwrGood := true, mgmtMode := mgmtMode, mgmtAddr := mgmtAddr } })

/-- PWR_GOOD_FALL (R620, R647): the device is held in reset, whatever its state was. -/
def execPwrGoodFall (s : State) : Host.Outcome State Fault Refusal :=
  .next (pwrLost { s with sys := { s.sys with pwrGood := false } })

/-- PERST_ASSERT (R619, R620, R623): in S3 it is a wake. -/
def execPerstAssert (s : State) : Host.Outcome State Fault Refusal :=
  let t := { s with sys := { s.sys with perstN := false } }
  if !s.sys.perstN then .next s
  else if !s.powered then .next t
  else if s.pcm.sstate = 3 then .next (beginWake t)
  else .next (beginPerst .perst t)

/-- PERST_RELEASE (R620): boot step 1 starts while nothing else holds the device in reset. -/
def execPerstRelease (s : State) : Host.Outcome State Fault Refusal :=
  .next (startBoot { s with sys := { s.sys with perstN := true } })

/-- MAIN_GOOD_FALL (R645, R646): while MAIN_EN is high, as PWR_GOOD low; in S3 the board has only followed MAIN_EN. -/
def execMainGoodFall (s : State) : Host.Outcome State Fault Refusal :=
  let t := { s with sys := { s.sys with mainGood := false } }
  if !s.sys.mainGood then .next s
  else if s.sys.mainEn && s.pcm.sstate != 3 then .next (pwrLost t)
  else .next (raiseMainEn { t with sys := { t.sys with mainGoodFell := s.pcm.ms } })

/-- MAIN_GOOD_RISE (R645, R646): a wake that waits for it runs as PERST; after a fall with MAIN_EN high, PWR begins. -/
def execMainGoodRise (s : State) : Host.Outcome State Fault Refusal :=
  let t := { s with sys := { s.sys with mainGood := true } }
  if s.sys.mainGood then .next s
  else if s.pcm.sstate = 3 then
    if s.sys.waking && s.sys.mainEn then
      .next (beginPerst .wake { t with sys := { t.sys with waking := false } })
    else .next t
  else if s.sys.pwrGood then .next (beginPwr t)
  else .next t

/-- MAIN_EN_WAKE_TIMEOUT (R646): the device stays in S3 and sends sensor 33's event. -/
def execMainEnWakeTimeout (s : State) : Host.Outcome State Fault Refusal :=
  if s.pcm.sstate == 3 && s.sys.waking && s.sys.mainEn && !s.sys.mainGood && decide (s.sys.mainEnRose + 100 ≤ s.pcm.ms) then
    .next (pldmEvent (.sensor33 s.healthNow) { s with sys := { s.sys with mainEn := false, waking := false } })
  else .next s

/-! ### Resets -/

/-- A reset can reach the host interface: the device is not held in reset and does not rest in S3 (R620, R630). -/
def State.reachable (s : State) : Bool := s.sys.bootStep != 0 && s.pcm.sstate != 3

/-- HOT_RESET (R623, R625 to R627). -/
def execHotReset (s : State) : Host.Outcome State Fault Refusal := if s.reachable then done (beginHot .hot s) else .next s

/-- FLR (R623, R625 to R627, R636). -/
def execFlr (s : State) : Host.Outcome State Fault Refusal :=
  if s.reachable && s.configOpen then done (beginHot .flr s) else .next s

/-- DEV_RESET_START (R567, R608, R628): 1 ms after the command that asked for it. -/
def execDevResetStart (s : State) : Host.Outcome State Fault Refusal :=
  if s.sys.devPending && s.sys.ready then .next (beginDev s) else .next s

/-- MGMT_DEV_MESSAGE (R621, R622, R627, R629): DEV in every state but S3, after FAULT and isolation while a schedule
runs. -/
def execMgmtDevMessage (s : State) : Host.Outcome State Fault Refusal :=
  if !s.reachable then .next s
  else if !s.mgmtReady then .next (s.emit .notReady)
  else .next (beginDev (leaveHerd s))

/-! ### Sleep -/

/-- SLEEP_TRANSITION_DONE (R588): the transition that SLEEP_ENTER began is over; work that has started meanwhile keeps the
device awake (R589, 134). -/
def execSleepTransitionDone (s : State) : Host.Outcome State Fault Refusal :=
  match s.pcm.sleepTo with
  | none => .next s
  | some goal =>
    let t := if s.atWork then 0 else goal
    let s := s.modPcm fun p => { p with sleepTo := none }
    let up := if s.pcm.sstate = 2 then exitS2 s else s
    match t with
    | 0 => .next (up.modPcm fun p => { p with sstate := 0 })
    | 1 => .next (up.modPcm fun p => { p with sstate := 1 })
    | 2 => .next (if s.pcm.sstate = 2 then s else enterS2 s)
    | _ => .next (enterS3 (if s.pcm.sstate = 2 then s else enterS2 s))

/-- PLDM_WAKE_REQUEST (R588, R646): in S3 it wakes the device. -/
def execPldmWakeRequest (s : State) : Host.Outcome State Fault Refusal := .next (beginWake s)

end Sys2Proof.Machine
end

