-- ==== Sys2Proof/Machine/SecCmds.lean ====
section
/-! DEFINITION. The commands of security and boot (R607, R608, R614, R616, R618). -/

namespace Sys2Proof.Machine

/-! ### Reports (R609, R613, R614, R618) -/

/-- GET_MEASUREMENTS. -/
def cmdGetMeasurements (a : Nat → Nat) (s : State) : Reply :=
  report (a 0) ((List.range 6).flatMap fun i => s.measure (i + 1)) [] s

/-- GET_MEASUREMENTS (R609, R618). -/
def execGetMeasurements (mb : Fin 16) (s : State) : Host.Outcome State Fault Refusal := runCmd mb 0x0901 1 cmdGetMeasurements s

/-- GET_CERTIFICATE: the chain and its length. -/
def cmdGetCertificate (a : Nat → Nat) (s : State) : Reply :=
  checked [(decide (a 1 < s.chain.length), St.range)] (report (a 0) s.chain [s.chain.length] s)

/-- GET_CERTIFICATE (R613, R618). -/
def execGetCertificate (mb : Fin 16) (s : State) : Host.Outcome State Fault Refusal := runCmd mb 0x0902 2 cmdGetCertificate s

/-- The signed part of an attestation report. -/
def attestBody (mask : Nat) (nonce : List Byte) (s : State) : List Byte :=
  natLe 4 0x50524644 ++ natLe 8 s.sec.deviceId.toNat ++ natLe 6 s.spine.tick ++ natLe 2 mask ++ nonce ++ natLe 12 0
    ++ (bitsOf 7 mask).flatMap fun i => natLe 1 i ++ natLe 7 0 ++ s.measure i

/-- ATTEST_SIGN: a report signed with the alias key; E_BUSY when the SEC has signed for another caller for over 100 ms. -/
def cmdAttestSign (secWaitMs : Nat) (a : Nat → Nat) (s : State) : Reply :=
  checked [(decide (a 4 = 0 ∨ 128 ≤ a 4) || (a 4).testBit 0, St.badArg), (decide (100 < secWaitMs), St.busy)]
    (let body := attestBody (a 4) ((List.range 4).flatMap fun i => natLe 8 (a i)) s
     let d := s.draw
     let r := body ++ Config.signature 1 d.1 body
     report (a 5) r [r.length] d.2)

/-- ATTEST_SIGN (R614, R618). -/
def execAttestSign (mb : Fin 16) (secWaitMs : Nat) (s : State) : Host.Outcome State Fault Refusal :=
  runCmd mb 0x0903 6 (cmdAttestSign secWaitMs) s

/-- CONFIG_RECORD_READ: the configuration record and its length. -/
def cmdConfigRecordRead (a : Nat → Nat) (s : State) : Reply := report (a 0) s.sec.record [s.sec.record.length] s

/-- CONFIG_RECORD_READ (R604, R618). -/
def execConfigRecordRead (mb : Fin 16) (s : State) : Host.Outcome State Fault Refusal := runCmd mb 0x0904 1 cmdConfigRecordRead s

/-! ### Field update (R608) -/

/-- An image's length lies between its header's and the firmware region's. -/
def imageLengthOk (n : Nat) : Bool := decide (4096 ≤ n ∧ n ≤ imageRegion)

/-- FW_IMAGE_STAGE: the image is copied and checked; a staged image that fails raises SECURITY. -/
def cmdFwImageStage (sigValid : Bool) (a : Nat → Nat) (s : State) : Reply :=
  checked [(!imageLengthOk (a 1), St.range)]
    (withRecord (a 0) (a 1) 64 s fun r s =>
      let h := r.take 4096
      if a 1 ≠ 4096 + bodyLength h ∨ (imageFault h (r.drop 4096) s.sec.record sigValid).isSome then
        .failed St.signature (raiseCause Cause.security s)
      else .ok [fieldAt h 8 4, fieldAt h 20 4] { s with sec := { s.sec with staged := some r } })

/-- FW_IMAGE_STAGE (R603, R608, R617). -/
def execFwImageStage (mb : Fin 16) (sigValid : Bool) (s : State) : Host.Outcome State Fault Refusal :=
  runCmd mb 0x0905 2 (cmdFwImageStage sigValid) s

/-- FW_IMAGE_ACTIVATE: the staged image is written and read again; DEV follows 1 ms later. What the flash holds after the
write is the operand: where it is not the staged image, the next boot finds no valid one (161). -/
def cmdFwImageActivate (reread : List Byte) (_ : Nat → Nat) (s : State) : Reply :=
  match s.sec.staged with
  | none => .fail St.state
  | some img =>
    checked [(!s.runningChans.isEmpty || s.spine.running || s.rse.window == 1 || s.rse.window == 2, St.state)]
      (let s := flashWrite imageOffset (reread.take img.length) s
       if reread = img then .ok [] { s with sys := { s.sys with devPending := true } }
       else .failed St.signature (raiseCause Cause.security s))

/-- FW_IMAGE_ACTIVATE (R608, R617). -/
def execFwImageActivate (mb : Fin 16) (reread : List Byte) (s : State) : Host.Outcome State Fault Refusal :=
  runCmd mb 0x0906 0 (cmdFwImageActivate reread) s

/-! ### Image recovery (R607) -/

/-- A pushed firmware image: the header is checked first, then the image is written and its body's digest checked. -/
def pushImage (r : List Byte) (sigValid : Bool) (s : State) : Reply :=
  let h := r.take 4096
  if (headerFault h s.sec.record sigValid).isSome then .fail St.signature
  else if r.length ≠ 4096 + bodyLength h then .fail St.range
  else
    let s := flashWrite imageOffset r s
    if (imageFault h (r.drop 4096) s.sec.record sigValid).isSome then .failed St.signature s else .ok [] (reboot s)

/-- A pushed configuration record with its helper data: the record is checked but for DEVICE_ID, which is derived
again from the new helper data (139). -/
def pushRecord (r : List Byte) (sigValid : Bool) (s : State) : Reply :=
  let n := recordLength r
  if r.length ≠ n + 65536 then .fail St.range
  else if !recordForm r || !sigValid then .fail St.signature
  else
    let d := (flashWrite helperOffset (r.drop n) (flashWrite 0 (r.take n) s)).draw
    let pub := Config.pufKey d.1
    let id := leNat ((sha3 pub).take 8)
    if (recordFault (r.take n) id sigValid).isSome then .failed St.signature d.2
    else .ok [] (reboot { d.2 with sec := { d.2.sec with idPub := pub, deviceId := BitVec.ofNat 64 id } })

/-- IMAGE_PUSH: in image recovery only, over a host-bus pointer. -/
def cmdImagePush (sigValid : Bool) (a : Nat → Nat) (s : State) : Reply :=
  let onHost := match ptrOf (a 1) with
    | some (.host _) => true
    | _ => false
  checked
    [ (!s.sec.recovery, St.state), (decide (1 < a 0) || !onHost, St.badArg),
      (if a 0 = 0 then !imageLengthOk (a 2) else decide (a 2 < 4052 + 65536 ∨ 131072 < a 2), St.range) ]
    (withRecord (a 1) (a 2) 64 s fun r s => if a 0 = 0 then pushImage r sigValid s else pushRecord r sigValid s)

/-- IMAGE_PUSH (R607). -/
def execImagePush (mb : Fin 16) (sigValid : Bool) (s : State) : Host.Outcome State Fault Refusal :=
  runCmd mb 0x0907 3 (cmdImagePush sigValid) s

/-! ### Debug (R616, R617) -/

/-- DEBUG_CHALLENGE: a new nonce takes the place of the last. -/
def cmdDebugChallenge (_ : Nat → Nat) (s : State) : Reply :=
  checked [(!s.debugPermitted, St.auth)]
    (let d := s.draw
     let nonce := (List.range 32).map (Config.random d.1)
     .ok ((List.range 4).map (fun i => fieldAt nonce (8 * i) 8) ++ [s.sec.deviceId.toNat])
      { d.2 with sec := { d.2.sec with nonce := some (nonce, s.pcm.us) } })

/-- DEBUG_CHALLENGE (R616). -/
def execDebugChallenge (mb : Fin 16) (s : State) : Host.Outcome State Fault Refusal := runCmd mb 0x0908 0 cmdDebugChallenge s

/-- Debug opens at a level: measurement 5 takes the level and DEVICE_ID, SECURITY is raised and a PLDM event sent. -/
def openDebug (level : Nat) (s : State) : State :=
  let s := extendMeas 5 (natLe 1 level ++ natLe 8 s.sec.deviceId.toNat) { s with sec := { s.sec with debug := level } }
  pldmEvent (.debug level) (raiseCause Cause.security s)

/-- DEBUG_UNLOCK's own checks and effect. -/
def tryUnlock (sigValid : Bool) (a : Nat → Nat) (s : State) : Reply :=
  checked
    [ ((List.range 13).any fun i => a (i + 2) != 0, St.badArg), (!s.debugPermitted, St.auth),
      (decide (a 0 = 0 ∨ 2 < a 0), St.range), (!s.nonceValid, St.state) ]
    (withRecord (a 1) 2420 64 s fun _ s =>
      if sigValid then .ok [] (openDebug (a 0) s) else .failed St.signature s)

/-- DEBUG_UNLOCK: whether it succeeds or fails, the nonce is used up. -/
def cmdDebugUnlock (sigValid : Bool) (a : Nat → Nat) (s : State) : Reply :=
  match tryUnlock sigValid a s with
  | .ok res s' => .ok res (dropNonce s')
  | .fail e => .failed e (dropNonce s)
  | .failed e s' => .failed e (dropNonce s')
  | .wait s' => .wait s'

/-- DEBUG_UNLOCK (R616, R618). -/
def execDebugUnlock (mb : Fin 16) (sigValid : Bool) (s : State) : Host.Outcome State Fault Refusal :=
  runCmd mb 0x0909 15 (cmdDebugUnlock sigValid) s

/-- DEBUG_LOCK (R616, R617). -/
def execDebugLock (mb : Fin 16) (s : State) : Host.Outcome State Fault Refusal :=
  runCmd mb 0x090A 0 (fun _ s => .ok [] (closeDebug s)) s

end Sys2Proof.Machine
end

