-- ==== Sys2Proof/Machine/SpdmOps.lean ====
section
/-! DEFINITION. The SPDM 1.2 responder (R612, R613): its messages and its two connection contexts. R612 names the
standard and what it supports; the layout of the messages is DMTF DSP0274's (141). -/

namespace Sys2Proof.Machine

namespace Sp
abbrev getVersion : Nat := 0x84
abbrev getCapabilities : Nat := 0xE1
abbrev negotiate : Nat := 0xE3
abbrev getDigests : Nat := 0x81
abbrev getCertificate : Nat := 0x82
abbrev challenge : Nat := 0x83
abbrev getMeasurements : Nat := 0xE0
end Sp

/-- The requests that are supported. -/
def spdmRequests : List Nat :=
  [Sp.getVersion, Sp.getCapabilities, Sp.negotiate, Sp.getDigests, Sp.getCertificate, Sp.challenge, Sp.getMeasurements]

/-- A message's first four bytes. -/
def spdmHead (version code p1 p2 : Nat) : List Byte := natLe 1 version ++ natLe 1 code ++ natLe 1 p1 ++ natLe 1 p2

/-- ERROR with a code and its data. -/
def spdmError (code data : Nat) : List Byte := spdmHead 0x12 0x7F code data

namespace SpErr
abbrev invalid : Nat := 0x01
abbrev unexpected : Nat := 0x04
abbrev unsupported : Nat := 0x07
abbrev version : Nat := 0x41
end SpErr

/-- The context of a transport. -/
def State.spdm (s : State) (mctp : Bool) : Spdm := if mctp then s.sec.spdmMctp else s.sec.spdmDoe

/-- Change the context of a transport. -/
def State.setSpdm (s : State) (mctp : Bool) (c : Spdm) : State :=
  if mctp then { s with sec := { s.sec with spdmMctp := c } } else { s with sec := { s.sec with spdmDoe := c } }

/-- The chain as SPDM carries it: length, reserved, root digest, certificates. -/
def State.spdmChain (s : State) : List Byte :=
  natLe 2 (4 + 32 + s.chain.length) ++ natLe 2 0 ++ sha3 (recordEntry s.sec.record 6) ++ s.chain

/-- VERSION: 1.2 alone. -/
def versionRsp : List Byte := spdmHead 0x10 0x04 0 0 ++ natLe 1 0 ++ natLe 1 1 ++ natLe 2 0x1200

/-- CAPABILITIES: CT exponent 16; certificates, challenge and signed measurements. -/
def capsRsp : List Byte :=
  spdmHead 0x12 0x61 0 0 ++ natLe 1 0 ++ natLe 1 16 ++ natLe 2 0 ++ natLe 4 0x16 ++ natLe 4 Config.spdmSize ++ natLe 4 Config.spdmMessage

/-- The extended algorithm entry: registry 3, algorithm 1. -/
def extAlg : List Byte := natLe 1 3 ++ natLe 1 0 ++ natLe 2 1

/-- The requester offers SHA3-256, the DMTF measurements and the extended algorithm. -/
def offersAlgs (m : List Byte) : Bool :=
  (fieldAt m 6 1).testBit 0 && (fieldAt m 12 4).testBit 3
    && (List.range (fieldAt m 28 1)).any fun i => (m.drop (32 + 4 * i)).take 4 == extAlg

/-- ALGORITHMS: what is selected, or nothing. -/
def algsRsp (m : List Byte) : List Byte :=
  let ok := offersAlgs m
  let body := natLe 1 (bit ok 0) ++ natLe 1 0 ++ natLe 4 (bit ok 4) ++ natLe 4 0 ++ natLe 4 (bit ok 3) ++ natLe 12 0
    ++ natLe 1 (bit ok 0) ++ natLe 1 0 ++ natLe 2 0 ++ (if ok then extAlg else [])
  spdmHead 0x12 0x63 0 0 ++ natLe 2 (6 + body.length) ++ body

/-- DIGESTS of slot 0. -/
def digestsRsp (s : State) : List Byte := spdmHead 0x12 0x01 0 1 ++ sha3 s.spdmChain

/-- A portion of the chain. -/
def certRsp (m : List Byte) (s : State) : List Byte :=
  let c := s.spdmChain
  let off := fieldAt m 4 2
  let part := (c.drop off).take (fieldAt m 6 2)
  if fieldAt m 2 1 % 16 ≠ 0 ∨ c.length ≤ off then spdmError SpErr.invalid 0
  else spdmHead 0x12 0x02 0 0 ++ natLe 2 part.length ++ natLe 2 (c.length - off - part.length) ++ part

/-- The measurement block of an index. -/
def measBlock (s : State) (i : Nat) : List Byte :=
  natLe 1 i ++ natLe 1 1 ++ natLe 2 35 ++ [Config.spdmType i] ++ natLe 2 32 ++ s.measure i

/-- A signed answer: the signature of the alias key covers the transcript. -/
def spdmSigned (seen m body : List Byte) (s : State) : List Byte × State :=
  let d := s.draw
  (body ++ Config.signature 1 d.1 (seen ++ m ++ body), d.2)

/-- CHALLENGE_AUTH. -/
def challengeRsp (seen m : List Byte) (s : State) : List Byte × State :=
  let kind := fieldAt m 3 1
  if fieldAt m 2 1 ≠ 0 ∨ ¬ (kind = 0 ∨ kind = 1 ∨ kind = 0xFF) then (spdmError SpErr.invalid 0, s)
  else
    let idx := if kind = 1 then [1, 2, 3, 4] else List.range 6 |>.map (· + 1)
    let sum := if kind = 0 then [] else sha3 (idx.flatMap (measBlock s))
    spdmSigned seen m (spdmHead 0x12 0x03 0 1 ++ sha3 s.spdmChain ++ (m.drop 4).take 32 ++ sum ++ natLe 2 0) s

/-- MEASUREMENTS: their count, one of them, or all; signed when the request asks for it. -/
def measRsp (seen m : List Byte) (s : State) : List Byte × State :=
  let op := fieldAt m 3 1
  let signed := (fieldAt m 2 1).testBit 0
  if 6 < op ∧ op ≠ 0xFF then (spdmError SpErr.invalid 0, s)
  else
    let idx := if op = 0 then [] else if op = 0xFF then List.range 6 |>.map (· + 1) else [op]
    let rec_ := idx.flatMap (measBlock s)
    let body := spdmHead 0x12 0x60 (if op = 0 then 6 else 0) 0 ++ natLe 1 idx.length ++ natLe 3 rec_.length ++ rec_
    if signed then spdmSigned seen m (body ++ (m.drop 4).take 32 ++ natLe 2 0) s
    else
      let d := s.draw
      (body ++ (List.range 32).map (Config.random d.1) ++ natLe 2 0, d.2)

/-- An SPDM request arrives while its transport is not open: DOE before configuration requests complete, MCTP before
firmware is ready. -/
def spdmClosed (mctp open_ : Bool) (s : State) : Option State :=
  if open_ then none else if mctp then some (s.emit .notReady) else some s

/-- Answer a request of a code: the version must be negotiated, and what comes before it in the standard's order done. -/
def spdmAnswer (mctp : Bool) (code : Nat) (m : List Byte) (before : Spdm → Bool) (after : Spdm → Spdm)
    (f : List Byte → State → List Byte × State) (s : State) : State :=
  let c := s.spdm mctp
  if fieldAt m 0 1 ≠ (if code = Sp.getVersion then 0x10 else 0x12) then s.emit (.spdm mctp (spdmError SpErr.version 0))
  else if !before c then s.emit (.spdm mctp (spdmError SpErr.unexpected 0))
  else
    let r := f c.transcript s
    let c := after c
    (r.2.setSpdm mctp { c with transcript := c.transcript ++ m ++ r.1 }).emit (.spdm mctp r.1)

end Sys2Proof.Machine
end

