-- ==== Sys2Proof/Machine/SecEvents.lean ====
section
/-! DEFINITION. Boot (R598, R603 to R605, R609, R265, R631), the run-time check of Camlo's code (R611), SPDM (R612),
and the other requests of the management bus, of Data Object Exchange and of the JTAG port (R536, R615, R631, R655). -/

namespace Sys2Proof.Machine

/-! ### Boot steps 2 to 7 -/

/-- The boot ROM runs a step. -/
def State.booting (s : State) (n : Nat) : Bool := s.sys.bootStep == n && !s.sec.recovery

/-- Go on with a boot step. -/
def toStep (n : Nat) (s : State) : State := { s with sys := { s.sys with bootStep := n } }

/-- BOOT_PUF_DERIVE (R598): the keys exist, and DEVICE_ID is that of the identity public key. -/
def execBootPufDerive (idPub : List Byte) (s : State) : Host.Outcome State Fault Refusal :=
  if !(s.booting 1 || s.booting 2) then .next s
  else .next (toStep 3 { s with sec := { s.sec with
    keys := true, idPub := idPub, deviceId := BitVec.ofNat 64 (leNat ((sha3 idPub).take 8)) } })

/-- CONFIG_RECORD_CHECK (R604, R605). -/
def execConfigRecordCheck (sigValid : Bool) (s : State) : Host.Outcome State Fault Refusal :=
  if !s.booting 3 then .next s
  else
    let r := s.flashRead 0 (recordLength (s.flashRead 0 64))
    match recordFault r s.sec.deviceId.toNat sigValid with
    | some e => .next (enterRecovery 3 e s)
    | none => .next (toStep 4 { s with sec := { s.sec with record := r, lotCode := BitVec.ofNat 72 (fieldAt r 16 9) } })

/-- IMAGE_LOAD_CHECK (R603, R605). -/
def execImageLoadCheck (sigValid : Bool) (s : State) : Host.Outcome State Fault Refusal :=
  if !s.booting 4 then .next s
  else
    let h := s.flashRead imageOffset 4096
    match imageFault h (s.flashRead (imageOffset + 4096) (bodyLength h)) s.sec.record sigValid with
    | some e => .next (enterRecovery 4 e s)
    | none => .next (toStep 5 { s with sec := { s.sec with
        header := h, fwVersion := BitVec.ofNat 32 (fieldAt h 8 4), fwBuild := BitVec.ofNat 32 (fieldAt h 12 4) } })

/-- Measurements 1 to 4, in order: the ROM version, the record, the header, SVN with MIN_SVN (R609, 143). -/
def bootMeasures (s : State) : List (List Byte) :=
  [ (List.range 32).map Config.romVersion, sha3 s.sec.record, sha3 s.sec.header,
    padTo 32 (natLe 4 (fieldAt s.sec.header 20 4) ++ natLe 4 (fieldAt s.sec.record 32 4)) ]

/-- MEASUREMENTS_RECORD (R609, R613): steps 5 and 6; Camlo runs. -/
def execMeasurementsRecord (s : State) : Host.Outcome State Fault Refusal :=
  if !s.booting 5 then .next s
  else
    let ms := bootMeasures s
    let d := s.draw
    .next (toStep 7 { d.2 with sec := { d.2.sec with
      meas := ((List.range 4).zip ms).foldl (fun (m : SMap (List Byte)) p => SMap.put m (p.1 + 1) p.2) d.2.sec.meas
      aliasCert := Config.certificate d.1 ms.flatten } })

/-- The data rate: the highest that exceeds neither MEM_RATE nor what any stack declares (R265). -/
def memRate (record : List Byte) (declared : List Nat) : Nat := declared.foldl min (min 4 (byteAt record 38))

/-- A die's reference clock failed its check (R659): an error of class 4. -/
def noteRef (die : Nat) (s : State) : State := logError (LogRec.make 5 0x00 St.ok die) s

/-- The stacks whose device identification fits and that trained (R263, R264). -/
def stacksUp (ids : List StackId) (stackOk : BitVec 20) : BitVec 20 :=
  (List.range 20).foldl (fun (b : BitVec 20) i =>
    if stackOk.getLsbD i && ((ids[i]?).map StackId.fits).getD false then b ||| (1 : BitVec 20) <<< i else b) 0

/-- HBM_TRAINING (R49, R263, R264, R265, R569, R659): the dies are powered, the stacks identified and trained, the clocks
started. After DEV the stacks leave self-refresh at the rate chosen before, and the bitmap is restored (R628). -/
def execHbmTraining (ids : List StackId) (stackOk : BitVec 20) (refOk : BitVec 4) (s : State) :
    Host.Outcome State Fault Refusal :=
  if !s.booting 7 || s.pcm.diesOn then .next s
  else
    let ds := (List.range 20).map fun i => min 7 (((ids[i]?).map (·.rate)).getD 0)
    let up := stacksUp ids stackOk
    let bad := (List.range 4).filter fun d => !refOk.getLsbD d
    let kept := s.mem.selfRefresh
    let s := { s with
      mem := { s.mem with
        declared := ds
        rate := if kept then s.mem.rate else memRate s.sec.record ds
        failed := ~~~up
        trained := up == BitVec.allOnes 20
        selfRefresh := false
        written := s.mem.saved.getD s.mem.written
        saved := none }
      pcm := { s.pcm with diesOn := true }
      sys := { s.sys with refBad := bad } }
    done (bad.foldl (fun s d => noteRef d s) (startClocks s))

/-- FIRMWARE_READY (R537, R624, R631): READY is set and the running reset is complete; after DEV the READY cause is
raised (R562). -/
def execFirmwareReady (s : State) : Host.Outcome State Fault Refusal :=
  if !s.booting 7 || !s.pcm.diesOn then .next s
  else
    let dev := s.sys.running == some .dev
    let s := { s with sys := { s.sys with
      ready := true, bootStep := 8, running := none, cause := (s.sys.running.map (·.code)).getD s.sys.cause } }
    .next (updateMirror (if dev then raiseCause Cause.ready s else s))

/-! ### Run-time checks (R611, R616) -/

/-- CODE_INTEGRITY_CHECK (R611, R617): a mismatch raises SECURITY and makes the device fatal with cause 5. -/
def execCodeIntegrityCheck (code : List Byte) (s : State) : Host.Outcome State Fault Refusal :=
  if s.sys.bootStep < 7 ∨ sha3 code = (s.sec.header.drop 32).take 32 then .next s
  else done (goFatal 5 (raiseCause Cause.security s))

/-- DEBUG_NONCE_EXPIRY (R616). -/
def execDebugNonceExpiry (s : State) : Host.Outcome State Fault Refusal := .next (dropNonce s)

/-! ### SPDM (R612) -/

/-- Answer a request, when the message is one of its code and the transport is open. -/
def runSpdm (mctp : Bool) (code : Nat) (m : List Byte) (before : Spdm → Bool) (after : Spdm → Spdm)
    (f : List Byte → State → List Byte × State) (s : State) : Host.Outcome State Fault Refusal :=
  if fieldAt m 1 1 ≠ code then .next s
  else match spdmClosed mctp (if mctp then s.mgmtReady && s.pcm.sstate != 3 else s.configOpen) s with
    | some s => .next s
    | none => .next (spdmAnswer mctp code m before after f s)

/-- SPDM_GET_VERSION: the connection starts anew. -/
def execSpdmGetVersion (mctp : Bool) (msg : List Byte) (s : State) : Host.Outcome State Fault Refusal :=
  runSpdm mctp Sp.getVersion msg (fun _ => true) (fun _ => { Spdm.reset with version := true }) (fun _ s => (versionRsp, s)) s

/-- SPDM_GET_CAPABILITIES. -/
def execSpdmGetCapabilities (mctp : Bool) (msg : List Byte) (s : State) : Host.Outcome State Fault Refusal :=
  runSpdm mctp Sp.getCapabilities msg (fun c => c.version) (fun c => { c with caps := true }) (fun _ s => (capsRsp, s)) s

/-- SPDM_NEGOTIATE_ALGORITHMS. -/
def execSpdmNegotiateAlgorithms (mctp : Bool) (msg : List Byte) (s : State) : Host.Outcome State Fault Refusal :=
  runSpdm mctp Sp.negotiate msg (fun c => c.caps) (fun c => { c with algs := offersAlgs msg }) (fun _ s => (algsRsp msg, s)) s

/-- SPDM_GET_DIGESTS. -/
def execSpdmGetDigests (mctp : Bool) (msg : List Byte) (s : State) : Host.Outcome State Fault Refusal :=
  runSpdm mctp Sp.getDigests msg (fun c => c.algs) id (fun _ s => (digestsRsp s, s)) s

/-- SPDM_GET_CERTIFICATE (R613). -/
def execSpdmGetCertificate (mctp : Bool) (msg : List Byte) (s : State) : Host.Outcome State Fault Refusal :=
  runSpdm mctp Sp.getCertificate msg (fun c => c.algs) id (fun _ s => (certRsp msg s, s)) s

/-- SPDM_CHALLENGE. -/
def execSpdmChallenge (mctp : Bool) (msg : List Byte) (s : State) : Host.Outcome State Fault Refusal :=
  runSpdm mctp Sp.challenge msg (fun c => c.algs) id (fun seen s => challengeRsp seen msg s) s

/-- SPDM_GET_MEASUREMENTS. -/
def execSpdmGetMeasurements (mctp : Bool) (msg : List Byte) (s : State) : Host.Outcome State Fault Refusal :=
  runSpdm mctp Sp.getMeasurements msg (fun c => c.algs) id (fun seen s => measRsp seen msg s) s

/-- SPDM_UNSUPPORTED: any other request. -/
def execSpdmUnsupported (mctp : Bool) (msg : List Byte) (s : State) : Host.Outcome State Fault Refusal :=
  if spdmRequests.contains (fieldAt msg 1 1) then .next s
  else match spdmClosed mctp (if mctp then s.mgmtReady && s.pcm.sstate != 3 else s.configOpen) s with
    | some s => .next s
    | none => .next (s.emit (.spdm mctp (spdmError SpErr.unsupported (fieldAt msg 1 1))))

/-! ### Data Object Exchange, MCTP control, I3C, JTAG -/

/-- DOE_DISCOVERY_REQUEST (R536): the object types are Discovery and SPDM; an index beyond them names no vendor (141). -/
def execDoeDiscoveryRequest (index : BitVec 8) (s : State) : Host.Outcome State Fault Refusal :=
  if !s.configOpen then .next s
  else
    let body := match index.toNat with
      | 0 => natLe 2 1 ++ natLe 1 0 ++ natLe 1 1
      | 1 => natLe 2 1 ++ natLe 1 1 ++ natLe 1 0
      | _ => natLe 2 0xFFFF ++ natLe 1 0 ++ natLe 1 0
    .next (s.emit (.doe (natLe 2 1 ++ natLe 2 0 ++ natLe 4 3 ++ body)))

/-- MCTP_CONTROL_REQUEST (R606, R631, R632, 140). -/
def execMctpControlRequest (command : BitVec 8) (data : List Byte) (s : State) : Host.Outcome State Fault Refusal :=
  if !s.mgmtReady then .next (s.emit .notReady)
  else
    let d := s.draw
    let r := Config.mctpReply d.1 command.toNat data
    .next (d.2.emit (.mctp command.toNat r.1 r.2))

/-- DYNAMIC_ADDRESS_ASSIGN (R655): in I3C mode only. -/
def execDynamicAddressAssign (addr : BitVec 7) (s : State) : Host.Outcome State Fault Refusal :=
  if s.sys.mgmtMode && s.sys.pwrGood then .next { s with sys := { s.sys with dynAddr := some addr } } else .next s

/-- Bytes shifted through a register of one bit that starts at 0, first bit lowest. -/
def throughBypass (dr : List Byte) : List Byte := natLe dr.length (leNat dr * 2)

/-- JTAG_TAP_OPERATION (R615, R632, 140): BYPASS, and every vendor instruction below debug level 2, selects the bypass
register; what boundary scan and the vendor functions shift out is free. -/
def execJtagTapOperation (vendor : Bool) (ir : BitVec 8) (dr : List Byte) (s : State) : Host.Outcome State Fault Refusal :=
  if !s.sys.pwrGood then .next s
  else if ir = 0xFF ∨ (vendor ∧ s.sec.debug < 2) then .next (s.emit (.tdo (throughBypass dr)))
  else
    let d := s.draw
    .next (d.2.emit (.tdo ((List.range dr.length).map (Config.freeByte d.1))))

end Sys2Proof.Machine
end

