-- ==== Sys2Proof/Machine/Tfe.lean ====
section
/-! DEFINITION. The fetch engine's commands: DESC (R344), lines of descriptors (R350), checks (R351), the issue
of requests (R346, R355 to R360) and their completion (R347). -/

namespace Sys2Proof.Machine

/-! ### DESC, lines and checks -/

/-- DESC (R106, R344). -/
def execDesc (t : Fin 256) (th : Fin 8) (w : BitVec 128) (s : State) : Host.Outcome State Fault Refusal :=
  let h := (s.tile t).thread th
  done (issueUnit 0x20 t th w 3 [] [] 0 (fun s => s.modTile t fun x =>
    let l : DList := ⟨x.nextId, h.pc, Ins.ec w, (h.reg (Ins.ga w) + Ins.imm w).toNat, Ins.count w, 0, [], false⟩
    { x.setLists th (x.lists th ++ [l]) with nextId := x.nextId + 1 }) s)

/-- Descriptors that a context has fetched and not completed (R345). -/
def Tile.fetched (x : Tile) (th : Nat) : Nat := ((x.lists th).map (·.descs.length)).foldl (· + ·) 0

/-- Fetch the next line of a context's running list (R345, R350). -/
def fetchLine (t th : Nat) (s : State) : State :=
  match s.tileRun t, (s.tile t).runList th with
  | some (_, x, _), some l =>
    let n := min 4 (l.count - l.next)
    let va := l.base + 64 * l.next
    if l.stopped || n == 0 || decide (32 < (s.tile t).fetched th + n) then s
    else
      match lowestOf ((boundFail x va (64 * n)).toList ++ (s.firstUnmapped x.part va (64 * n)).toList) with
      | some v => descFault t th l l.next 0 0xA v s
      | none =>
        match tileLine t (2 * th + 1) x.part va (64 * n) s with
        | .unmapped v => descFault t th l l.next 0 0xA v s
        | .waits _ s => s
        | .data b bad s =>
          if bad then
            badData { LogRec.atVa (tileRecord 0x03 St.poison t l.next s) x.part va with thread := th }
              ((s.vaPa x.part va).toList) (s.modTile t fun y => y.modList th l.id fun l => { l with stopped := true })
          else
            let new : List Desc := (List.range n).map fun i =>
              ⟨l.next + i, (b.drop (64 * i)).take 64, false, 0, 0, false, false, none⟩
            s.modTile t fun y => y.modList th l.id fun (l : DList) =>
              { l with next := l.next + n, descs := l.descs ++ new }
  | _, _ => s

/-- DESC_LINE_FETCH. -/
def execDescLineFetch (t : Fin 256) (th : Fin 8) (s : State) : Host.Outcome State Fault Refusal :=
  done (fetchLine t th s)

/-- A descriptor touches every page of ranges: their evictions are cancelled (R320), and LASTUSE is set (R313). -/
def touchRanges (part : Nat) (rs : List (Nat × Nat × Bool)) (s : State) : State :=
  rs.foldl (fun s r => (pagePieces r.1 r.2.1).foldl (fun s p =>
    match s.pageAt part p.1 with
    | some (k, _) => touchPage k (cancelEvict k s)
    | none => s) s) s

/-- Check the next descriptor of a context. -/
def checkNext (t th : Nat) (s : State) : State :=
  match s.tileRun t, (s.tile t).headDesc th with
  | some (_, x, _), some (l, d) =>
    if d.checked then s
    else
      let c := checkDesc s x (l.base + 64 * d.idx) d.raw
      if c.1 ≠ 0 then descFault t th l d.idx (DescF.kind d.raw) c.1 c.2 s
      else touchRanges x.part (descRanges x.relaxed d.raw)
        (s.modTile t fun y => y.modList th l.id fun l => l.modDesc d.idx fun d => { d with checked := true })
  | _, _ => s

/-- DESCRIPTOR_CHECK. -/
def execDescriptorCheck (t : Fin 256) (th : Fin 8) (s : State) : Host.Outcome State Fault Refusal :=
  done (checkNext t th s)

/-! ### Issue of requests (R343, R346, R355, R356) -/

/-- The next descriptor of a context, when it is of a kind and checked. -/
def State.ready (s : State) (t th kind : Nat) : Option (DList × Desc) :=
  match s.tileRun t, (s.tile t).headDesc th with
  | some _, some (l, d) => if d.checked && DescF.kind d.raw == kind then some (l, d) else none
  | _, _ => none

/-- The lowest request number not in use from `a` on. -/
def freeReq (m : SMap Req) : Nat → Nat → Nat
  | 0, a => a
  | n + 1, a => if (SMap.lookup m a).isSome then freeReq m n (a + 1) else a

/-- The places of a piece's memory side and of a COPY's destination: none when the piece waits. -/
def piecePlaces (t th : Nat) (l : DList) (d : Desc) (k off : Nat) (s : State) : Option (Loc × Loc) × State :=
  let part := s.tilePart t
  let r := d.raw
  let kd := DescF.kind r
  let wait (c : StallCause) (va : Nat) (s : State) : Option (Loc × Loc) × State :=
    (none, beginWait t th l.id d.idx (c, ((s.pageAt part va).map (·.1)).getD 0) s)
  let src := cutBase r k + off
  let dst := DescF.daddr r + DescF.dstride r * k + off
  if !hasMemory r then (some (.tile src, .tile 0), s)
  else
    match accessPage (ownPage d.wait) part src (kd == 2 || kd == 6 || DescF.memop r != 0) s with
    | (.unmapped, s) => (none, s)
    | (.wait c, s) => wait c src s
    | (.go a, s) =>
      if kd ≠ 3 then (some (a, .tile 0), s)
      else match accessPage (ownPage d.wait) part dst true s with
        | (.unmapped, s) => (none, s)
        | (.wait c, s) => wait c dst s
        | (.go b, s) => (some (a, b), s)

/-- A request to a far place that needs something sent as it issues: a write's data (R347), or a request for the bytes
that a read needs. -/
def sendAtIssue (t n : Nat) (q : Req) (r : List Byte) (s : State) : State :=
  match q.loc with
  | .far w i o =>
    if DescF.kind r = 2 ∨ DescF.kind r = 6 then
      match (if DescF.kind r = 2 then moveStore t q r 0 s else moveUnload t q r 0 s) with
      | .done s => s.modTile t fun y => { y with reqs := SMap.upd y.reqs n fun q => { q with sent := true } }
      | .halted s => haltReq t n q s
    else askFar (pageKey (s.tilePart t) q.va) w i o q.len s
  | _ => s

/-- A piece writes virtual memory, which may be a slot's leaf table (R188). -/
def taintPiece (t : Nat) (r : List Byte) (p : Nat × Nat × Nat) (s : State) : State :=
  let part := s.tilePart t
  if !hasMemory r then s
  else if DescF.kind r = 3 then taintVa part (DescF.daddr r + DescF.dstride r * p.1 + p.2.1) p.2.2 s
  else if [2, 6, 8].contains (DescF.kind r) then taintVa part (cutBase r p.1 + p.2.1) p.2.2 s
  else s

/-- Issue one piece: answers whether it issued. -/
def issuePiece (t th : Nat) (l : DList) (d : Desc) (last : Bool) (p : Nat × Nat × Nat) (s : State) : Bool × State :=
  let r := d.raw
  match piecePlaces t th l d p.1 p.2.1 s with
  | (none, s) => (false, s)
  | (some (a, b), s) =>
    let x := s.tile t
    let tag := hasMemory r
    let q : Req := ⟨th, l.id, d.idx, p.1, p.2.1, p.2.2, a, b, cutBase r p.1 + p.2.1, tag, [], false, none, false⟩
    let full := q.bankSets.find? fun b => decide (64 ≤ (x.reqs.filter fun y => y.2.banks.contains b).length)
    if tag && decide (512 ≤ (x.reqs.filter (·.2.tag)).length) then (false, s.tfeCtr t fun c => Ctrs.sat c 2 1)
    else if full.isSome then
      (false, (modTh t th (fun h => { h with hold := full }) s).tfeCtr t fun c => Ctrs.sat c 3 1)
    else
      let n := if tag then freeReq x.reqs 512 0 else freeReq x.reqs (x.reqs.length + 1) 512
      let q := { q with banks := q.bankSets }
      let s := taintPiece t r p (endWait t th l.id d.idx s)
      let s := s.modTile t fun y =>
        { (y.modList th l.id fun l => l.modDesc d.idx fun d =>
            { d with issued := d.issued + 1, flight := d.flight + 1, allIssued := last }) with
          reqs := SMap.put y.reqs n q }
      (true, sendAtIssue t n q r (enqueueReq t n q r s))

/-- Issue pieces in order until one waits. -/
def issuePieces (t th : Nat) (l : DList) (d : Desc) : List (Nat × Nat × Nat) → State → State
  | [], s => s
  | p :: ps, s =>
    let x := issuePiece t th l d ps.isEmpty p s
    if x.1 then issuePieces t th l d ps x.2 else x.2

/-- Issue the requests of the next descriptor, of a kind, as far as they can. -/
def issueDesc (t th kind : Nat) (s : State) : State :=
  match s.ready t th kind with
  | some (l, d) => issuePieces t th l d ((descPieces (s.tileRelaxed t) d.raw).drop d.issued) s
  | none => s

/-- LOAD. -/
def execLoad (t : Fin 256) (th : Fin 8) (s : State) : Host.Outcome State Fault Refusal := done (issueDesc t th 1 s)
/-- STORE. -/
def execStore (t : Fin 256) (th : Fin 8) (s : State) : Host.Outcome State Fault Refusal := done (issueDesc t th 2 s)
/-- COPY. -/
def execCopy (t : Fin 256) (th : Fin 8) (s : State) : Host.Outcome State Fault Refusal := done (issueDesc t th 3 s)
/-- WGB_UNLOAD. -/
def execWgbUnload (t : Fin 256) (th : Fin 8) (s : State) : Host.Outcome State Fault Refusal := done (issueDesc t th 6 s)
/-- WGB_LOAD. -/
def execWgbLoad (t : Fin 256) (th : Fin 8) (s : State) : Host.Outcome State Fault Refusal := done (issueDesc t th 7 s)
/-- ATOMIC. -/
def execAtomic (t : Fin 256) (th : Fin 8) (s : State) : Host.Outcome State Fault Refusal := done (issueDesc t th 8 s)

/-! ### Multicast (R357 to R360) -/

/-- The posted MRECV of a receiving rank for a tag: its tile and the record. -/
def State.recvOf (s : State) (x : Chan) (mtag rank : Nat) : Option (Nat × Recv) :=
  (x.tileList[rank]?).bind fun u => ((s.tile u).recvs.find? fun v => v.mtag == mtag).map fun v => (u, v)

/-- The MCAST starts once every receiver has posted; an MRECV that names other rows faults in its receiver. -/
def startMcast (t th : Nat) (s : State) : State :=
  match s.tileRun t, s.ready t th 4 with
  | some (_, x, _), some (l, d) =>
    let got := (mcastRanks d.raw).map fun k => s.recvOf x (DescF.mtag d.raw) k
    if got.any (·.isNone) then s.tfeCtr t fun c => Ctrs.sat c 4 1
    else
      let bad := (got.filterMap id).filter fun v =>
        v.2.rows != DescF.rows d.raw || v.2.rowBytes != DescF.rowBytes d.raw
      if bad.isEmpty then
        s.modTile t fun y => y.modList th l.id fun l => l.modDesc d.idx fun d => { d with opened := true }
      else bad.foldl (fun s v =>
        match ((s.tile v.1).lists v.2.th).find? (·.id == v.2.list) with
        | some l => descFault v.1 v.2.th l v.2.idx 5 9 0 s
        | none => s) s
  | _, _ => s

/-- MCAST_START. -/
def execMcastStart (t : Fin 256) (th : Fin 8) (s : State) : Host.Outcome State Fault Refusal :=
  done (startMcast t th s)

/-- MCAST: nothing issues before every receiver has posted (R358). -/
def execMcast (t : Fin 256) (th : Fin 8) (s : State) : Host.Outcome State Fault Refusal :=
  done (match s.ready t th 4 with
    | some (_, d) => if d.opened then issueDesc t th 4 s else s.tfeCtr t fun c => Ctrs.sat c 4 1
    | none => s)

/-- Post an MRECV (R358, R359). -/
def postRecv (t th : Nat) (s : State) : State :=
  match s.ready t th 5 with
  | some (l, d) =>
    let r := d.raw
    let v : Recv := ⟨th, l.id, d.idx, DescF.mtag r, DescF.rows r, DescF.rowBytes r, DescF.laddr r, DescF.lstride r,
      DescF.rows r * DescF.rowBytes r⟩
    s.modTile t fun x =>
      { (x.modList th l.id fun l => l.modDesc d.idx fun d => { d with allIssued := true }) with
        recvs := x.recvs ++ [v] }
  | none => s

/-- MRECV. -/
def execMrecv (t : Fin 256) (th : Fin 8) (s : State) : Host.Outcome State Fault Refusal := done (postRecv t th s)

/-! ### Completion (R25, R26, R347) -/

/-- The kind of the descriptor that a request belongs to. -/
def State.reqKind (s : State) (t : Nat) (r : Req) : Nat := ((s.reqDesc t r).map fun d => DescF.kind d).getD 0

/-- A request's bytes can move, or a write that was sent has been admitted: its place in the queues has come, and the
bytes that it reads from afar. A write to local HBM completes when its controller admits it, not here. -/
def State.reqReady (s : State) (t n : Nat) (r : Req) : Bool :=
  let source : Bool := match r.loc with
    | .hbm pa => r.held.isSome && s.reqServed t n pa
    | .far p i o => r.held.isNone && s.farReady (pageKey (s.tilePart t) r.va) p i o r.len
    | .host .. => r.held.isNone && s.hif.pcieWidth != 0
    | _ => r.held.isNone
  r.sent || (source && (match r.dst with
    | .host .. => s.hif.pcieWidth != 0
    | _ => true))

/-- The dies that a request's bytes pass on their way between its memory side and its tile (R24, R25). -/
def reqPath (t : Nat) (r : Req) : List Nat :=
  match r.loc with
  | .hbm pa => fabricPath (stackDie pa) (t / 64) pa
  | .tile _ => []
  | _ => [t / 64]

/-- The read of a COPY has come: its write waits for its controller, or goes to a far or host place. -/
def copyOut (t n : Nat) (r : Req) (d : List Byte) (x : List Byte × List Nat) (s : State) : State :=
  let s := leaveQueues t n { r with dst := .tile 0 } s
  match r.dst with
  | .hbm pa =>
    let s := holdReq t n (x.1, x.2, s)
    let ready (k : Ticket) : Ticket := if k.tile = t ∧ k.req = n then { k with ready := true } else k
    let c := 4 * stackOf pa + s.tilePart t
    { s with mem := { s.mem with
      ingress := SMap.updD s.mem.ingress [] c (·.map ready)
      pathQ := SMap.updD s.mem.pathQ [] (bankId pa) (·.map ready) } }
  | l =>
    let s := locWrite (DescF.cache d) (s.tilePart t) l x.1 x.2 s
    match l with
    | .far .. => s.modTile t fun y => { y with reqs := SMap.upd y.reqs n fun q => { q with sent := true } }
    | _ => retireReq t n r s

/-- A request completes, or a COPY's read does: `dmg` is damage that its transfer took. -/
def moveReq (t n : Nat) (r : Req) (d : List Byte) (dmg : BitVec 64) (s : State) : State :=
  let part := s.tilePart t
  if r.sent then retireReq t n r s
  else match DescF.kind d with
    | 2 => retireMoved t n r (moveStore t r d dmg s)
    | 6 => retireMoved t n r (moveUnload t r d dmg s)
    | 3 =>
      let x : List Byte × List Nat × State := match r.held with
        | some h => (h.1, h.2, s)
        | none => memSide t r d s
      copyOut t n r d (xorHead x.1 dmg, x.2.1) x.2.2
    | _ =>
      match r.held, r.loc with
      | some h, _ => retireReq t n r (landReq t r d dmg h s)
      | none, .tile a => retireMoved t n r (moveLoadTile t r d a s)
      | none, l =>
        if DescF.kind d = 8 then
          match serveAtomic t n r d dmg s with
          | .done s => retireReq t n r (landReq t r d 0 (List.replicate (DescF.width d) 0, [0]) s)
          | .halted s => haltReq t n r s
        else
          let x := locRead (DescF.cache d) part (pageKey part r.va) l r.len s
          retireReq t n r (landReq t r d dmg (x.1, x.2.1) x.2.2)

/-- A request completes: its line crosses the fabric, and five failures of that transfer end in a fault (R25, R26). -/
def finishReq (t n : Nat) (s : State) : State :=
  match SMap.lookup (s.tile t).reqs n with
  | none => s
  | some r =>
    match s.reqDesc t r with
    | none => removeReq t n r s
    | some d =>
      if !s.reqReady t n r then s
      else match fabricCross (if r.sent then [] else reqPath t r) s with
        | (some k, _, s) => fabricFault k s
        | (none, dmg, s) => dropInPlace (pageKey (s.tilePart t) r.va) (moveReq t n r d dmg s)

/-- REQUEST_COMPLETE. -/
def execRequestComplete (t : Fin 256) (n : Nat) (s : State) : Host.Outcome State Fault Refusal :=
  done (finishReq t n s)

end Sys2Proof.Machine
end

