-- ==== Sys2Proof/Machine/Dispatch.lean ====
section
/-! DEFINITION. One arm for each command: a direct call of its meaning. -/

namespace Sys2Proof.Machine

def exec (i : Instr) (s : State) : Host.Outcome State Fault Refusal :=
  match i with
  | .pwrGoodRise mgmtMode mgmtAddr => Sys2Proof.Machine.execPwrGoodRise mgmtMode mgmtAddr s
  | .pwrGoodFall => Sys2Proof.Machine.execPwrGoodFall s
  | .perstAssert => Sys2Proof.Machine.execPerstAssert s
  | .perstRelease => Sys2Proof.Machine.execPerstRelease s
  | .mainGoodFall => Sys2Proof.Machine.execMainGoodFall s
  | .mainGoodRise => Sys2Proof.Machine.execMainGoodRise s
  | .mainEnWakeTimeout => Sys2Proof.Machine.execMainEnWakeTimeout s
  | .hotReset => Sys2Proof.Machine.execHotReset s
  | .flr => Sys2Proof.Machine.execFlr s
  | .devResetStart => Sys2Proof.Machine.execDevResetStart s
  | .mgmtDevMessage => Sys2Proof.Machine.execMgmtDevMessage s
  | .configRequest write off data => Sys2Proof.Machine.execConfigRequest write off data s
  | .bootPufDerive idPub => Sys2Proof.Machine.execBootPufDerive idPub s
  | .configRecordCheck sigValid => Sys2Proof.Machine.execConfigRecordCheck sigValid s
  | .imageLoadCheck sigValid => Sys2Proof.Machine.execImageLoadCheck sigValid s
  | .measurementsRecord => Sys2Proof.Machine.execMeasurementsRecord s
  | .hbmTraining ids stackOk refOk => Sys2Proof.Machine.execHbmTraining ids stackOk refOk s
  | .firmwareReady => Sys2Proof.Machine.execFirmwareReady s
  | .linkRelease => Sys2Proof.Machine.execLinkRelease s
  | .linkTrainingTimeout link => Sys2Proof.Machine.execLinkTrainingTimeout link s
  | .laneLock link reversed polarity => Sys2Proof.Machine.execLaneLock link reversed polarity s
  | .flitLock link => Sys2Proof.Machine.execFlitLock link s
  | .helloResend link => Sys2Proof.Machine.execHelloResend link s
  | .hello link flit => Sys2Proof.Machine.execHello link flit s
  | .linkAdmit link => Sys2Proof.Machine.execLinkAdmit link s
  | .ping rx => Sys2Proof.Machine.execPing rx s
  | .pong rx roundTripPs => Sys2Proof.Machine.execPong rx roundTripPs s
  | .hold rx => Sys2Proof.Machine.execHold rx s
  | .positionChange link flit => Sys2Proof.Machine.execPositionChange link flit s
  | .dataFlitReceive link flit => Sys2Proof.Machine.execDataFlitReceive link flit s
  | .idleFlitReceive link flit => Sys2Proof.Machine.execIdleFlitReceive link flit s
  | .nakReceive link ack => Sys2Proof.Machine.execNakReceive link ack s
  | .packetSend link => Sys2Proof.Machine.execPacketSend link s
  | .ackTimeout link => Sys2Proof.Machine.execAckTimeout link s
  | .signalLoss link => Sys2Proof.Machine.execSignalLoss link s
  | .linkDown link => Sys2Proof.Machine.execLinkDown link s
  | .peerLost pos => Sys2Proof.Machine.execPeerLost pos s
  | .selfIsolate => Sys2Proof.Machine.execSelfIsolate s
  | .linkTestEnd link bits errors => Sys2Proof.Machine.execLinkTestEnd link bits errors s
  | .syncSend => Sys2Proof.Machine.execSyncSend s
  | .sync link p => Sys2Proof.Machine.execSync link p s
  | .stagCandidateTimeout => Sys2Proof.Machine.execStagCandidateTimeout s
  | .statusReport => Sys2Proof.Machine.execStatusReport s
  | .status link p => Sys2Proof.Machine.execStatus link p s
  | .commitDecide => Sys2Proof.Machine.execCommitDecide s
  | .commit link p => Sys2Proof.Machine.execCommit link p s
  | .stepStart => Sys2Proof.Machine.execStepStart s
  | .fault link p => Sys2Proof.Machine.execFault link p s
  | .rewind link p => Sys2Proof.Machine.execRewind link p s
  | .stop link p => Sys2Proof.Machine.execStop link p s
  | .rebind link p => Sys2Proof.Machine.execRebind link p s
  | .restoreComplete => Sys2Proof.Machine.execRestoreComplete s
  | .replayStart => Sys2Proof.Machine.execReplayStart s
  | .stepWatchdog chan => Sys2Proof.Machine.execStepWatchdog chan s
  | .collectiveEntryStart entry => Sys2Proof.Machine.execCollectiveEntryStart entry s
  | .chunkAdmit sect => Sys2Proof.Machine.execChunkAdmit sect s
  | .credit link p => Sys2Proof.Machine.execCredit link p s
  | .upData link p => Sys2Proof.Machine.execUpData link p s
  | .downData link p => Sys2Proof.Machine.execDownData link p s
  | .pipelineTransfer link p => Sys2Proof.Machine.execPipelineTransfer link p s
  | .sealSummary link p => Sys2Proof.Machine.execSealSummary link p s
  | .seal link p => Sys2Proof.Machine.execSeal link p s
  | .abortEntry link p => Sys2Proof.Machine.execAbortEntry link p s
  | .chunkComplete entry chunk => Sys2Proof.Machine.execChunkComplete entry chunk s
  | .governorDecide => Sys2Proof.Machine.execGovernorDecide s
  | .quireArrival slot header payload => Sys2Proof.Machine.execQuireArrival slot header payload s
  | .quireCredit credit => Sys2Proof.Machine.execQuireCredit credit s
  | .landingBufferFree slot buf => Sys2Proof.Machine.execLandingBufferFree slot buf s
  | .leafStallExpiry slot => Sys2Proof.Machine.execLeafStallExpiry slot s
  | .leafEvict pool => Sys2Proof.Machine.execLeafEvict pool s
  | .leafReturn slot layer head leaf data bad => Sys2Proof.Machine.execLeafReturn slot layer head leaf data bad s
  | .stateTransferPacket link p => Sys2Proof.Machine.execStateTransferPacket link p s
  | .stateRequest link ask => Sys2Proof.Machine.execStateRequest link ask s
  | .retainedRepair mirror block data bad => Sys2Proof.Machine.execRetainedRepair mirror block data bad s
  | .manifestComplete => Sys2Proof.Machine.execManifestComplete s
  | .takeoverStreamComplete mirror => Sys2Proof.Machine.execTakeoverStreamComplete mirror s
  | .takeoverBoundExpiry => Sys2Proof.Machine.execTakeoverBoundExpiry s
  | .reclaimNotice lender window => Sys2Proof.Machine.execReclaimNotice lender window s
  | .reclaimBlockPlace lender window data bad => Sys2Proof.Machine.execReclaimBlockPlace lender window data bad s
  | .reclaimBoundExpiry lender window => Sys2Proof.Machine.execReclaimBoundExpiry lender window s
  | .reclaimDone borrower window => Sys2Proof.Machine.execReclaimDone borrower window s
  | .farRequest link write window off len data bad => Sys2Proof.Machine.execFarRequest link write window off len data bad s
  | .farData link part vpn piece data bad => Sys2Proof.Machine.execFarData link part vpn piece data bad s
  | .hostTierCompletion part vpn data error poisoned => Sys2Proof.Machine.execHostTierCompletion part vpn data error poisoned s
  | .migrationComplete part vpn => Sys2Proof.Machine.execMigrationComplete part vpn s
  | .pageEviction part => Sys2Proof.Machine.execPageEviction part s
  | .nop tile th w => Sys2Proof.Machine.execNop tile th w s
  | .endThread tile th w => Sys2Proof.Machine.execEndThread tile th w s
  | .br tile th w => Sys2Proof.Machine.execBr tile th w s
  | .loop tile th w => Sys2Proof.Machine.execLoop tile th w s
  | .waitev tile th w => Sys2Proof.Machine.execWaitev tile th w s
  | .sigev tile th w => Sys2Proof.Machine.execSigev tile th w s
  | .tickwait tile th w => Sys2Proof.Machine.execTickwait tile th w s
  | .tickwaitExpiry tile th => Sys2Proof.Machine.execTickwaitExpiry tile th s
  | .smovi tile th w => Sys2Proof.Machine.execSmovi tile th w s
  | .salu tile th w => Sys2Proof.Machine.execSalu tile th w s
  | .sld tile th w => Sys2Proof.Machine.execSld tile th w s
  | .sst tile th w => Sys2Proof.Machine.execSst tile th w s
  | .mma tile th w => Sys2Proof.Machine.execMma tile th w s
  | .mconv tile th w => Sys2Proof.Machine.execMconv tile th w s
  | .mzero tile th w => Sys2Proof.Machine.execMzero tile th w s
  | .mdrain tile th w => Sys2Proof.Machine.execMdrain tile th w s
  | .reservedOpcode tile th w => Sys2Proof.Machine.execReservedOpcode tile th w s
  | .unitInstructionComplete tile unit => Sys2Proof.Machine.execUnitInstructionComplete tile unit s
  | .freezeLong tile => Sys2Proof.Machine.execFreezeLong tile s
  | .codeLineFetch tile th => Sys2Proof.Machine.execCodeLineFetch tile th s
  | .vchain tile th w => Sys2Proof.Machine.execVchain tile th w s
  | .vchainExecute tile => Sys2Proof.Machine.execVchainExecute tile s
  | .desc tile th w => Sys2Proof.Machine.execDesc tile th w s
  | .descLineFetch tile th => Sys2Proof.Machine.execDescLineFetch tile th s
  | .descriptorCheck tile th => Sys2Proof.Machine.execDescriptorCheck tile th s
  | .load tile th => Sys2Proof.Machine.execLoad tile th s
  | .store tile th => Sys2Proof.Machine.execStore tile th s
  | .copy tile th => Sys2Proof.Machine.execCopy tile th s
  | .mcast tile th => Sys2Proof.Machine.execMcast tile th s
  | .mcastStart tile th => Sys2Proof.Machine.execMcastStart tile th s
  | .mrecv tile th => Sys2Proof.Machine.execMrecv tile th s
  | .wgbUnload tile th => Sys2Proof.Machine.execWgbUnload tile th s
  | .wgbLoad tile th => Sys2Proof.Machine.execWgbLoad tile th s
  | .atomic tile th => Sys2Proof.Machine.execAtomic tile th s
  | .requestComplete tile req => Sys2Proof.Machine.execRequestComplete tile req s
  | .prgBucketRefill => Sys2Proof.Machine.execPrgBucketRefill s
  | .regulatorGrant ctrl => Sys2Proof.Machine.execRegulatorGrant ctrl s
  | .writeOrRead write pa len data line => Sys2Proof.Machine.execWriteOrRead write pa len data line s
  | .iadd32 pa data => Sys2Proof.Machine.execIadd32 pa data s
  | .iadd64 pa data => Sys2Proof.Machine.execIadd64 pa data s
  | .fmax32 pa data => Sys2Proof.Machine.execFmax32 pa data s
  | .fadd32 chan pa data => Sys2Proof.Machine.execFadd32 chan pa data s
  | .faddbf16 chan pa data => Sys2Proof.Machine.execFaddbf16 chan pa data s
  | .final32 pa => Sys2Proof.Machine.execFinal32 pa s
  | .finalbf16 pa => Sys2Proof.Machine.execFinalbf16 pa s
  | .atomicIntAdd chan pa wide x => Sys2Proof.Machine.execAtomicIntAdd chan pa wide x s
  | .atomicSwap chan pa wide x => Sys2Proof.Machine.execAtomicSwap chan pa wide x s
  | .atomicCompareAndSwap chan pa wide x cmp => Sys2Proof.Machine.execAtomicCompareAndSwap chan pa wide x cmp s
  | .atomicAndOrXor chan pa wide sel x => Sys2Proof.Machine.execAtomicAndOrXor chan pa wide sel x s
  | .atomicMinMax chan pa wide takeMax x => Sys2Proof.Machine.execAtomicMinMax chan pa wide takeMax x s
  | .atomicFloatAdd chan pa x => Sys2Proof.Machine.execAtomicFloatAdd chan pa x s
  | .hotBankEpisode bank startTick peak part => Sys2Proof.Machine.execHotBankEpisode bank startTick peak part s
  | .hotBankEpisodeEnd bank => Sys2Proof.Machine.execHotBankEpisodeEnd bank s
  | .ecsResultRead errors => Sys2Proof.Machine.execEcsResultRead errors s
  | .append tile th w => Sys2Proof.Machine.execAppend tile th w s
  | .fwd tile th w => Sys2Proof.Machine.execFwd tile th w s
  | .attnFinal tile th w => Sys2Proof.Machine.execAttnFinal tile th w s
  | .bwdPrep tile th w => Sys2Proof.Machine.execBwdPrep tile th w s
  | .bwd tile th w => Sys2Proof.Machine.execBwd tile th w s
  | .gfinal tile th w => Sys2Proof.Machine.execGfinal tile th w s
  | .qsend tile th w => Sys2Proof.Machine.execQsend tile th w s
  | .qrelease tile th w => Sys2Proof.Machine.execQrelease tile th w s
  | .lfetch tile th w => Sys2Proof.Machine.execLfetch tile th w s
  | .trunc tile th w => Sys2Proof.Machine.execTrunc tile th w s
  | .sampleStart => Sys2Proof.Machine.execSampleStart s
  | .sampleDecodeComplete => Sys2Proof.Machine.execSampleDecodeComplete s
  | .microbatchStart => Sys2Proof.Machine.execMicrobatchStart s
  | .microbatchReady => Sys2Proof.Machine.execMicrobatchReady s
  | .scrubComplete => Sys2Proof.Machine.execScrubComplete s
  | .injectLinkDrop slot => Sys2Proof.Machine.execInjectLinkDrop slot s
  | .injectLinkDropEnd slot => Sys2Proof.Machine.execInjectLinkDropEnd slot s
  | .camloWatchdogExpiry => Sys2Proof.Machine.execCamloWatchdogExpiry s
  | .fatalEvent cause => Sys2Proof.Machine.execFatalEvent cause s
  | .colophonSummaryWritten => Sys2Proof.Machine.execColophonSummaryWritten s
  | .codeIntegrityCheck code => Sys2Proof.Machine.execCodeIntegrityCheck code s
  | .debugNonceExpiry => Sys2Proof.Machine.execDebugNonceExpiry s
  | .droopEvent tile => Sys2Proof.Machine.execDroopEvent tile s
  | .droopRelease tile cycles => Sys2Proof.Machine.execDroopRelease tile cycles s
  | .freqRelockStart tile => Sys2Proof.Machine.execFreqRelockStart tile s
  | .freqRelockComplete tile => Sys2Proof.Machine.execFreqRelockComplete tile s
  | .energyModelSample energy => Sys2Proof.Machine.execEnergyModelSample energy s
  | .sustainedLoopPeriod => Sys2Proof.Machine.execSustainedLoopPeriod s
  | .envelopeSecond => Sys2Proof.Machine.execEnvelopeSecond s
  | .minuteEnd => Sys2Proof.Machine.execMinuteEnd s
  | .thermalSample tiles hbms dies => Sys2Proof.Machine.execThermalSample tiles hbms dies s
  | .pmbusRead reg pout => Sys2Proof.Machine.execPmbusRead reg pout s
  | .pmbusCalibration => Sys2Proof.Machine.execPmbusCalibration s
  | .sleepTransitionDone => Sys2Proof.Machine.execSleepTransitionDone s
  | .pldmWakeRequest => Sys2Proof.Machine.execPldmWakeRequest s
  | .pldmSensorRead id => Sys2Proof.Machine.execPldmSensorRead id s
  | .mgmtCapEffecterSet watts => Sys2Proof.Machine.execMgmtCapEffecterSet watts s
  | .telemetryMirrorUpdate => Sys2Proof.Machine.execTelemetryMirrorUpdate s
  | .spdmGetVersion mctp msg => Sys2Proof.Machine.execSpdmGetVersion mctp msg s
  | .spdmGetCapabilities mctp msg => Sys2Proof.Machine.execSpdmGetCapabilities mctp msg s
  | .spdmNegotiateAlgorithms mctp msg => Sys2Proof.Machine.execSpdmNegotiateAlgorithms mctp msg s
  | .spdmGetDigests mctp msg => Sys2Proof.Machine.execSpdmGetDigests mctp msg s
  | .spdmGetCertificate mctp msg => Sys2Proof.Machine.execSpdmGetCertificate mctp msg s
  | .spdmChallenge mctp msg => Sys2Proof.Machine.execSpdmChallenge mctp msg s
  | .spdmGetMeasurements mctp msg => Sys2Proof.Machine.execSpdmGetMeasurements mctp msg s
  | .spdmUnsupported mctp msg => Sys2Proof.Machine.execSpdmUnsupported mctp msg s
  | .bar0AccessError write off width => Sys2Proof.Machine.execBar0AccessError write off width s
  | .bar2Access write off len data poisoned => Sys2Proof.Machine.execBar2Access write off len data poisoned s
  | .bar4Access write off width data => Sys2Proof.Machine.execBar4Access write off width data s
  | .mailboxHandoff mb word => Sys2Proof.Machine.execMailboxHandoff mb word s
  | .mailboxWriteDrop mb off => Sys2Proof.Machine.execMailboxWriteDrop mb off s
  | .intCauseWrite v => Sys2Proof.Machine.execIntCauseWrite v s
  | .intMaskWrite v => Sys2Proof.Machine.execIntMaskWrite v s
  | .mbDoneWrite v => Sys2Proof.Machine.execMbDoneWrite v s
  | .cplConsumedWrite v => Sys2Proof.Machine.execCplConsumedWrite v s
  | .registerWrite off width v => Sys2Proof.Machine.execRegisterWrite off width v s
  | .undefinedCommand mb => Sys2Proof.Machine.execUndefinedCommand mb s
  | .getIdentity mb => Sys2Proof.Machine.execGetIdentity mb s
  | .mbEcho mb => Sys2Proof.Machine.execMbEcho mb s
  | .mbStatus mb => Sys2Proof.Machine.execMbStatus mb s
  | .deviceReset mb => Sys2Proof.Machine.execDeviceReset mb s
  | .bar2WindowSet mb => Sys2Proof.Machine.execBar2WindowSet mb s
  | .intrRoute mb => Sys2Proof.Machine.execIntrRoute mb s
  | .cplRingSet mb => Sys2Proof.Machine.execCplRingSet mb s
  | .readHifCounters mb => Sys2Proof.Machine.execReadHifCounters mb s
  | .clearHifCounters mb => Sys2Proof.Machine.execClearHifCounters mb s
  | .channelCreate mb => Sys2Proof.Machine.execChannelCreate mb s
  | .channelDestroy mb => Sys2Proof.Machine.execChannelDestroy mb s
  | .channelSetMode mb => Sys2Proof.Machine.execChannelSetMode mb s
  | .programLoad mb => Sys2Proof.Machine.execProgramLoad mb s
  | .channelUpdate mb => Sys2Proof.Machine.execChannelUpdate mb s
  | .channelStart mb => Sys2Proof.Machine.execChannelStart mb s
  | .channelStop mb => Sys2Proof.Machine.execChannelStop mb s
  | .channelStatus mb => Sys2Proof.Machine.execChannelStatus mb s
  | .getTileState mb => Sys2Proof.Machine.execGetTileState mb s
  | .tileReset mb => Sys2Proof.Machine.execTileReset mb s
  | .readTileCounters mb => Sys2Proof.Machine.execReadTileCounters mb s
  | .clearTileCounters mb => Sys2Proof.Machine.execClearTileCounters mb s
  | .readTfeCounters mb => Sys2Proof.Machine.execReadTfeCounters mb s
  | .clearTfeCounters mb => Sys2Proof.Machine.execClearTfeCounters mb s
  | .memGetConfig mb => Sys2Proof.Machine.execMemGetConfig mb s
  | .memClearRange mb => Sys2Proof.Machine.execMemClearRange mb s
  | .memMapAddress mb => Sys2Proof.Machine.execMemMapAddress mb s
  | .memReadCounters mb => Sys2Proof.Machine.execMemReadCounters mb s
  | .memClearCounters mb => Sys2Proof.Machine.execMemClearCounters mb s
  | .shcFlush mb => Sys2Proof.Machine.execShcFlush mb s
  | .prgSet mb => Sys2Proof.Machine.execPrgSet mb s
  | .prgReport mb => Sys2Proof.Machine.execPrgReport mb s
  | .hotBankLog mb => Sys2Proof.Machine.execHotBankLog mb s
  | .fxRegionDefine mb => Sys2Proof.Machine.execFxRegionDefine mb s
  | .fxRegionRelease mb => Sys2Proof.Machine.execFxRegionRelease mb s
  | .tgcConfig mb => Sys2Proof.Machine.execTgcConfig mb s
  | .tgcStart mb => Sys2Proof.Machine.execTgcStart mb s
  | .tgcStatus mb => Sys2Proof.Machine.execTgcStatus mb s
  | .tgcStop mb => Sys2Proof.Machine.execTgcStop mb s
  | .tgcComplete => Sys2Proof.Machine.execTgcComplete s
  | .ptuInit mb => Sys2Proof.Machine.execPtuInit mb s
  | .partitionSetView mb => Sys2Proof.Machine.execPartitionSetView mb s
  | .partitionSetQuota mb => Sys2Proof.Machine.execPartitionSetQuota mb s
  | .pageMap mb => Sys2Proof.Machine.execPageMap mb s
  | .pageUnmap mb => Sys2Proof.Machine.execPageUnmap mb s
  | .pageMigrate mb => Sys2Proof.Machine.execPageMigrate mb s
  | .pagePin mb => Sys2Proof.Machine.execPagePin mb s
  | .pageQuery mb => Sys2Proof.Machine.execPageQuery mb s
  | .poolStatus mb => Sys2Proof.Machine.execPoolStatus mb s
  | .farLend mb => Sys2Proof.Machine.execFarLend mb s
  | .farUnlend mb => Sys2Proof.Machine.execFarUnlend mb s
  | .farPoolSet mb => Sys2Proof.Machine.execFarPoolSet mb s
  | .setReclaimBound mb => Sys2Proof.Machine.execSetReclaimBound mb s
  | .hostRegionAdd mb => Sys2Proof.Machine.execHostRegionAdd mb s
  | .hostRegionRemove mb => Sys2Proof.Machine.execHostRegionRemove mb s
  | .readPtuCounters mb => Sys2Proof.Machine.execReadPtuCounters mb s
  | .clearPtuCounters mb => Sys2Proof.Machine.execClearPtuCounters mb s
  | .leafPoolCreate mb => Sys2Proof.Machine.execLeafPoolCreate mb s
  | .leafPoolDestroy mb => Sys2Proof.Machine.execLeafPoolDestroy mb s
  | .slotCreate mb => Sys2Proof.Machine.execSlotCreate mb s
  | .slotReset mb => Sys2Proof.Machine.execSlotReset mb s
  | .slotDestroy mb => Sys2Proof.Machine.execSlotDestroy mb s
  | .slotSetRing mb => Sys2Proof.Machine.execSlotSetRing mb s
  | .slotStatus mb => Sys2Proof.Machine.execSlotStatus mb s
  | .leafPin mb => Sys2Proof.Machine.execLeafPin mb s
  | .setLeafStallBound mb => Sys2Proof.Machine.execSetLeafStallBound mb s
  | .readLeafCounters mb => Sys2Proof.Machine.execReadLeafCounters mb s
  | .clearLeafCounters mb => Sys2Proof.Machine.execClearLeafCounters mb s
  | .readLeafEntry mb => Sys2Proof.Machine.execReadLeafEntry mb s
  | .linkStatus mb => Sys2Proof.Machine.execLinkStatus mb s
  | .posTableLoad mb => Sys2Proof.Machine.execPosTableLoad mb s
  | .posTableRead mb => Sys2Proof.Machine.execPosTableRead mb s
  | .linkEnable mb => Sys2Proof.Machine.execLinkEnable mb s
  | .linkRetrain mb => Sys2Proof.Machine.execLinkRetrain mb s
  | .linkTestStart mb => Sys2Proof.Machine.execLinkTestStart mb s
  | .linkTestResult mb => Sys2Proof.Machine.execLinkTestResult mb s
  | .setPeerLostBound mb => Sys2Proof.Machine.execSetPeerLostBound mb s
  | .readLinkCounters mb => Sys2Proof.Machine.execReadLinkCounters mb s
  | .clearLinkCounters mb => Sys2Proof.Machine.execClearLinkCounters mb s
  | .readLinkEvents mb => Sys2Proof.Machine.execReadLinkEvents mb s
  | .herdConfig mb => Sys2Proof.Machine.execHerdConfig mb s
  | .herdStatus mb => Sys2Proof.Machine.execHerdStatus mb s
  | .groupDefine mb => Sys2Proof.Machine.execGroupDefine mb s
  | .groupRelease mb => Sys2Proof.Machine.execGroupRelease mb s
  | .scheduleLoad mb => Sys2Proof.Machine.execScheduleLoad mb s
  | .spineStart mb => Sys2Proof.Machine.execSpineStart mb s
  | .spineStop mb => Sys2Proof.Machine.execSpineStop mb s
  | .epochAdvance mb => Sys2Proof.Machine.execEpochAdvance mb s
  | .readLateness mb => Sys2Proof.Machine.execReadLateness mb s
  | .clearCleCounters mb => Sys2Proof.Machine.execClearCleCounters mb s
  | .readCleCounters mb => Sys2Proof.Machine.execReadCleCounters mb s
  | .spineTime mb ptm => Sys2Proof.Machine.execSpineTime mb ptm s
  | .collStatus mb => Sys2Proof.Machine.execCollStatus mb s
  | .placementReport mb => Sys2Proof.Machine.execPlacementReport mb s
  | .igeSetup mb => Sys2Proof.Machine.execIgeSetup mb s
  | .igeDictLoad mb => Sys2Proof.Machine.execIgeDictLoad mb s
  | .igeSetLimits mb => Sys2Proof.Machine.execIgeSetLimits mb s
  | .igeStart mb => Sys2Proof.Machine.execIgeStart mb s
  | .igeStop mb => Sys2Proof.Machine.execIgeStop mb s
  | .igeStatus mb => Sys2Proof.Machine.execIgeStatus mb s
  | .igeReadSkipLog mb => Sys2Proof.Machine.execIgeReadSkipLog mb s
  | .igeReadCounters mb => Sys2Proof.Machine.execIgeReadCounters mb s
  | .igeClearCounters mb => Sys2Proof.Machine.execIgeClearCounters mb s
  | .igeCacheSet mb => Sys2Proof.Machine.execIgeCacheSet mb s
  | .igePermute mb => Sys2Proof.Machine.execIgePermute mb s
  | .errLogRead mb => Sys2Proof.Machine.execErrLogRead mb s
  | .errLogClear mb => Sys2Proof.Machine.execErrLogClear mb s
  | .scrubStart mb => Sys2Proof.Machine.execScrubStart mb s
  | .scrubStatus mb => Sys2Proof.Machine.execScrubStatus mb s
  | .scrubStop mb => Sys2Proof.Machine.execScrubStop mb s
  | .injectArm mb => Sys2Proof.Machine.execInjectArm mb s
  | .injectDisarm mb => Sys2Proof.Machine.execInjectDisarm mb s
  | .retireGranule mb => Sys2Proof.Machine.execRetireGranule mb s
  | .retireBank mb => Sys2Proof.Machine.execRetireBank mb s
  | .rowRepair mb repairLeft repairOk => Sys2Proof.Machine.execRowRepair mb repairLeft repairOk s
  | .retireListRead mb => Sys2Proof.Machine.execRetireListRead mb s
  | .mirrorConfig mb => Sys2Proof.Machine.execMirrorConfig mb s
  | .mirrorStatus mb => Sys2Proof.Machine.execMirrorStatus mb s
  | .fawnManifestLoad mb => Sys2Proof.Machine.execFawnManifestLoad mb s
  | .takeoverRecordRead mb => Sys2Proof.Machine.execTakeoverRecordRead mb s
  | .setRecoveryLimits mb => Sys2Proof.Machine.execSetRecoveryLimits mb s
  | .recoveryStatus mb => Sys2Proof.Machine.execRecoveryStatus mb s
  | .colophonRead mb => Sys2Proof.Machine.execColophonRead mb s
  | .colophonRelease mb => Sys2Proof.Machine.execColophonRelease mb s
  | .readRseCounters mb => Sys2Proof.Machine.execReadRseCounters mb s
  | .clearRseCounters mb => Sys2Proof.Machine.execClearRseCounters mb s
  | .pwrGetLimits mb => Sys2Proof.Machine.execPwrGetLimits mb s
  | .pwrSetCap mb => Sys2Proof.Machine.execPwrSetCap mb s
  | .envDeclare mb => Sys2Proof.Machine.execEnvDeclare mb s
  | .envStatus mb => Sys2Proof.Machine.execEnvStatus mb s
  | .tileFreqSet mb => Sys2Proof.Machine.execTileFreqSet mb s
  | .tileFreqGet mb => Sys2Proof.Machine.execTileFreqGet mb s
  | .sleepEnter mb => Sys2Proof.Machine.execSleepEnter mb s
  | .pmbusCalibrate mb answers => Sys2Proof.Machine.execPmbusCalibrate mb answers s
  | .thermalStatus mb => Sys2Proof.Machine.execThermalStatus mb s
  | .readPcmCounters mb => Sys2Proof.Machine.execReadPcmCounters mb s
  | .clearPcmCounters mb => Sys2Proof.Machine.execClearPcmCounters mb s
  | .getMeasurements mb => Sys2Proof.Machine.execGetMeasurements mb s
  | .getCertificate mb => Sys2Proof.Machine.execGetCertificate mb s
  | .attestSign mb secWaitMs => Sys2Proof.Machine.execAttestSign mb secWaitMs s
  | .configRecordRead mb => Sys2Proof.Machine.execConfigRecordRead mb s
  | .fwImageStage mb sigValid => Sys2Proof.Machine.execFwImageStage mb sigValid s
  | .fwImageActivate mb reread => Sys2Proof.Machine.execFwImageActivate mb reread s
  | .imagePush mb sigValid => Sys2Proof.Machine.execImagePush mb sigValid s
  | .debugChallenge mb => Sys2Proof.Machine.execDebugChallenge mb s
  | .debugUnlock mb sigValid => Sys2Proof.Machine.execDebugUnlock mb sigValid s
  | .debugLock mb => Sys2Proof.Machine.execDebugLock mb s
  | .getNumericCaps mb => Sys2Proof.Machine.execGetNumericCaps mb s
  | .setSrSeed mb => Sys2Proof.Machine.execSetSrSeed mb s
  | .setGovernorConfig mb => Sys2Proof.Machine.execSetGovernorConfig mb s
  | .getGovernorConfig mb => Sys2Proof.Machine.execGetGovernorConfig mb s
  | .pinLayerFormat mb => Sys2Proof.Machine.execPinLayerFormat mb s
  | .getLayerDecision mb => Sys2Proof.Machine.execGetLayerDecision mb s
  | .readTensorStats mb => Sys2Proof.Machine.execReadTensorStats mb s
  | .setFxScale mb => Sys2Proof.Machine.execSetFxScale mb s
  | .clearNumericCounters mb => Sys2Proof.Machine.execClearNumericCounters mb s
  | .readWgbCounters mb => Sys2Proof.Machine.execReadWgbCounters mb s
  | .clearWgbCounters mb => Sys2Proof.Machine.execClearWgbCounters mb s
  | .pcieLinkUp rates width => Sys2Proof.Machine.execPcieLinkUp rates width s
  | .doeDiscoveryRequest index => Sys2Proof.Machine.execDoeDiscoveryRequest index s
  | .mctpControlRequest command data => Sys2Proof.Machine.execMctpControlRequest command data s
  | .pldmEventRead => Sys2Proof.Machine.execPldmEventRead s
  | .dynamicAddressAssign addr => Sys2Proof.Machine.execDynamicAddressAssign addr s
  | .jtagTapOperation vendor ir dr => Sys2Proof.Machine.execJtagTapOperation vendor ir dr s
  | .attnReservedKind tile th w => Sys2Proof.Machine.execAttnReservedKind tile th w s

end Sys2Proof.Machine
end

