-- ==== Sys2Proof/Machine/Tick.lean ====
section
/-! DEFINITION. What one microsecond does when no command waits (1): the Spine's counter and its slew (R410, R413), the
always-on counters (R593), a wake that waits (R646), and the counters of ticks (R332, R446). -/

namespace Sys2Proof.Machine

/-- The nanosecond by which a slewing counter is put right in this tick: one in every second tick, 500 ppm (R413). -/
def Spine.slewStep (x : Spine) : Int :=
  if x.tick % 2 = 1 ∨ x.slew = 0 then 0 else if 0 < x.slew then 1 else -1

/-- The Spine's counter one microsecond later. -/
def Spine.advance (x : Spine) : Spine :=
  let d := x.slewStep
  let t := (x.tick * 1000 + x.phase + 1000 + d).toNat
  { x with tick := t / 1000 % 2 ^ 48, phase := t % 1000, slew := x.slew - d }

/-- The always-on counters one microsecond later. -/
def Pcm.advance (p : Pcm) : Pcm :=
  { p with us := p.us + 1, ms := if (p.us + 1) % 1000 = 0 then (p.ms + 1) % 2 ^ 48 else p.ms }

/-- An access waits under a cause: a descriptor's, a line's, the streamer's, or the ingest engine's (R32, R332, R467). -/
def State.waitsFor (s : State) (c : Nat) : Bool :=
  s.ige.wait.map (·.1) == some c || s.tiles.any fun t =>
    t.2.lateLines.any (fun w => w.2.1 == c)
      || t.2.ctxs.any fun x => x.2.any fun l => l.descs.any fun d => d.wait.map (·.1) == some c

/-- The tick counters of R332. -/
def countStalls (s : State) : State :=
  s.ptuCtr fun k => (List.range 7).foldl (fun k c => if s.waitsFor c then Ctrs.sat k (2 * c + 1) 1 else k) k

/-- Sections whose next chunk waits for room (R446). -/
def State.sectionsWaiting (s : State) : Nat :=
  ((List.range 4).filter fun i => match s.nextChunk i with
    | some (_, e, r, j) => r.started && decide (sectionBytes < s.claimed i + s.claimOf e r j)
    | none => false).length

/-- The tick counters of the ingest engine: its reads that wait, and its wait for the release word (R491). -/
def countIngest (s : State) : State :=
  let s := if s.ige.wait.isSome then s.igeCtr fun c => Ctrs.sat c 9 1 else s
  if s.ige.waitsRelease then s.igeCtr fun c => Ctrs.sat c 10 1 else s

/-- One microsecond passes. -/
def tick (s : State) : State :=
  let s := if s.sys.pwrGood then raiseMainEn (s.modPcm Pcm.advance) else s
  if s.sys.bootStep = 0 then s
  else
    let s := countIngest (countStalls { s with spine := s.spine.advance })
    let n := s.sectionsWaiting
    if n = 0 then s else s.cleCtr fun c => Ctrs.sat c 1 n

end Sys2Proof.Machine
end

