-- ==== Sys2Proof/Machine/Package.lean ====
section
/-! DEFINITION. The lands of the package and the levels of the output pins (R640, R648 to R651, R654 to R656). -/

namespace Sys2Proof.Machine

/-- The rails (R640). -/
inductive Rail where
  | core (die : Nat)
  | hbmC
  | hbmQ
  | hbmPp
  | mphy
  | serdes
  | serdesH
  | pcie
  | aon
  | io
  deriving DecidableEq, Repr

/-- The energy groups of the rails (R640). -/
inductive RailGroup where
  | core (die : Nat)
  | hbm
  | io
  deriving DecidableEq, Repr

/-- The energy group in which a rail counts (R640). -/
def Rail.group : Rail → RailGroup
  | .core d => .core d
  | .hbmC | .hbmQ | .hbmPp | .mphy => .hbm
  | .serdes | .serdesH | .pcie | .aon | .io => .io

/-- The rail stays on in S3 (R640). -/
def Rail.onInS3 : Rail → Bool
  | .aon | .io => true
  | _ => false

/-- The system signals of D0 (R650). -/
inductive SysPin where
  | perstN
  | pwrGood
  | mainEn
  | mainGood
  | thermtripN
  | mgmtMode
  | pcieRefclkP
  | pcieRefclkN
  | aonClk
  | mgmtAddr (n : Nat)
  | xspiClk
  | xspiDqs
  | xspiCsN
  | xspiResetN
  | mgmtAlertN
  | xspiDq (n : Nat)
  | mgmtScl
  | mgmtSda
  | pmbScl
  | pmbSda
  | tck
  | tms
  | tdi
  | tdo
  | trstN
  deriving DecidableEq, Repr

/-- The differential lanes of a field. -/
inductive LaneOf where
  | link (n : Nat)
  | pcie
  deriving DecidableEq, Repr

/-- What a land carries (R649). -/
inductive Land where
  | vss
  | rail (r : Rail)
  | lane (port : LaneOf) (lane : Nat) (transmit positive : Bool)
  | linkRefclk (die : Nat) (positive : Bool)
  | sys (p : SysPin)
  deriving DecidableEq, Repr

/-- A field's land at lane u and depth v from the package edge (R649). -/
def laneLand (port : LaneOf) (u v : Nat) : Land :=
  match v with
  | 0 => .lane port u true true
  | 1 => .lane port u true false
  | 3 => .lane port u false true
  | 4 => .lane port u false false
  | _ => .vss

/-- The system field, rows i = 43 to 48 and columns j = 1 to 6 (R650). -/
def systemField : List (List Land) :=
  [ [.sys .perstN, .sys .pwrGood, .sys .mainEn, .sys .mainGood, .sys .thermtripN, .sys .mgmtMode],
    [.sys .pcieRefclkP, .sys .pcieRefclkN, .vss, .sys .aonClk, .sys (.mgmtAddr 0), .sys (.mgmtAddr 1)],
    [.vss, .sys .xspiClk, .sys .xspiDqs, .sys .xspiCsN, .sys .xspiResetN, .sys .mgmtAlertN],
    [.sys (.xspiDq 0), .sys (.xspiDq 1), .sys (.xspiDq 2), .sys (.xspiDq 3), .sys .mgmtScl, .sys .mgmtSda],
    [.sys (.xspiDq 4), .sys (.xspiDq 5), .sys (.xspiDq 6), .sys (.xspiDq 7), .sys .pmbScl, .sys .pmbSda],
    [.sys .tck, .sys .tms, .sys .tdi, .sys .tdo, .sys .trstN, .vss] ]

/-- A coordinate counted from the package edge that bounds its quadrant (R648). -/
def fromEdge (x : Nat) : Nat := if x ≤ 52 then x else 105 - x

/-- The die under which a land lies (R648, R649). -/
def landDie (y x : Nat) : Nat := 2 * (if 52 < y then 1 else 0) + if 52 < x then 1 else 0

/-- The rail of a power land at ring d of the middle band or of the core (R649). -/
def ringRail (q i j : Nat) : Rail :=
  let d := min i j
  if d ≤ 8 then (if q = 0 ∧ i ≤ 8 ∧ 33 ≤ j then .pcie else .serdes)
  else if d = 9 then (if i = 9 then .serdesH else .hbmPp)
  else if d ≤ 11 then .mphy
  else if d ≤ 13 then .hbmQ
  else if d ≤ 16 then .hbmC
  else .core q

/-- The land (Y, X), each from 1 to 104 (R649). -/
def land (y x : Nat) : Land :=
  let q := landDie y x
  let i := fromEdge y
  let j := fromEdge x
  let odd := (i + j) % 2 == 1
  if i ≤ 6 ∧ 9 ≤ j ∧ j ≤ 40 then laneLand (.link (8 * q + (j - 9) / 8)) ((j - 9) % 8) (i - 1)
  else if j ≤ 6 ∧ 9 ≤ i ∧ i ≤ 40 then laneLand (.link (8 * q + 4 + (i - 9) / 8)) ((i - 9) % 8) (j - 1)
  else if i ≤ 6 ∧ 41 ≤ j ∧ j ≤ 48 then (if q = 0 then laneLand .pcie (j - 41) (i - 1) else .vss)
  else if i = 41 ∧ j ≤ 2 then .linkRefclk q (j == 1)
  else if q = 0 ∧ j ≤ 6 ∧ 43 ≤ i ∧ i ≤ 48 then ((systemField.getD (i - 43) []).getD (j - 1) .vss)
  else if i ≤ 6 ∨ j ≤ 6 then
    if q = 0 ∧ odd ∧ i ≤ 6 ∧ j ≤ 8 then .rail .aon
    else if q = 0 ∧ odd ∧ 49 ≤ i then .rail .io
    else .vss
  else if !odd then .vss
  else .rail (ringRail q i j)

/-! ### Output pins -/

/-- The level of an output that the state decides: true is high, or released for an open-drain output. The serial buses,
the flash data and the test port have none here. -/
def State.pin (s : State) : SysPin → Option Bool
  | .mainEn => some s.sys.mainEn
  | .thermtripN => some !s.sys.thermtrip
  | .xspiResetN => some s.sys.xspiResetN
  | .mgmtAlertN => some (s.sys.mgmtMode || s.pcm.events.isEmpty)
  | _ => none

end Sys2Proof.Machine
end

