-- ==== Sys2Proof/WellFormed.lean ====
section
/-! DEFINITION. When a command is well formed: its operands have the sizes that the spec gives them. The meaning of a command
is total all the same; a command that is not well formed is one that no sender can form. -/

namespace Sys2Proof

/-- A packet whose fields fit their places in the header slot (R381, R382). -/
def Packet.ok (p : Packet) : Bool :=
  decide (p.cls < 16 ∧ p.vc < 4 ∧ p.srcPos < 1024 ∧ p.dstPos < 1024) && p.cword.length == 8
    && decide (p.data.length % 16 = 0 ∧ p.data.length ≤ 65520)

/-- A lender's position and its window (R326, R328). -/
def windowOk (lender window : Nat) : Bool := decide (lender < 1024 ∧ window < 2 ^ 16)

/-- Whole words of n bytes (R286). -/
def wordsOk (n : Nat) (data : List Byte) : Bool := decide (0 < data.length) && data.length % n == 0

/-- A register access of 4 or 8 bytes (R541). -/
def widthOk (width : Nat) : Bool := width == 4 || width == 8

/-- The command is well formed. -/
def Instr.wf : Instr → Bool
  | .pwrGoodRise _ _ => true
  | .pwrGoodFall => true
  | .perstAssert => true
  | .perstRelease => true
  | .mainGoodFall => true
  | .mainGoodRise => true
  | .mainEnWakeTimeout => true
  | .hotReset => true
  | .flr => true
  | .devResetStart => true
  | .mgmtDevMessage => true
  | .configRequest _ _ _ => true
  | .bootPufDerive _ => true
  | .configRecordCheck _ => true
  | .imageLoadCheck _ => true
  | .measurementsRecord => true
  | .hbmTraining ids _ _ => ids.length == 20 && ids.all fun r => decide (r.rate ≤ 4)
  | .firmwareReady => true
  | .linkRelease => true
  | .linkTrainingTimeout _ => true
  | .laneLock _ _ _ => true
  | .flitLock _ => true
  | .helloResend _ => true
  | .hello _ flit => flit.length == 448
  | .linkAdmit _ => true
  | .ping rx => rx.bytes.length == 448
  | .pong rx _ => rx.bytes.length == 448
  | .hold rx => rx.bytes.length == 448
  | .positionChange _ flit => flit.length == 448
  | .dataFlitReceive _ flit => flit.length == 448
  | .idleFlitReceive _ flit => flit.length == 448
  | .nakReceive _ _ => true
  | .packetSend _ => true
  | .ackTimeout _ => true
  | .signalLoss _ => true
  | .linkDown _ => true
  | .peerLost _ => true
  | .selfIsolate => true
  | .linkTestEnd _ bits errors => bits.length == 8 && errors.length == 8
  | .syncSend => true
  | .sync _ p => p.ok
  | .stagCandidateTimeout => true
  | .statusReport => true
  | .status _ p => p.ok
  | .commitDecide => true
  | .commit _ p => p.ok
  | .stepStart => true
  | .fault _ p => p.ok
  | .rewind _ p => p.ok
  | .stop _ p => p.ok
  | .rebind _ p => p.ok
  | .restoreComplete => true
  | .replayStart => true
  | .stepWatchdog _ => true
  | .collectiveEntryStart entry => decide (entry < 4096)
  | .chunkAdmit _ => true
  | .credit _ p => p.ok
  | .upData _ p => p.ok
  | .downData _ p => p.ok
  | .pipelineTransfer _ p => p.ok
  | .sealSummary _ p => p.ok
  | .seal _ p => p.ok
  | .abortEntry _ p => p.ok
  | .chunkComplete entry _ => decide (entry < 4096)
  | .governorDecide => true
  | .quireArrival _ header _ => header.length == 64
  | .quireCredit _ => true
  | .landingBufferFree _ _ => true
  | .leafStallExpiry _ => true
  | .leafEvict _ => true
  | .leafReturn _ _ _ _ data _ => decide (0 < data.length)
  | .stateTransferPacket _ p => p.ok
  | .stateRequest _ _ => true
  | .retainedRepair _ _ data _ => data.length == 49664
  | .manifestComplete => true
  | .takeoverStreamComplete _ => true
  | .takeoverBoundExpiry => true
  | .reclaimNotice lender window => windowOk lender window
  | .reclaimBlockPlace lender window _ _ => windowOk lender window
  | .reclaimBoundExpiry lender window => windowOk lender window
  | .reclaimDone _ window => decide (window < 2 ^ 16)
  | .farRequest _ write window _ len data _ => decide (window < 2 ^ 16) && (!write || data.length == len)
  | .farData _ _ vpn _ data _ => decide (vpn < 2 ^ 36) && decide (data.length ≤ 4096)
  | .hostTierCompletion _ vpn data _ _ => decide (vpn < 2 ^ 36) && decide (data.length ≤ 65536)
  | .migrationComplete _ vpn => decide (vpn < 2 ^ 36)
  | .pageEviction _ => true
  | .nop _ _ _ => true
  | .endThread _ _ _ => true
  | .br _ _ _ => true
  | .loop _ _ _ => true
  | .waitev _ _ _ => true
  | .sigev _ _ _ => true
  | .tickwait _ _ _ => true
  | .tickwaitExpiry _ _ => true
  | .smovi _ _ _ => true
  | .salu _ _ _ => true
  | .sld _ _ _ => true
  | .sst _ _ _ => true
  | .mma _ _ _ => true
  | .mconv _ _ _ => true
  | .mzero _ _ _ => true
  | .mdrain _ _ _ => true
  | .reservedOpcode _ _ _ => true
  | .unitInstructionComplete _ _ => true
  | .freezeLong _ => true
  | .codeLineFetch _ _ => true
  | .vchain _ _ _ => true
  | .vchainExecute _ => true
  | .desc _ _ _ => true
  | .descLineFetch _ _ => true
  | .descriptorCheck _ _ => true
  | .load _ _ => true
  | .store _ _ => true
  | .copy _ _ => true
  | .mcast _ _ => true
  | .mcastStart _ _ => true
  | .mrecv _ _ => true
  | .wgbUnload _ _ => true
  | .wgbLoad _ _ => true
  | .atomic _ _ => true
  | .requestComplete _ req => decide (req < 512)
  | .prgBucketRefill => true
  | .regulatorGrant _ => true
  | .writeOrRead write _ len data _ => decide (0 < len ∧ len ≤ 256) && (!write || data.length == len)
  | .iadd32 _ data => wordsOk 4 data
  | .iadd64 _ data => wordsOk 8 data
  | .fmax32 _ data => wordsOk 4 data
  | .fadd32 _ _ data => wordsOk 4 data
  | .faddbf16 _ _ data => wordsOk 2 data
  | .final32 _ => true
  | .finalbf16 _ => true
  | .atomicIntAdd _ _ _ _ => true
  | .atomicSwap _ _ _ _ => true
  | .atomicCompareAndSwap _ _ _ _ _ => true
  | .atomicAndOrXor _ _ _ _ _ => true
  | .atomicMinMax _ _ _ _ _ => true
  | .atomicFloatAdd _ _ _ => true
  | .hotBankEpisode _ startTick _ _ => decide (startTick < 2 ^ 48)
  | .hotBankEpisodeEnd _ => true
  | .ecsResultRead errors => errors.length == 20
  | .append _ _ _ => true
  | .fwd _ _ _ => true
  | .attnFinal _ _ _ => true
  | .bwdPrep _ _ _ => true
  | .bwd _ _ _ => true
  | .gfinal _ _ _ => true
  | .qsend _ _ _ => true
  | .qrelease _ _ _ => true
  | .lfetch _ _ _ => true
  | .trunc _ _ _ => true
  | .sampleStart => true
  | .sampleDecodeComplete => true
  | .microbatchStart => true
  | .microbatchReady => true
  | .scrubComplete => true
  | .injectLinkDrop _ => true
  | .injectLinkDropEnd _ => true
  | .camloWatchdogExpiry => true
  | .fatalEvent _ => true
  | .colophonSummaryWritten => true
  | .codeIntegrityCheck _ => true
  | .debugNonceExpiry => true
  | .droopEvent _ => true
  | .droopRelease _ _ => true
  | .freqRelockStart _ => true
  | .freqRelockComplete _ => true
  | .energyModelSample energy => energy.length == 6
  | .sustainedLoopPeriod => true
  | .envelopeSecond => true
  | .minuteEnd => true
  | .thermalSample tiles hbms dies => tiles.length == 256 && hbms.length == 20 && dies.length == 4
  | .pmbusRead _ _ => true
  | .pmbusCalibration => true
  | .sleepTransitionDone => true
  | .pldmWakeRequest => true
  | .pldmSensorRead _ => true
  | .mgmtCapEffecterSet _ => true
  | .telemetryMirrorUpdate => true
  | .spdmGetVersion _ msg => decide (4 ≤ msg.length)
  | .spdmGetCapabilities _ msg => decide (4 ≤ msg.length)
  | .spdmNegotiateAlgorithms _ msg => decide (4 ≤ msg.length)
  | .spdmGetDigests _ msg => decide (4 ≤ msg.length)
  | .spdmGetCertificate _ msg => decide (4 ≤ msg.length)
  | .spdmChallenge _ msg => decide (4 ≤ msg.length)
  | .spdmGetMeasurements _ msg => decide (4 ≤ msg.length)
  | .spdmUnsupported _ msg => decide (4 ≤ msg.length)
  | .bar0AccessError _ _ width => decide (0 < width)
  | .bar2Access write _ len data _ => (if write then decide (0 < data.length) else decide (0 < len))
  | .bar4Access _ _ width _ => widthOk width
  | .mailboxHandoff _ _ => true
  | .mailboxWriteDrop _ _ => true
  | .intCauseWrite _ => true
  | .intMaskWrite _ => true
  | .mbDoneWrite _ => true
  | .cplConsumedWrite _ => true
  | .registerWrite _ width _ => widthOk width
  | .undefinedCommand _ => true
  | .getIdentity _ => true
  | .mbEcho _ => true
  | .mbStatus _ => true
  | .deviceReset _ => true
  | .bar2WindowSet _ => true
  | .intrRoute _ => true
  | .cplRingSet _ => true
  | .readHifCounters _ => true
  | .clearHifCounters _ => true
  | .channelCreate _ => true
  | .channelDestroy _ => true
  | .channelSetMode _ => true
  | .programLoad _ => true
  | .channelUpdate _ => true
  | .channelStart _ => true
  | .channelStop _ => true
  | .channelStatus _ => true
  | .getTileState _ => true
  | .tileReset _ => true
  | .readTileCounters _ => true
  | .clearTileCounters _ => true
  | .readTfeCounters _ => true
  | .clearTfeCounters _ => true
  | .memGetConfig _ => true
  | .memClearRange _ => true
  | .memMapAddress _ => true
  | .memReadCounters _ => true
  | .memClearCounters _ => true
  | .shcFlush _ => true
  | .prgSet _ => true
  | .prgReport _ => true
  | .hotBankLog _ => true
  | .fxRegionDefine _ => true
  | .fxRegionRelease _ => true
  | .tgcConfig _ => true
  | .tgcStart _ => true
  | .tgcStatus _ => true
  | .tgcStop _ => true
  | .tgcComplete => true
  | .ptuInit _ => true
  | .partitionSetView _ => true
  | .partitionSetQuota _ => true
  | .pageMap _ => true
  | .pageUnmap _ => true
  | .pageMigrate _ => true
  | .pagePin _ => true
  | .pageQuery _ => true
  | .poolStatus _ => true
  | .farLend _ => true
  | .farUnlend _ => true
  | .farPoolSet _ => true
  | .setReclaimBound _ => true
  | .hostRegionAdd _ => true
  | .hostRegionRemove _ => true
  | .readPtuCounters _ => true
  | .clearPtuCounters _ => true
  | .leafPoolCreate _ => true
  | .leafPoolDestroy _ => true
  | .slotCreate _ => true
  | .slotReset _ => true
  | .slotDestroy _ => true
  | .slotSetRing _ => true
  | .slotStatus _ => true
  | .leafPin _ => true
  | .setLeafStallBound _ => true
  | .readLeafCounters _ => true
  | .clearLeafCounters _ => true
  | .readLeafEntry _ => true
  | .linkStatus _ => true
  | .posTableLoad _ => true
  | .posTableRead _ => true
  | .linkEnable _ => true
  | .linkRetrain _ => true
  | .linkTestStart _ => true
  | .linkTestResult _ => true
  | .setPeerLostBound _ => true
  | .readLinkCounters _ => true
  | .clearLinkCounters _ => true
  | .readLinkEvents _ => true
  | .herdConfig _ => true
  | .herdStatus _ => true
  | .groupDefine _ => true
  | .groupRelease _ => true
  | .scheduleLoad _ => true
  | .spineStart _ => true
  | .spineStop _ => true
  | .epochAdvance _ => true
  | .readLateness _ => true
  | .clearCleCounters _ => true
  | .readCleCounters _ => true
  | .spineTime _ _ => true
  | .collStatus _ => true
  | .placementReport _ => true
  | .igeSetup _ => true
  | .igeDictLoad _ => true
  | .igeSetLimits _ => true
  | .igeStart _ => true
  | .igeStop _ => true
  | .igeStatus _ => true
  | .igeReadSkipLog _ => true
  | .igeReadCounters _ => true
  | .igeClearCounters _ => true
  | .igeCacheSet _ => true
  | .igePermute _ => true
  | .errLogRead _ => true
  | .errLogClear _ => true
  | .scrubStart _ => true
  | .scrubStatus _ => true
  | .scrubStop _ => true
  | .injectArm _ => true
  | .injectDisarm _ => true
  | .retireGranule _ => true
  | .retireBank _ => true
  | .rowRepair _ _ _ => true
  | .retireListRead _ => true
  | .mirrorConfig _ => true
  | .mirrorStatus _ => true
  | .fawnManifestLoad _ => true
  | .takeoverRecordRead _ => true
  | .setRecoveryLimits _ => true
  | .recoveryStatus _ => true
  | .colophonRead _ => true
  | .colophonRelease _ => true
  | .readRseCounters _ => true
  | .clearRseCounters _ => true
  | .pwrGetLimits _ => true
  | .pwrSetCap _ => true
  | .envDeclare _ => true
  | .envStatus _ => true
  | .tileFreqSet _ => true
  | .tileFreqGet _ => true
  | .sleepEnter _ => true
  | .pmbusCalibrate _ _ => true
  | .thermalStatus _ => true
  | .readPcmCounters _ => true
  | .clearPcmCounters _ => true
  | .getMeasurements _ => true
  | .getCertificate _ => true
  | .attestSign _ _ => true
  | .configRecordRead _ => true
  | .fwImageStage _ _ => true
  | .fwImageActivate _ _ => true
  | .imagePush _ _ => true
  | .debugChallenge _ => true
  | .debugUnlock _ _ => true
  | .debugLock _ => true
  | .getNumericCaps _ => true
  | .setSrSeed _ => true
  | .setGovernorConfig _ => true
  | .getGovernorConfig _ => true
  | .pinLayerFormat _ => true
  | .getLayerDecision _ => true
  | .readTensorStats _ => true
  | .setFxScale _ => true
  | .clearNumericCounters _ => true
  | .readWgbCounters _ => true
  | .clearWgbCounters _ => true
  | .pcieLinkUp rates width => rates != 0 && [1, 2, 4, 8].contains width
  | .doeDiscoveryRequest _ => true
  | .mctpControlRequest _ _ => true
  | .pldmEventRead => true
  | .dynamicAddressAssign _ => true
  | .jtagTapOperation _ _ _ => true
  | .attnReservedKind _ _ _ => true

end Sys2Proof
end

