-- ==== Sys2Proof/Safety.lean ====
section
/-! DEFINITION. What a safe run of the block is, in the terms that the statements use, and the notions that several
statements share: a mailbox that holds a command, and what an answered mailbox shows. -/

namespace Sys2Proof.Safety

open Sys2Proof.Machine

/-- Every memory that the state holds as a list of bytes is in its canonical form: addresses rise strictly, and no listed
byte is what an unlisted one reads as. -/
def MemOk (s : State) : Prop := Mem.wf s.mem.bytes ∧ Mem.wf s.host ∧ Mem.wf s.flash

/-- The boot sequence stands where it can: its step is one of 0 to 8, and READY is set at step 8 only (R605, R619,
R631). -/
def BootOk (s : State) : Prop := s.sys.bootStep ≤ 8 ∧ (s.sys.ready = true → s.sys.bootStep = 8)

/-- What every step keeps. -/
def Inv (s : State) : Prop := MemOk s ∧ BootOk s

/-- No fault report is answered now: none waits, or a new acting Stag still holds them (R418). -/
def Calm (s : State) : Prop := s.spine.newStag = true ∨ s.spine.faults = []

/-- Mailbox mb holds an accepted command of this code with n argument words, and the words after those are 0
(R547, R549). -/
def Holds (s : State) (mb : Fin 16) (code n : Nat) : Prop :=
  s.owns mb code = true ∧ (s.mailbox mb).zeroFrom n = true ∧ Calm s

/-- The n bytes at a mailbox command's destination pointer are written, and the state after that is s' (R550). -/
def ReportAt (s s' : State) (w : Nat) (data : List Byte) : Prop :=
  ptrErr w data.length 64 true s = none ∧ ptrWrite w data s = .ok s' ∧ Calm s'

/-- A mailbox command's pointer yields a record of n bytes that is not marked bad, and the state after the read is s'
(R539, R550). -/
def RecordAt (s s' : State) (w n align : Nat) (data : List Byte) : Prop :=
  ptrErr w n align false s = none ∧ ptrRead w n s = .got data false s' ∧ Calm s'

/-- `new` is `old` with the counters of a mask cleared (R18). -/
def Cleared (old new : Ctrs) (mask : Nat) : Prop :=
  ∀ i, Ctrs.get new i = if mask.testBit i then 0 else Ctrs.get old i

/-- Argument word i of mailbox mb. -/
abbrev argOf (s : State) (mb : Fin 16) (i : Nat) : Nat := (s.mailbox mb).arg i

/-- What an answered mailbox shows (R547 steps 5 and 6): OWN clear, STATUS and SEQ_ECHO, the result words, MB_DONE, and
every other mailbox as it was. -/
structure Answered (s t : State) (mb : Fin 16) (st : Nat) (res : List Nat) : Prop where
  own : (t.mailbox mb).own = false
  status : (t.mailbox mb).word4 = BitVec.ofNat 32 (st + (s.mailbox mb).seq * 2 ^ 16)
  result : ∀ i : Nat, i < 15 → ∀ v : Nat, res[i]? = some v → SMap.getD (t.mailbox mb).res i 0 = BitVec.ofNat 64 v
  done : t.hif.mbDone = s.hif.mbDone ||| BitVec.ofNat 16 (2 ^ (mb : Nat))
  others : ∀ j : Nat, j ≠ mb → t.mailbox j = s.mailbox j

/-- Thread th of tile t stands at instruction w of opcode op, which it may issue, and the instruction at `next` lies in
its code (R95, R104, R127, R128). -/
def Issues (s : State) (t th : Nat) (w : BitVec 128) (op : Nat) (next : Int) : Prop :=
  s.atInsn t th w = true ∧ Ins.op w = op ∧ insReserved w = false ∧ s.pcGood t next = true ∧ Calm s

/-- A program counter at an offset. -/
abbrev pcAt (next : Int) : BitVec 32 := BitVec.ofNat 32 next.toNat

/-- What a sequencer instruction that touches its own thread alone leaves: the thread as `h`, one more instruction
counted on the tile, its turn noted as the last, and nothing else changed (R95, R104, R146). -/
structure Advanced (s u : State) (t th : Nat) (h : Thread) : Prop where
  thread : (u.tile t).thread th = h
  others : ∀ q, q ≠ th → (u.tile t).thread q = (s.tile t).thread q
  rest : { u.tile t with threads := (s.tile t).threads }
    = { s.tile t with ctrs := Ctrs.sat (s.tile t).ctrs 0 1, lastTh := th }
  tiles : ∀ q, q ≠ t → u.tile q = s.tile q
  frame : { u with tiles := s.tiles } = s

/-- Thread th of tile t stands at instruction w of opcode op for a unit, which takes it now: its queue has room and the
accumulator tiles that the instruction reads and writes are free (R95, R96, R98). -/
def IssuesTo (s : State) (t th : Nat) (w : BitVec 128) (op u : Nat) (rd wr : List Nat) : Prop :=
  Issues s t th w op (s.nextPc t th) ∧ (s.tile t).room u th = true ∧ (s.tile t).scoreFree rd wr = true

/-- Nothing is wrong with the n bytes of device memory at pa: no injection is armed, no sector is marked or damaged, no
line is in the shared cache, and no share's bitmap has failed (R273, R274, R276, R281). -/
def Healthy (s : State) (pa n : Nat) : Prop :=
  s.rse.inj = [] ∧ (∀ k, pa / 32 ≤ k → 32 * k < pa + n → k ∉ s.mem.poison ∧ SMap.lookup s.mem.damage k = none)
    ∧ (∀ l, pa / 256 ≤ l → 256 * l < pa + n → SMap.lookup s.mem.shc l = none)
    ∧ ∀ a, pa ≤ a → a < pa + n → s.mem.shareBad a = false

/-- The n words of w bytes at pa take the values that f gives from the old ones, and no other byte of device memory
changes. -/
def WordsMapped (s t : State) (pa w n : Nat) (f : Nat → Nat → Nat) : Prop :=
  (∀ i, i < n → Mem.readN t.mem.bytes (pa + w * i) w = natLe w (f i (leNat (Mem.readN s.mem.bytes (pa + w * i) w))))
    ∧ ∀ a, (a < pa ∨ pa + w * n ≤ a) → Mem.get t.mem.bytes a = Mem.get s.mem.bytes a

/-- No tile's streamer has an operation in its queue. -/
def Quiet (s : State) : Prop := ∀ p ∈ s.tiles, SMap.getD p.2.queues 2 [] = []

/-- Every page of a virtual range of a partition is in tier 1 and stays there: an access goes on at once (R312). -/
def Resident (s : State) (part va len : Nat) : Prop :=
  ∀ c ∈ pagePieces va len, ∃ k g, s.pageAt part c.1 = some (k, g) ∧ g.tier = 1 ∧ g.motion = false ∧ g.lost = false
    ∧ s.leaving k = false

/-- Thread th of tile t stands at an attention instruction w of kind k on slot x of pool p. It issues and its operation
runs at once: every streamer's queue is empty, no injection is armed and the tile's words are good, its descriptor d
passes every check, and the pages of its rotary table and quire are in place (R95, R195 to R200, R332). -/
def AttnRuns (s : State) (t th : Nat) (w : BitVec 128) (k : Nat) (d : List Byte) (x : Slot) (p : LeafPool) : Prop :=
  At.kind w = k
    ∧ (∃ a, a = baseAddr ((s.tile t).thread th) (At.dg w) (At.doff w) ∧ a % 64 = 0 ∧ a + 64 ≤ 0x100000
        ∧ d = Mem.readN (s.tile t).scratch a 64)
    ∧ s.slot (At.slot w) = some x ∧ s.poolOf x = some p
    ∧ IssuesTo s t th w 0x40 2 (attnTiles k d p.hd) (if k = kFwd ∨ k = kBwd then attnTiles k d p.hd else [])
    ∧ Quiet s ∧ s.rse.inj = [] ∧ (s.tile t).poison = [] ∧ (k = kFwd ∨ k = kBwd → (s.tile t).queue 0 = [])
    ∧ attnKind t th w d s = 0 ∧ ∀ v ∈ attnVas k d x p, Resident s p.part v.1 v.2.1

/-- The instruction has left its thread and stands in the streamer's queue; `ran` says whether its work is done. -/
structure AttnLeft (s u : State) (t th : Nat) (w : BitVec 128) (ran : Bool) : Prop where
  pc : ((u.tile t).thread th).pc = pcAt (s.nextPc t th)
  queued : ∃ q, (u.tile t).queue 2 = [q] ∧ q.word = w ∧ q.th = th ∧ q.ran = ran
  others : ∀ q, q ≠ t → u.tile q = s.tile q

/-- A fault that is reported now is not answered now: a new acting Stag holds it, or no schedule runs and only what is
logged comes of it (R418, R494). -/
def Still (s : State) : Prop := s.spine.newStag = true ∨ (s.spine.faults = [] ∧ s.spine.running = false)

/-- One link is as given, and every other link is as it was. -/
def LinkIs (s t : State) (l : Nat) (y : Link) : Prop := t.link l = y ∧ ∀ k, k ≠ l → t.link k = s.link k

/-- A link after the header of a flit that passed its checks, with no NAK (R386, R387). -/
def heard (x : Link) (h : FlitHead) : Link :=
  let y := { x with badRun := 0 }.credited h
  if h.ackv then y.acked h.ack else y

/-- The bytes are a control flit that passes its checks, with no NAK and a message m of kind k (R387, R396). -/
def ControlIs (flit : List Byte) (h : FlitHead) (m : List Byte) (k : Nat) : Prop :=
  ∃ payload, flitDecode flit = .good h payload 0 ∧ h.type = 2 ∧ h.nak = false ∧ fieldAt payload 0 1 = k ∧ m = payload.take 32

/-- A transmitter after n more flits have left: the VCs of CREDITS have taken their turns (R384). -/
def sentTimes : Nat → Link → Link
  | 0, x => x
  | n + 1, x => sentTimes n x.sent

/-- The training pattern goes out on a link, unless it is held in electrical idle (R395). -/
def patternOf (s : State) (l : Nat) : List Output := if (s.link l).dropped then [] else [.pattern l]

/-- No tile has a request in flight. -/
def NoRequests (s : State) : Prop := ∀ p ∈ s.tiles, p.2.reqs = []

/-- A packet of this class reaches the device on an Active link, and is one for it (R383). -/
def ArrivesOn (s : State) (l : Nat) (p : Packet) (cls : Nat) : Prop :=
  (s.link l).st = 3 ∧ s.misrouted p = false ∧ p.cls = cls

/-- The packet is a Spine order of this SKIND that has not been seen (R421). -/
def OrderOn (s : State) (l : Nat) (p : Packet) (skind key key2 : Nat) : Prop :=
  ArrivesOn s l p 1 ∧ skindOf p = skind ∧ s.orderSeen skind key key2 = false

/-- A Spine packet of this SKIND with these data bytes has been queued on every link of a list (R385, R419). -/
def SentOn (s t : State) (ls : List Nat) (skind : Nat) (data : List Byte) : Prop :=
  s.links.isolated = false → ∀ k ∈ ls, ∃ q rest, SMap.getD (t.link k).queues 0 [] = SMap.getD (s.link k).queues 0 [] ++ q :: rest
    ∧ skindOf q = skind ∧ q.data.take data.length = data ∧ q.dstPos = s.peerOf k

/-- A collective packet of this PKIND reaches the device for run k (R383, R448, R450). -/
def CollOn (s : State) (l : Nat) (p : Packet) (kind k : Nat) : Prop :=
  (ArrivesOn s l p 2 ∨ ArrivesOn s l p 3) ∧ collKind p = kind ∧ s.collFor p = .run k

/-- A collective packet of this PKIND has been queued for a position, on the lowest link of its set (R385, R448). -/
def CollSent (s t : State) (pos kind : Nat) : Prop :=
  ∀ l ls, s.linkSet pos = l :: ls → s.links.isolated = false →
    ∃ q, q ∈ (SMap.getD (t.link l).queues 1 []).drop (SMap.getD (s.link l).queues 1 []).length
      ∧ collKind q = kind ∧ q.dstPos = pos

/-- Run r of entry e, with key k, has started and is neither sealed nor at an end; the entry reads no SRC and has no
twin. -/
def RunOpen (s : State) (k : Nat) (e : Entry) (r : Run) : Prop :=
  SMap.lookup s.cle.runs k = some r ∧ s.entryOf k = some e ∧ e.src = 0 ∧ e.twin = false ∧ s.lastTwin = none
    ∧ r.started = true ∧ r.aborted = false ∧ r.stopped = false ∧ r.sealed = false

/-- Everything is as after PWR but the pins and the boot sequence, with what lies outside the device, its flash, what no
reset restores and the model's own fields as they were (R12, R546, R620, R634). -/
def LostAll (s t : State) : Prop :=
  { t with sys := Sys.reset } = { State.reset with
    pending := s.pending, out := s.out, freeCtr := s.freeCtr, host := s.host, hostBad := s.hostBad, flash := s.flash
    rse := { Rse.reset with slots := s.rse.slots }
    sec := { Sec.reset with deviceId := s.sec.deviceId, lotCode := s.sec.lotCode } }

/-- Tile k's power state is as given; of everything else only the PCM counters may have changed. -/
structure TilePwrIs (s t : State) (k : Nat) (y : TilePwr) : Prop where
  tile : t.tilePwr k = y
  others : ∀ j, j ≠ k → t.tilePwr j = s.tilePwr j
  rest : { t with pcm := { t.pcm with tiles := s.pcm.tiles, ctrs := s.pcm.ctrs } } = s

/-- Every tile has asked for the frequency that it needs, and sensor 33 is up to date: nothing else has changed (R574,
R590, R591). -/
structure Settled (s t : State) : Prop where
  asks : ∀ k, k < 256 → (s.tilePwr k).freq ≠ 0 → (s.tilePwr k).relock = none →
    (t.tilePwr k).change = if (s.tilePwr k).freq = s.wantFreq k then none else some (s.wantFreq k)
  tiles : ∀ k, { t.tilePwr k with
    change := (s.tilePwr k).change, waited := (s.tilePwr k).waited, droops := (s.tilePwr k).droops } = s.tilePwr k
  health : t.pcm.health = t.healthNow
  events : t.pcm.events = s.pcm.events ++ if s.pcm.health = t.pcm.health then [] else [.sensor33 t.pcm.health]
  rest : { t with pcm := { t.pcm with tiles := s.pcm.tiles, health := s.pcm.health, events := s.pcm.events } } = s

/-- The rank's next position has been taken (R475). -/
def NextPosition (u : IgeSetup) (old new : IgeState) : Prop :=
  (old.pos + u.ranks < u.n → new.pos = old.pos + u.ranks ∧ new.epoch = old.epoch)
    ∧ (u.n ≤ old.pos + u.ranks → new.pos = u.rank ∧ new.epoch = (old.epoch + 1) % 2 ^ 64)

/-- Tokens of sample idx from its token `off` on have gone into the open micro-batch: in the state before, s, they fit or
fill it; what is left is carried over or dropped (R465, R481, R482). -/
structure Packed (u : IgeSetup) (idx off : Nat) (toks : List Nat) (s t : State) : Prop where
  words : u.boundary = false → t.mem = (vaWrite u.part
    (u.bufBase + 4 * u.tokens * (s.ige.cur.j % u.nbuf) + 4 * s.ige.fill)
    ((toks.take (u.tokens - s.ige.fill)).flatMap (natLe 4)) s).mem
  fits : s.ige.fill + toks.length < u.tokens →
    t.ige.open_ = s.ige.open_ ∧ t.ige.fill = s.ige.fill + toks.length ∧ t.ige.cur.j = s.ige.cur.j
  fills : s.ige.fill ≤ u.tokens → u.tokens ≤ s.ige.fill + toks.length →
    t.ige.open_ = false ∧ t.ige.fill = 0 ∧ t.ige.cur.j = s.ige.cur.j + 1 ∧ s.ige.cur.j ∈ t.ige.full
  carried : t.ige.cur.carried = if u.carry = true ∧ u.tokens - s.ige.fill < toks.length then some idx else none
  sample : t.ige.sample = s.ige.sample

/-- A sample has been skipped or rejected for a reason (R478, R479). -/
structure Skipped (u : IgeSetup) (idx reason units : Nat) (s t : State) : Prop where
  sample : t.ige.sample = none
  skips : t.ige.skips = s.ige.skips + 1
  log : t.ige.skipLog = (⟨s.spine.tick, s.ige.cur.epoch, s.ige.cur.pos, idx, reason, units⟩ :: s.ige.skipLog).take 64
  count : Ctrs.get t.ige.ctrs (skipCtr reason) = Ctrs.get (Ctrs.sat s.ige.ctrs (skipCtr reason) 1) (skipCtr reason)
  next : NextPosition u s.ige.cur t.ige.cur

/-- An SPDM request of this code is answered over its transport: it is open, the message names the code and the version
that the request needs (R612). -/
def SpdmAsked (s : State) (mctp : Bool) (m : List Byte) (code version : Nat) : Prop :=
  (if mctp then s.mgmtReady && s.pcm.sstate != 3 else s.configOpen) = true ∧ fieldAt m 1 1 = code ∧ fieldAt m 0 1 = version

/-- The state after an SPDM answer: the connection as given, with request and answer in its transcript. -/
def spdmSent (s : State) (mctp : Bool) (c : Spdm) (m rsp : List Byte) : State :=
  (s.setSpdm mctp { c with transcript := c.transcript ++ m ++ rsp }).emit (.spdm mctp rsp)

/-- The commands of the index (R566) that a mailbox takes: the mailbox, the code, and how many argument words are used. -/
def mailboxRow : Instr → Option (Fin 16 × Nat × Nat)
  | .getIdentity mb => some (mb, 0x0001, 0)
  | .mbEcho mb => some (mb, 0x0002, 15)
  | .mbStatus mb => some (mb, 0x0003, 1)
  | .deviceReset mb => some (mb, 0x0004, 0)
  | .bar2WindowSet mb => some (mb, 0x0005, 2)
  | .intrRoute mb => some (mb, 0x0006, 2)
  | .cplRingSet mb => some (mb, 0x0007, 2)
  | .readHifCounters mb => some (mb, 0x0008, 1)
  | .clearHifCounters mb => some (mb, 0x0009, 1)
  | .channelCreate mb => some (mb, 0x0101, 2)
  | .channelDestroy mb => some (mb, 0x0102, 1)
  | .channelSetMode mb => some (mb, 0x0103, 2)
  | .programLoad mb => some (mb, 0x0104, 2)
  | .channelUpdate mb => some (mb, 0x0105, 2)
  | .channelStart mb => some (mb, 0x0106, 2)
  | .channelStop mb => some (mb, 0x0107, 2)
  | .channelStatus mb => some (mb, 0x0108, 1)
  | .getTileState mb => some (mb, 0x0109, 1)
  | .tileReset mb => some (mb, 0x010A, 1)
  | .readTileCounters mb => some (mb, 0x010B, 3)
  | .clearTileCounters mb => some (mb, 0x010C, 3)
  | .readTfeCounters mb => some (mb, 0x010D, 3)
  | .clearTfeCounters mb => some (mb, 0x010E, 3)
  | .memGetConfig mb => some (mb, 0x0201, 0)
  | .memClearRange mb => some (mb, 0x0202, 2)
  | .memMapAddress mb => some (mb, 0x0203, 1)
  | .memReadCounters mb => some (mb, 0x0204, 1)
  | .memClearCounters mb => some (mb, 0x0205, 1)
  | .shcFlush mb => some (mb, 0x0206, 1)
  | .prgSet mb => some (mb, 0x0210, 2)
  | .prgReport mb => some (mb, 0x0211, 1)
  | .hotBankLog mb => some (mb, 0x0212, 1)
  | .fxRegionDefine mb => some (mb, 0x0220, 3)
  | .fxRegionRelease mb => some (mb, 0x0221, 1)
  | .tgcConfig mb => some (mb, 0x0230, 2)
  | .tgcStart mb => some (mb, 0x0231, 1)
  | .tgcStatus mb => some (mb, 0x0232, 2)
  | .tgcStop mb => some (mb, 0x0233, 1)
  | .ptuInit mb => some (mb, 0x0301, 2)
  | .partitionSetView mb => some (mb, 0x0302, 2)
  | .partitionSetQuota mb => some (mb, 0x0303, 2)
  | .pageMap mb => some (mb, 0x0304, 12)
  | .pageUnmap mb => some (mb, 0x0305, 3)
  | .pageMigrate mb => some (mb, 0x0306, 4)
  | .pagePin mb => some (mb, 0x0307, 4)
  | .pageQuery mb => some (mb, 0x0308, 2)
  | .poolStatus mb => some (mb, 0x0309, 1)
  | .farLend mb => some (mb, 0x0310, 2)
  | .farUnlend mb => some (mb, 0x0311, 1)
  | .farPoolSet mb => some (mb, 0x0312, 2)
  | .setReclaimBound mb => some (mb, 0x0313, 1)
  | .hostRegionAdd mb => some (mb, 0x0318, 2)
  | .hostRegionRemove mb => some (mb, 0x0319, 1)
  | .readPtuCounters mb => some (mb, 0x0320, 1)
  | .clearPtuCounters mb => some (mb, 0x0321, 1)
  | .leafPoolCreate mb => some (mb, 0x0340, 2)
  | .leafPoolDestroy mb => some (mb, 0x0341, 1)
  | .slotCreate mb => some (mb, 0x0342, 2)
  | .slotReset mb => some (mb, 0x0343, 1)
  | .slotDestroy mb => some (mb, 0x0344, 1)
  | .slotSetRing mb => some (mb, 0x0345, 2)
  | .slotStatus mb => some (mb, 0x0346, 2)
  | .leafPin mb => some (mb, 0x0347, 6)
  | .setLeafStallBound mb => some (mb, 0x0348, 1)
  | .readLeafCounters mb => some (mb, 0x0349, 1)
  | .clearLeafCounters mb => some (mb, 0x034A, 1)
  | .readLeafEntry mb => some (mb, 0x034B, 4)
  | .linkStatus mb => some (mb, 0x0401, 1)
  | .posTableLoad mb => some (mb, 0x0402, 1)
  | .posTableRead mb => some (mb, 0x0403, 1)
  | .linkEnable mb => some (mb, 0x0404, 2)
  | .linkRetrain mb => some (mb, 0x0405, 1)
  | .linkTestStart mb => some (mb, 0x0406, 3)
  | .linkTestResult mb => some (mb, 0x0407, 2)
  | .setPeerLostBound mb => some (mb, 0x0408, 1)
  | .readLinkCounters mb => some (mb, 0x0409, 1)
  | .clearLinkCounters mb => some (mb, 0x040A, 2)
  | .readLinkEvents mb => some (mb, 0x040B, 1)
  | .herdConfig mb => some (mb, 0x0501, 4)
  | .herdStatus mb => some (mb, 0x0502, 0)
  | .groupDefine mb => some (mb, 0x0503, 2)
  | .groupRelease mb => some (mb, 0x0504, 1)
  | .scheduleLoad mb => some (mb, 0x0505, 1)
  | .spineStart mb => some (mb, 0x0506, 2)
  | .spineStop mb => some (mb, 0x0507, 0)
  | .epochAdvance mb => some (mb, 0x0508, 3)
  | .readLateness mb => some (mb, 0x0509, 1)
  | .clearCleCounters mb => some (mb, 0x050A, 1)
  | .readCleCounters mb => some (mb, 0x050B, 1)
  | .spineTime mb _ => some (mb, 0x050C, 0)
  | .collStatus mb => some (mb, 0x050E, 1)
  | .placementReport mb => some (mb, 0x050F, 1)
  | .igeSetup mb => some (mb, 0x0601, 1)
  | .igeDictLoad mb => some (mb, 0x0602, 1)
  | .igeSetLimits mb => some (mb, 0x0603, 1)
  | .igeStart mb => some (mb, 0x0604, 4)
  | .igeStop mb => some (mb, 0x0605, 0)
  | .igeStatus mb => some (mb, 0x0606, 1)
  | .igeReadSkipLog mb => some (mb, 0x0607, 1)
  | .igeReadCounters mb => some (mb, 0x0608, 1)
  | .igeClearCounters mb => some (mb, 0x0609, 1)
  | .igeCacheSet mb => some (mb, 0x060A, 2)
  | .igePermute mb => some (mb, 0x060B, 4)
  | .errLogRead mb => some (mb, 0x0701, 3)
  | .errLogClear mb => some (mb, 0x0702, 0)
  | .scrubStart mb => some (mb, 0x0703, 5)
  | .scrubStatus mb => some (mb, 0x0704, 1)
  | .scrubStop mb => some (mb, 0x0705, 0)
  | .injectArm mb => some (mb, 0x0706, 8)
  | .injectDisarm mb => some (mb, 0x0707, 1)
  | .retireGranule mb => some (mb, 0x0708, 1)
  | .retireBank mb => some (mb, 0x0709, 1)
  | .rowRepair mb _ _ => some (mb, 0x070A, 6)
  | .retireListRead mb => some (mb, 0x070B, 1)
  | .mirrorConfig mb => some (mb, 0x0710, 1)
  | .mirrorStatus mb => some (mb, 0x0711, 0)
  | .fawnManifestLoad mb => some (mb, 0x0712, 3)
  | .takeoverRecordRead mb => some (mb, 0x0713, 1)
  | .setRecoveryLimits mb => some (mb, 0x0714, 1)
  | .recoveryStatus mb => some (mb, 0x0715, 0)
  | .colophonRead mb => some (mb, 0x0720, 3)
  | .colophonRelease mb => some (mb, 0x0721, 0)
  | .readRseCounters mb => some (mb, 0x0730, 1)
  | .clearRseCounters mb => some (mb, 0x0731, 1)
  | .pwrGetLimits mb => some (mb, 0x0801, 1)
  | .pwrSetCap mb => some (mb, 0x0802, 1)
  | .envDeclare mb => some (mb, 0x0803, 3)
  | .envStatus mb => some (mb, 0x0804, 1)
  | .tileFreqSet mb => some (mb, 0x0805, 3)
  | .tileFreqGet mb => some (mb, 0x0806, 1)
  | .sleepEnter mb => some (mb, 0x0807, 1)
  | .pmbusCalibrate mb _ => some (mb, 0x0808, 0)
  | .thermalStatus mb => some (mb, 0x0809, 1)
  | .readPcmCounters mb => some (mb, 0x080A, 1)
  | .clearPcmCounters mb => some (mb, 0x080B, 1)
  | .getMeasurements mb => some (mb, 0x0901, 1)
  | .getCertificate mb => some (mb, 0x0902, 2)
  | .attestSign mb _ => some (mb, 0x0903, 6)
  | .configRecordRead mb => some (mb, 0x0904, 1)
  | .fwImageStage mb _ => some (mb, 0x0905, 2)
  | .fwImageActivate mb _ => some (mb, 0x0906, 0)
  | .imagePush mb _ => some (mb, 0x0907, 3)
  | .debugChallenge mb => some (mb, 0x0908, 0)
  | .debugUnlock mb _ => some (mb, 0x0909, 15)
  | .debugLock mb => some (mb, 0x090A, 0)
  | .getNumericCaps mb => some (mb, 0x0A01, 0)
  | .setSrSeed mb => some (mb, 0x0A02, 1)
  | .setGovernorConfig mb => some (mb, 0x0A03, 1)
  | .getGovernorConfig mb => some (mb, 0x0A04, 1)
  | .pinLayerFormat mb => some (mb, 0x0A05, 3)
  | .getLayerDecision mb => some (mb, 0x0A06, 1)
  | .readTensorStats mb => some (mb, 0x0A07, 2)
  | .setFxScale mb => some (mb, 0x0A08, 3)
  | .clearNumericCounters mb => some (mb, 0x0A09, 1)
  | .readWgbCounters mb => some (mb, 0x0A0A, 1)
  | .clearWgbCounters mb => some (mb, 0x0A0B, 1)
  | _ => none

end Sys2Proof.Safety
end

