-- ==== Sys2Proof/Certificates/Slice0/Obligations.lean ====
section
/-! DEFINITION. The statements for the provers: what every command does, the invariant, and the rules of the spec that hold
of the whole block. -/

open Sys2Proof Sys2Proof.Machine Sys2Proof.Safety

/-- CONFIG_REQUEST, PCIE_LINK_UP, BAR0_ACCESS_ERROR, BAR2_ACCESS, BAR4_ACCESS (R537, R536, R541 to R545): where the
request reaches the device, the state after it. -/
def Obligations.HostAccessesReachTheDevice : Prop :=
  (∀ (s : State) (off : BitVec 12) (d : BitVec 32), s.configOpen = true →
    exec (.configRequest false off d) s = .next (s.emit (.cfgRead (s.cfgDword (off.toNat / 4)))))
  ∧ (∀ (s : State) (off : BitVec 12) (d : BitVec 32), s.configOpen = true → off.toNat / 4 ≠ Config.cfgDevCtl →
    ∃ t, exec (.configRequest true off d) s = .next t
      ∧ t.cfgDword (off.toNat / 4) = ((s.cfgDword (off.toNat / 4) &&& ~~~(Config.cfgWritable (off.toNat / 4)))
          ||| (d &&& Config.cfgWritable (off.toNat / 4)))
      ∧ (∀ n, n ≠ off.toNat / 4 → t.cfgDword n = s.cfgDword n)
      ∧ t.hif.mbs = s.hif.mbs ∧ { t with hif := s.hif, out := s.out } = s)
  ∧ (∀ (s : State) (w : Bool) (off : BitVec 12) (d : BitVec 32), s.configOpen = false →
    exec (.configRequest w off d) s = .next (s.emit .cfgRetry))
  ∧ (∀ (s : State) (rates : BitVec 7) (width : Nat), s.sys.pwrGood = true → s.sys.perstN = true →
    rates ≠ 0 → 1 ≤ width →
    ∃ r w : Nat, exec (.pcieLinkUp rates width) s = .next { s with hif := { s.hif with pcieRate := r, pcieWidth := w } }
      ∧ 1 ≤ r ∧ r ≤ 7 ∧ rates.getLsbD (r - 1) = true ∧ (∀ i, r ≤ i → rates.getLsbD i = false)
      ∧ (w = 1 ∨ w = 2 ∨ w = 4 ∨ w = 8) ∧ w ≤ width ∧ (w = 8 ∨ width < 2 * w))
  ∧ (∀ (s : State) (write : Bool) (off : BitVec 21) (width : Nat), s.decodes = true → bar0Bad write off.toNat width = true →
    exec (.bar0AccessError write off width) s = .next
      (if write then s.hifCtr fun c => Ctrs.sat c 3 1
       else (s.hifCtr fun c => Ctrs.sat c 3 1).emit (.barRead 0 (List.replicate width 0) false)))
  ∧ (∀ (s s' : State) (m : Hbm) (dmg : BitVec 64) (off : BitVec 40) (data : List Byte) (bad : Bool) (len pa : Nat),
    s.decodes = true → data ≠ [] → off.toNat + data.length ≤ s.hif.bar2Size → pa = s.hif.windowBase + off.toNat →
    s.bar2Drops true pa data.length = false → chargeHost s.hif.windowPart pa data.length s.mem = (true, m) →
    fabricCross (fabricPath 0 (stackDie pa) pa) { s with mem := m } = (none, dmg, s') →
    Calm (taintPa pa data.length (hbmWrite pa (xorHead data dmg) bad s')) →
    exec (.bar2Access true off len data bad) s = .next (taintPa pa data.length (hbmWrite pa (xorHead data dmg) bad s')))
  ∧ (∀ (s s' t : State) (m : Hbm) (dmg : BitVec 64) (off : BitVec 40) (data got : List Byte) (marks : List Nat) (bad : Bool)
      (len pa : Nat),
    s.decodes = true → 0 < len → off.toNat + len ≤ s.hif.bar2Size → pa = s.hif.windowBase + off.toNat →
    s.bar2Drops false pa len = false → s.inDump pa len = none → chargeHost s.hif.windowPart pa len s.mem = (true, m) →
    fabricCross (fabricPath 0 (stackDie pa) pa) { s with mem := m } = (none, dmg, s') →
    hbmRead pa len s' = (got, marks, t) → Calm t →
    exec (.bar2Access false off len data bad) s = .next
      (t.emit (.barRead 2 (s'.withTables pa (xorHead got dmg)) (!marks.isEmpty))))
  ∧ (∀ (s : State) (m : Hbm) (write : Bool) (off : BitVec 40) (data : List Byte) (bad : Bool) (len n pa : Nat),
    s.decodes = true → n = (if write then data.length else len) → 0 < n → off.toNat + n ≤ s.hif.bar2Size →
    pa = s.hif.windowBase + off.toNat → s.bar2Drops write pa n = false → s.inDump pa n = none →
    chargeHost s.hif.windowPart pa n s.mem = (false, m) →
    exec (.bar2Access write off len data bad) s = .next { s with mem := m })
  ∧ (∀ (s : State) (write : Bool) (off : BitVec 24) (width : Nat) (d : BitVec 64), s.decodes = true → s.sec.debug = 0 →
    exec (.bar4Access write off width d) s = .next
      (if write then s.hifCtr fun c => Ctrs.sat c 5 1
       else (s.hifCtr fun c => Ctrs.sat c 5 1).emit (.barRead 4 (List.replicate width 0) false)))
  ∧ (∀ (s : State) (off : BitVec 24) (width : Nat) (d : BitVec 64), s.decodes = true → s.sec.debug ≠ 0 →
    ∃ bs : List Byte, exec (.bar4Access false off width d) s = .next ({ s with freeCtr := s.freeCtr + 1 }.emit (.barRead 4 bs false))
      ∧ bs.length = width
      ∧ ∀ i t a, i < width → Config.debugAddr (off.toNat + i) = some (t, a) → t < 256 → bs[i]? = some ((s.tile t).localByte t a))
  ∧ (∀ (s : State) (off : BitVec 24) (d : BitVec 64), s.decodes = true → s.sec.debug ≠ 0 →
    ∃ u, exec (.bar4Access true off 1 d) s = .next u ∧ { u with tiles := s.tiles } = s
      ∧ (∀ t a, Config.debugAddr off.toNat = some (t, a) → t < 256 →
          u.tile t = (s.tile t).setLocalByte a (BitVec.setWidth 8 d) ∧ ∀ k, k ≠ t → u.tile k = s.tile k)
      ∧ ((∀ t a, Config.debugAddr off.toNat = some (t, a) → 256 ≤ t) → u = s))

/-- MAILBOX_HANDOFF, MAILBOX_WRITE_DROP, INT_CAUSE_WRITE, INT_MASK_WRITE, MB_DONE_WRITE, CPL_CONSUMED_WRITE,
REGISTER_WRITE, TELEMETRY_MIRROR_UPDATE (R547, R548, R560, R561, R564, R565). -/
def Obligations.RegisterWritesTakeEffect : Prop :=
  (∀ (s : State) (mb : Fin 16) (word : BitVec 32), s.decodes = true → s.mailboxOpen mb = true →
    (s.mailbox mb).own = false → word.getLsbD 31 = true →
    ∃ t, exec (.mailboxHandoff mb word) s = .next t
      ∧ (t.mailbox mb).acceptTick = s.spine.tick
      ∧ ((t.mailbox mb).own = true ∧ (t.mailbox mb).word0 = word
        ∨ (t.mailbox mb).own = false ∧ ∃ st : Status, st ≠ St.ok
          ∧ (t.mailbox mb).word4 = BitVec.ofNat 32 (st + bits word.toNat 16 8 * 2 ^ 16))
      ∧ Ctrs.get t.hif.ctrs 0 = min (Ctrs.get s.hif.ctrs 0 + 1) (2 ^ 48 - 1)
      ∧ (∀ j : Nat, j ≠ mb → t.mailbox j = s.mailbox j) ∧ { t with hif := s.hif, out := s.out } = s)
  ∧ (∀ (s : State) (mb : Fin 16) (off : BitVec 8), s.decodes = true → s.mailboxOpen mb = true →
    (s.mailbox mb).own = true →
    exec (.mailboxWriteDrop mb off) s = .next (s.hifCtr fun c => Ctrs.sat c 1 1))
  ∧ (∀ (s : State) (v : BitVec 64), s.decodes = true →
    exec (.intCauseWrite v) s = .next
      { s with hif := { s.hif with intCause := s.hif.intCause &&& ~~~(BitVec.setWidth 15 v) } })
  ∧ (∀ (s : State) (v : BitVec 64), s.decodes = true →
    ∃ t, exec (.intMaskWrite v) s = .next t ∧ t.hif.intMask = BitVec.setWidth 15 v ∧ t.hif.intCause = s.hif.intCause
      ∧ (s.hif.intMask &&& ~~~(BitVec.setWidth 15 v) &&& s.hif.intCause = 0 → t.out = s.out)
      ∧ { t with hif := s.hif, out := s.out } = s)
  ∧ (∀ (s : State) (v : BitVec 64), s.decodes = true →
    exec (.mbDoneWrite v) s = .next { s with hif := { s.hif with mbDone := s.hif.mbDone &&& ~~~(BitVec.setWidth 16 v) } })
  ∧ (∀ (s : State) (v : BitVec 64), s.decodes = true → s.hif.held = [] →
    exec (.cplConsumedWrite v) s = .next { s with hif := { s.hif with cplConsumed := BitVec.setWidth 32 v } })
  ∧ (∀ (s : State) (v : BitVec 64), s.decodes = true →
    exec (.registerWrite 0x1000 8 v) s = exec (.intCauseWrite v) s
      ∧ exec (.registerWrite 0x1008 8 v) s = exec (.intMaskWrite v) s
      ∧ exec (.registerWrite 0x1010 8 v) s = exec (.mbDoneWrite v) s
      ∧ exec (.registerWrite 0x1020 8 v) s = exec (.cplConsumedWrite v) s
      ∧ exec (.registerWrite 0x1018 8 v) s = .next s)
  ∧ (∀ (s : State) (mb : Fin 16) (i : Fin 15) (v : BitVec 64), s.decodes = true → s.mailboxOpen mb = true →
    (s.mailbox mb).own = false →
    ∃ t, exec (.registerWrite (BitVec.ofNat 21 (0x10000 + 256 * mb + 8 * (i + 1))) 8 v) s = .next t
      ∧ (t.mailbox mb).arg i = v.toNat ∧ (∀ j : Nat, j ≠ i → (t.mailbox mb).arg j = (s.mailbox mb).arg j)
      ∧ (∀ j : Nat, j ≠ mb → t.mailbox j = s.mailbox j) ∧ { t with hif := s.hif } = s)
  ∧ (∀ s : State, ∃ t, exec .telemetryMirrorUpdate s = .next t
      ∧ { t with hif := { t.hif with mirror := s.hif.mirror } } = s
      ∧ ((SMap.getD t.hif.mirror 0 0).toNat = ((SMap.getD s.hif.mirror 0 0).toNat + 2) % 2 ^ 64)
      ∧ (s.spine.tick < 2 ^ 64 → (SMap.getD t.hif.mirror 1 0).toNat = s.spine.tick))

/-- The general mailbox commands and the counters of the host interface (R542, R558, R560, R563, R566 to R568). -/
def Obligations.GeneralCommandsTakeEffect : Prop :=
  (∀ (s : State) (mb : Fin 16), (s.mailbox mb).own = true → cmdKind (s.mailbox mb).code = none →
    exec (.undefinedCommand mb) s = .next (finishCmd mb St.unknownCmd [] s))
  ∧ (∀ (s : State) (mb : Fin 16), Holds s mb 0x0001 0 → s.sec.recovery = false →
    exec (.getIdentity mb) s = .next (finishCmd mb St.ok (s.identity ++ [s.hif.bar2Size, s.hif.windowBase]) s))
  ∧ (∀ (s : State) (mb : Fin 16), Holds s mb 0x0002 15 →
    exec (.mbEcho mb) s = .next (finishCmd mb St.ok ((List.range 15).map (argOf s mb)) s))
  ∧ (∀ (s s' : State) (mb : Fin 16), Holds s mb 0x0003 1 →
    ReportAt s s' (argOf s mb 0) ((List.range 16).flatMap fun n => (s.mailbox n).record) →
    exec (.mbStatus mb) s = .next (finishCmd mb St.ok [] s'))
  ∧ (∀ (s : State) (mb : Fin 16), Holds s mb 0x0004 0 → s.spine.running = false →
    exec (.deviceReset mb) s = .next (finishCmd mb St.ok [] { s with sys := { s.sys with devPending := true } }))
  ∧ (∀ (s : State) (mb : Fin 16), Holds s mb 0x0005 2 → argOf s mb 0 % s.hif.bar2Size = 0 → argOf s mb 0 < 2 ^ 30 * 960 →
    argOf s mb 1 ≤ 4 →
    exec (.bar2WindowSet mb) s = .next (finishCmd mb St.ok []
      { s with hif := { s.hif with windowBase := argOf s mb 0, windowPart := argOf s mb 1 } }))
  ∧ (∀ (s : State) (mb : Fin 16), Holds s mb 0x0006 2 → argOf s mb 0 ≤ 14 → argOf s mb 1 ≤ 63 →
    ∃ s', exec (.intrRoute mb) s = .next (finishCmd mb St.ok [s.causeVector (argOf s mb 0)] s')
      ∧ s'.causeVector (argOf s mb 0) = argOf s mb 1
      ∧ (∀ c, c ≠ argOf s mb 0 → s'.causeVector c = s.causeVector c)
      ∧ { s' with hif := { s'.hif with route := s.hif.route } } = s)
  ∧ (∀ (s : State) (mb : Fin 16) (k : Nat), Holds s mb 0x0007 2 → k ≤ 10 → argOf s mb 0 % 4096 = 0 →
    argOf s mb 0 / 2 ^ 62 = 2 → argOf s mb 1 = 64 * 2 ^ k →
    (s.chans.table.any fun c => c.2.running && c.2.cplRecord) = false →
    exec (.cplRingSet mb) s = .next (finishCmd mb St.ok [s.hif.held.length, highest (s.hif.held.map (·.step))]
      { s with hif := { s.hif with
        ring := some (argOf s mb 0 % 2 ^ 62, argOf s mb 1), held := [], cplProduced := 0, cplConsumed := 0 } }))
  ∧ (∀ (s : State) (mb : Fin 16), Holds s mb 0x0007 2 → argOf s mb 0 = 0 → argOf s mb 1 = 0 →
    (s.chans.table.any fun c => c.2.running && c.2.cplRecord) = false →
    exec (.cplRingSet mb) s = .next (finishCmd mb St.ok [s.hif.held.length, highest (s.hif.held.map (·.step))]
      { s with hif := { s.hif with ring := none, held := [], cplProduced := 0, cplConsumed := 0 } }))
  ∧ (∀ (s s' : State) (mb : Fin 16), Holds s mb 0x0008 1 → ReportAt s s' (argOf s mb 0) (Ctrs.bytes s.hif.ctrs 6) →
    exec (.readHifCounters mb) s = .next (finishCmd mb St.ok [] s'))
  ∧ (∀ (s : State) (mb : Fin 16), Holds s mb 0x0009 1 → argOf s mb 0 < 64 →
    ∃ c : Ctrs, exec (.clearHifCounters mb) s = .next (finishCmd mb St.ok [] { s with hif := { s.hif with ctrs := c } })
      ∧ ∀ i, Ctrs.get c i = if (argOf s mb 0).testBit i then 0 else Ctrs.get s.hif.ctrs i)

/-- The commands that write the channel table (R133, R140, R142 to R144, R555 to R557, R609, R664). -/
def Obligations.ChannelCommandsTakeEffect : Prop :=
  (∀ (s s' : State) (mb : Fin 16) (r : List Byte), Holds s mb 0x0101 2 → argOf s mb 0 ≤ 4095 →
    RecordAt s s' (argOf s mb 1) 128 128 r → imageOk r = true → s'.chan (argOf s mb 0) = none →
    ∃ t, exec (.channelCreate mb) s = .next (finishCmd mb St.ok [] t)
      ∧ t.chan (argOf s mb 0) = some (Chan.blank.setImage r)
      ∧ (∀ c, c ≠ argOf s mb 0 → t.chan c = s'.chan c) ∧ { t with chans := s'.chans } = s')
  ∧ (∀ (s : State) (mb : Fin 16), Holds s mb 0x0102 1 → argOf s mb 0 ≤ 4095 → s.stopped (argOf s mb 0) = true →
    ∃ t, exec (.channelDestroy mb) s = .next (finishCmd mb St.ok [] t)
      ∧ t.chan (argOf s mb 0) = none ∧ (∀ c, c ≠ argOf s mb 0 → t.chan c = s.chan c) ∧ { t with chans := s.chans } = s)
  ∧ (∀ (s : State) (mb : Fin 16), Holds s mb 0x0103 2 → argOf s mb 0 ≤ 4095 → argOf s mb 1 ≤ 1 →
    s.stopped (argOf s mb 0) = true →
    ∃ t, exec (.channelSetMode mb) s = .next (finishCmd mb St.ok [] t)
      ∧ t.chan (argOf s mb 0) = (s.chan (argOf s mb 0)).map (fun x => { x with relaxed := argOf s mb 1 == 1 })
      ∧ (∀ c, c ≠ argOf s mb 0 → t.chan c = s.chan c) ∧ { t with chans := s.chans } = s)
  ∧ (∀ (s s' : State) (mb : Fin 16) (r : List Byte), Holds s mb 0x0105 2 → argOf s mb 0 ≤ 4095 →
    RecordAt s s' (argOf s mb 1) 128 128 r → imageOk r = true → s'.stopped (argOf s mb 0) = true →
    ∃ t, exec (.channelUpdate mb) s = .next (finishCmd mb St.ok [] t)
      ∧ t.chan (argOf s mb 0) = (s'.chan (argOf s mb 0)).map (fun x => x.setImage r)
      ∧ (∀ c, c ≠ argOf s mb 0 → t.chan c = s'.chan c) ∧ { t with chans := s'.chans } = s')
  ∧ (∀ (s s' s'' : State) (mb : Fin 16) (x : Chan) (r code : List Byte), Holds s mb 0x0104 2 → argOf s mb 0 ≤ 4095 →
    argOf s mb 1 < 2 ^ 52 → argOf s mb 1 % 4096 = 0 → s.chan (argOf s mb 0) = some x → x.running = false →
    RecordAt s s' (argOf s mb 1 + x.part * 2 ^ 52) 64 4096 r → headerOk r = true →
    RecordAt s' s'' (argOf s mb 1 + x.part * 2 ^ 52 + (Header.of r).codeOffset) (Header.of r).codeLength 16 code →
    ∃ t, exec (.programLoad mb) s = .next (finishCmd mb St.ok [] t)
      ∧ t.chan (argOf s mb 0) = (s''.chan (argOf s mb 0)).map (fun x => { x with
          program := argOf s mb 1, header := some (Header.of r), runState := 2, started := false, ran := false })
      ∧ SMap.getD t.sec.meas 6 [] = sha3 (SMap.getD s''.sec.meas 6 (List.replicate 32 0) ++ sha3 (r ++ code))
      ∧ (∀ c, c ≠ argOf s mb 0 → t.chan c = s''.chan c)
      ∧ { t with chans := s''.chans, sec := { t.sec with meas := s''.sec.meas } } = s'')
  ∧ (∀ (s : State) (mb : Fin 16) (x : Chan), Holds s mb 0x0106 2 → argOf s mb 0 ≤ 4095 → s.memOff = false →
    s.chan (argOf s mb 0) = some x → x.running = false → x.header.isSome = true → s.tilesTaken (argOf s mb 0) = false →
    (s.spine.running = true → argOf s mb 1 = 0 ∨ s.spine.step < argOf s mb 1) →
    ∃ t first, exec (.channelStart mb) s = .next (finishCmd mb St.ok
        [if argOf s mb 1 = 0 ∧ s.spine.running = false then 2 ^ 64 - 1 else first] t)
      ∧ first = (if s.spine.running = true ∧ argOf s mb 1 = 0 then s.spine.step + 1 else argOf s mb 1)
      ∧ t.chan (argOf s mb 0) = some { x with
          runState := 3, startStep := first, started := false, ran := false
          faultKind := 0, faultTile := 0, faultThread := 0, faultPc := 0, lastStatus := 0 }
      ∧ (∀ c, c ≠ argOf s mb 0 → t.chan c = s.chan c)
      ∧ (∀ k, k < 256 → x.tiles.getLsbD k = false → t.tile k = s.tile k)
      ∧ { t with chans := s.chans, tiles := s.tiles, pcm := { t.pcm with sstate := s.pcm.sstate } } = s)
  ∧ (∀ (s : State) (mb : Fin 16) (x : Chan), Holds s mb 0x0107 2 → argOf s mb 0 ≤ 4095 → argOf s mb 1 = 0 →
    s.spine.running = true → s.chan (argOf s mb 0) = some x → x.running = true →
    ∃ t, exec (.channelStop mb) s = .next (finishCmd mb St.ok
        [x.lastRan.getD (2 ^ 64 - 1)] t)
      ∧ t.chan (argOf s mb 0) = some { x with runState := 4 }
      ∧ (∀ c, c ≠ argOf s mb 0 → t.chan c = s.chan c) ∧ { t with chans := s.chans } = s)
  ∧ (∀ (s : State) (mb : Fin 16) (x : Chan), Holds s mb 0x0107 2 → argOf s mb 0 ≤ 4095 → argOf s mb 1 ≤ 1 →
    s.spine.running = false → s.chan (argOf s mb 0) = some x → x.running = true → Calm (stopChan (argOf s mb 0) 6 s) →
    exec (.channelStop mb) s = .next (finishCmd mb St.ok [x.lastRan.getD (2 ^ 64 - 1)]
      (stopChan (argOf s mb 0) 6 s)))

/-- The commands that read and reset channels and tiles, and their counters (R131, R132, R141, R142, R146, R370). -/
def Obligations.TileCommandsTakeEffect : Prop :=
  (∀ (s : State) (mb : Fin 16), Holds s mb 0x0108 1 → argOf s mb 0 ≤ 4095 →
    exec (.channelStatus mb) s = .next (finishCmd mb St.ok
      (match s.chan (argOf s mb 0) with
        | some x => [x.runState, if x.nondet then 1 else 0, x.lastStep, x.faultKind, x.faultTile, x.faultThread, x.faultPc]
        | none => [0, 0, 0, 0, 0, 0, 0]) s))
  ∧ (∀ (s : State) (mb : Fin 16), Holds s mb 0x0109 1 → argOf s mb 0 ≤ 255 →
    exec (.getTileState mb) s = .next (finishCmd mb St.ok
      ([(s.tile (argOf s mb 0)).threadState, (s.tile (argOf s mb 0)).faultInfo.toNat + argOf s mb 0 * 2 ^ 48]
        ++ (List.range 8).map (fun n => ((s.tile (argOf s mb 0)).thread n).pc.toNat)
        ++ (List.range 32).map (fun n => ((s.tile (argOf s mb 0)).ec n).toNat)
        ++ (List.range 4).map fun n => SMap.getD (s.tile (argOf s mb 0)).owner n 8) s))
  ∧ (∀ (s : State) (mb : Fin 16), Holds s mb 0x010A 1 → argOf s mb 0 ≤ 255 →
    (s.chans.table.any fun p => p.2.running && p.2.tiles.getLsbD (argOf s mb 0)) = false →
    ∃ t, exec (.tileReset mb) s = .next (finishCmd mb St.ok [] t)
      ∧ t.tile (argOf s mb 0) = Tile.reset ∧ (∀ k, k ≠ argOf s mb 0 → t.tile k = s.tile k) ∧ t.rse.inj = []
      ∧ t.mem.bytes = s.mem.bytes
      ∧ { t with tiles := s.tiles, mem := s.mem, rse := { t.rse with inj := s.rse.inj }, links := s.links } = s)
  ∧ (∀ (s s' : State) (mb : Fin 16), Holds s mb 0x010B 3 → argOf s mb 0 + argOf s mb 1 ≤ 256 →
    ReportAt s s' (argOf s mb 2)
      ((List.range (argOf s mb 1)).flatMap fun i => Ctrs.bytes (s.tile (argOf s mb 0 + i)).ctrs 7) →
    exec (.readTileCounters mb) s = .next (finishCmd mb St.ok [] s'))
  ∧ (∀ (s : State) (mb : Fin 16), Holds s mb 0x010C 3 → argOf s mb 0 + argOf s mb 1 ≤ 256 → argOf s mb 2 < 2 ^ 7 →
    ∃ t, exec (.clearTileCounters mb) s = .next (finishCmd mb St.ok [] t) ∧ { t with tiles := s.tiles } = s
      ∧ ∀ k i, Ctrs.get (t.tile k).ctrs i =
          if argOf s mb 0 ≤ k ∧ k < argOf s mb 0 + argOf s mb 1 ∧ (argOf s mb 2).testBit i = true then 0
          else Ctrs.get (s.tile k).ctrs i)
  ∧ (∀ (s s' : State) (mb : Fin 16), Holds s mb 0x010D 3 → argOf s mb 0 + argOf s mb 1 ≤ 256 →
    ReportAt s s' (argOf s mb 2)
      ((List.range (argOf s mb 1)).flatMap fun i => Ctrs.bytes (s.tile (argOf s mb 0 + i)).tfeCtrs 6) →
    exec (.readTfeCounters mb) s = .next (finishCmd mb St.ok [] s'))
  ∧ (∀ (s : State) (mb : Fin 16), Holds s mb 0x010E 3 → argOf s mb 0 + argOf s mb 1 ≤ 256 → argOf s mb 2 < 2 ^ 6 →
    ∃ t, exec (.clearTfeCounters mb) s = .next (finishCmd mb St.ok [] t) ∧ { t with tiles := s.tiles } = s
      ∧ ∀ k i, Ctrs.get (t.tile k).tfeCtrs i =
          if argOf s mb 0 ≤ k ∧ k < argOf s mb 0 + argOf s mb 1 ∧ (argOf s mb 2).testBit i = true then 0
          else Ctrs.get (s.tile k).tfeCtrs i)

/-- The memory system's commands on addresses, ranges and regions (R265, R268, R269, R279, R288, R302). -/
def Obligations.MemoryCommandsTakeEffect : Prop :=
  (∀ (s : State) (mb : Fin 16), Holds s mb 0x0201 0 →
    ∃ declared : Nat, exec (.memGetConfig mb) s = .next (finishCmd mb St.ok
      [s.mem.rate, declared, rateGBs s.mem.rate, 0xEFF0000000, 0x10000000, s.mem.failed.toNat] s)
      ∧ ∀ k : Fin 20, (∀ i : Fin 20, s.mem.declared.getD i 7 < 8) →
          declared / 8 ^ k.val % 8 = if s.mem.failed.getLsbD k then 7 else s.mem.declared.getD k 7)
  ∧ (∀ (s : State) (mb : Fin 16), Holds s mb 0x0203 1 → argOf s mb 0 < 0xF000000000 →
    exec (.memMapAddress mb) s = .next (finishCmd mb St.ok
      [(hbmMap (argOf s mb 0)).stack, (hbmMap (argOf s mb 0)).stack / 5, (hbmMap (argOf s mb 0)).channel,
        (hbmMap (argOf s mb 0)).pc, (hbmMap (argOf s mb 0)).bank, (hbmMap (argOf s mb 0)).row,
        (hbmMap (argOf s mb 0)).col,
        (8 * (hbmMap (argOf s mb 0)).stack + (hbmMap (argOf s mb 0)).octet) * 64 + (hbmMap (argOf s mb 0)).bank] s))
  ∧ (∀ (s : State) (mb : Fin 16), Holds s mb 0x0202 2 → argOf s mb 0 % 2 ^ 16 = 0 → argOf s mb 1 % 2 ^ 16 = 0 →
    argOf s mb 0 + argOf s mb 1 ≤ 0xEFF0000000 → s.memOff = false → s.paHeld (argOf s mb 0) (argOf s mb 1) = false →
    s.generators = false →
    ∃ t, exec (.memClearRange mb) s = .next (finishCmd mb St.ok [] t)
      ∧ (∀ a, Mem.get t.mem.bytes a =
          if argOf s mb 0 ≤ a ∧ a < argOf s mb 0 + argOf s mb 1 then 0 else Mem.get s.mem.bytes a)
      ∧ (∀ g stack, stack < 20 → (g * 20 + stack ∈ t.mem.written ↔ g * 20 + stack ∈ s.mem.written
          ∧ ¬ (argOf s mb 0 ≤ g * 2 ^ 16 ∧ g * 2 ^ 16 < argOf s mb 0 + argOf s mb 1)))
      ∧ { t with mem := s.mem } = s ∧ t.mem.ctrs = s.mem.ctrs ∧ t.mem.fx = s.mem.fx)
  ∧ (∀ (s t : State) (mb : Fin 16), Holds s mb 0x0206 1 → argOf s mb 0 < 16 →
    (s.chans.table.any fun c => c.2.running && (argOf s mb 0).testBit c.2.part) = false → s.generators = false →
    t = ((s.mem.shc.filter fun l => decide (l.2.part < 4) && (argOf s mb 0).testBit l.2.part).foldl
      (fun s l => shcEvict l.1 s) s) → Calm t →
    exec (.shcFlush mb) s = .next (finishCmd mb St.ok [] t)
      ∧ (∀ l ∈ t.mem.shc, ¬ (l.2.part < 4 ∧ (argOf s mb 0).testBit l.2.part = true))
      ∧ (∀ k, (∀ e, (k, e) ∈ s.mem.shc → ¬ (e.part < 4 ∧ (argOf s mb 0).testBit e.part = true)) →
          SMap.lookup t.mem.shc k = SMap.lookup s.mem.shc k))
  ∧ (∀ (s : State) (mb : Fin 16) (frames : List Nat), Holds s mb 0x0220 3 → argOf s mb 0 ≤ 15 → argOf s mb 1 < 2 ^ 54 →
    argOf s mb 1 % 2 ^ 16 = 0 → 0 < argOf s mb 2 → argOf s mb 2 ≤ 65536 →
    argOf s mb 1 % 2 ^ 52 + argOf s mb 2 * 2 ^ 16 ≤ 2 ^ 52 → s.memOff = false → s.generators = false → SMap.lookup s.mem.fx (argOf s mb 0) = none →
    (s.mem.fx.map fun r => r.2.frames.length).foldl (· + ·) 0 + argOf s mb 2 ≤ 65536 →
    (∀ r ∈ s.mem.fx, r.2.part = argOf s mb 1 / 2 ^ 52 % 4 →
      argOf s mb 1 % 2 ^ 52 + argOf s mb 2 * 2 ^ 16 ≤ r.2.base
        ∨ r.2.base + r.2.frames.length * 2 ^ 16 ≤ argOf s mb 1 % 2 ^ 52) →
    s.boundsHit (argOf s mb 1 / 2 ^ 52 % 4) (argOf s mb 1 % 2 ^ 52) (argOf s mb 2 * 2 ^ 16) = false →
    ((List.range (argOf s mb 2)).map fun i =>
      s.pinnable (argOf s mb 1 / 2 ^ 52 % 4) (argOf s mb 1 % 2 ^ 52 + i * 2 ^ 16)) = frames.map some →
    ∃ t, exec (.fxRegionDefine mb) s = .next (finishCmd mb St.ok [] t)
      ∧ SMap.lookup t.mem.fx (argOf s mb 0) = some ⟨argOf s mb 1 / 2 ^ 52 % 4, argOf s mb 1 % 2 ^ 52, frames, []⟩
      ∧ (∀ f ∈ frames, ∀ a, f * 2 ^ 16 ≤ a → a < f * 2 ^ 16 + 2 ^ 16 → Mem.get t.mem.bytes a = 0)
      ∧ { t with mem := s.mem } = s)
  ∧ (∀ (s : State) (mb : Fin 16) (r : FxRegion), Holds s mb 0x0221 1 → argOf s mb 0 ≤ 15 →
    SMap.lookup s.mem.fx (argOf s mb 0) = some r → s.boundsHit r.part r.base (r.frames.length * 2 ^ 16) = false →
    ∃ t, exec (.fxRegionRelease mb) s = .next (finishCmd mb St.ok [] t)
      ∧ SMap.lookup t.mem.fx (argOf s mb 0) = none
      ∧ (∀ k, k ≠ argOf s mb 0 → SMap.lookup t.mem.fx k = SMap.lookup s.mem.fx k)
      ∧ { t with mem := { t.mem with fx := s.mem.fx } } = s)

/-- The commands of the regulators, the hot-bank logs and the traffic generators, and the end of a generator run (R272,
R294, R295, R298 to R301). -/
def Obligations.RegulatorAndGeneratorCommandsTakeEffect : Prop :=
  (∀ (s s' : State) (mb : Fin 16) (r : List Byte), Holds s mb 0x0210 2 → argOf s mb 0 ≤ 3 →
    RecordAt s s' (argOf s mb 1) 16 64 r → fieldAt r 6 1 < 2 → zeroAt r 7 9 = true →
    (fieldAt r 2 2 = 0 ∨ fieldAt r 0 2 ≤ fieldAt r 2 2) → 4 ≤ fieldAt r 4 2 → fieldAt r 4 2 ≤ 1024 →
    100 * s'.floorSum (argOf s mb 0) (fieldAt r 0 2) ≤ 9 * rateGBs s'.mem.rate →
    ∃ t, exec (.prgSet mb) s = .next (finishCmd mb St.ok [] t)
      ∧ SMap.getD t.mem.regs (argOf s mb 0) RegRec.reset
          = ⟨fieldAt r 0 2, fieldAt r 2 2, fieldAt r 4 2, (fieldAt r 6 1).testBit 0⟩
      ∧ (∀ p, p ≠ argOf s mb 0 → SMap.getD t.mem.regs p RegRec.reset = SMap.getD s'.mem.regs p RegRec.reset)
      ∧ { t with mem := { t.mem with regs := s'.mem.regs } } = s')
  ∧ (∀ (s s' : State) (mb : Fin 16), Holds s mb 0x0211 1 →
    ReportAt s s' (argOf s mb 0) ((List.range 4).flatMap s.prgBytes) →
    exec (.prgReport mb) s = .next (finishCmd mb St.ok [] s'))
  ∧ (∀ (s s' : State) (mb : Fin 16), Holds s mb 0x0212 1 →
    ReportAt s s' (argOf s mb 0) ((List.range 20).flatMap s.hotBytes) →
    exec (.hotBankLog mb) s = .next (finishCmd mb St.ok [] s'))
  ∧ (∀ (s s' s'' : State) (mb : Fin 16) (m r : List Byte), Holds s mb 0x0230 2 → s.generators = false →
    RecordAt s s' (argOf s mb 0) 80 64 m → RecordAt s' s'' (argOf s mb 1) 64 64 r → tgcRecOk r = true →
    Tg.rowFirst r ≤ Tg.rowLast r → Tg.rowLast r ≤ 12287 →
    ∃ t, exec (.tgcConfig mb) s = .next (finishCmd mb St.ok [] t)
      ∧ (∀ n, n < 640 → (leNat m).testBit n = true → SMap.lookup t.mem.tgc n = some r)
      ∧ (∀ n, (640 ≤ n ∨ (leNat m).testBit n = false) → SMap.lookup t.mem.tgc n = SMap.lookup s''.mem.tgc n)
      ∧ { t with mem := { t.mem with tgc := s''.mem.tgc } } = s'')
  ∧ (∀ (s s' : State) (mb : Fin 16) (m : List Byte), Holds s mb 0x0231 1 → s.generators = false → s.memOff = false →
    s.runningChans = [] → s.mem.fx = [] → s.rse.window = 0 → RecordAt s s' (argOf s mb 0) 80 64 m →
    ∃ t, exec (.tgcStart mb) s = .next (finishCmd mb St.ok [] t)
      ∧ (∀ n, n < 640 → (leNat m).testBit n = true →
          SMap.lookup t.mem.tgcRes n = some { TgcRes.reset with state := 1 })
      ∧ (∀ n, (640 ≤ n ∨ (leNat m).testBit n = false) → SMap.lookup t.mem.tgcRes n = SMap.lookup s'.mem.tgcRes n)
      ∧ { t with mem := { t.mem with tgcRes := s'.mem.tgcRes } } = s')
  ∧ (∀ (s s' s'' : State) (mb : Fin 16) (m : List Byte), Holds s mb 0x0232 2 → RecordAt s s' (argOf s mb 0) 80 64 m →
    ReportAt s' s'' (argOf s mb 1) ((bitsOf 640 (leNat m)).flatMap fun n =>
      (SMap.getD s'.mem.tgcRes n TgcRes.reset).bytes) →
    exec (.tgcStatus mb) s = .next (finishCmd mb St.ok [] s''))
  ∧ (∀ (s s' t : State) (mb : Fin 16) (m : List Byte) (run : List Nat), Holds s mb 0x0233 1 →
    RecordAt s s' (argOf s mb 0) 80 64 m → run = (bitsOf 640 (leNat m)).filter (fun n => s'.tgcActive.contains n) →
    run ≠ [] → t = tgcSettle (run.foldl (fun s n => tgcHalt n s) s') → Calm t →
    exec (.tgcStop mb) s = .next (finishCmd mb St.ok [] t)
      ∧ ∀ n ∈ run, (SMap.getD t.mem.tgcRes n TgcRes.reset).state = 0 ∨ (SMap.getD t.mem.tgcRes n TgcRes.reset).state = 3)
  ∧ (∀ (s : State), s.tgcRunning = true →
    ∃ t, exec .tgcComplete s = .next t ∧ (∀ n ∈ s.tgcActive, (SMap.getD t.mem.tgcRes n TgcRes.reset).state = 2
          ∨ (SMap.getD t.mem.tgcRes n TgcRes.reset).state = 3)
      ∧ (t.tgcRunning = false → ∀ a, a < 0xEFF0000000 → Mem.get t.mem.bytes a = 0))

/-- The commands that report a unit's counters at a destination, each counter as a little-endian 8-byte field in
mask-bit order (R17, R88, R234, R262, R303, R338, R409, R462, R491, R535, R595). -/
def Obligations.CounterReadsReportEveryCounter : Prop :=
  (∀ (s s' : State) (mb : Fin 16), Holds s mb 0x0204 1 →
    ReportAt s s' (argOf s mb 0) ((List.range 16).flatMap fun i => natLe 8 (Ctrs.get s.mem.ctrs i)) →
    exec (.memReadCounters mb) s = .next (finishCmd mb St.ok [] s'))
  ∧ (∀ (s s' : State) (mb : Fin 16), Holds s mb 0x0A0A 1 →
    ReportAt s s' (argOf s mb 0) ((List.range 5).flatMap fun i => natLe 8 (Ctrs.get s.num.wgbCtrs i)) →
    exec (.readWgbCounters mb) s = .next (finishCmd mb St.ok [] s'))
  ∧ (∀ (s s' : State) (mb : Fin 16), Holds s mb 0x0320 1 →
    ReportAt s s' (argOf s mb 0) ((List.range 19).flatMap fun i => natLe 8 (Ctrs.get s.ptu.ctrs i)) →
    exec (.readPtuCounters mb) s = .next (finishCmd mb St.ok [] s'))
  ∧ (∀ (s s' : State) (mb : Fin 16), Holds s mb 0x0349 1 →
    ReportAt s s' (argOf s mb 0) ((List.range 13).flatMap fun i => natLe 8 (Ctrs.get s.leafs.ctrs i)) →
    exec (.readLeafCounters mb) s = .next (finishCmd mb St.ok [] s'))
  ∧ (∀ (s s' : State) (mb : Fin 16), Holds s mb 0x050B 1 →
    ReportAt s s' (argOf s mb 0) ((List.range 10).flatMap fun i => natLe 8 (Ctrs.get s.cle.ctrs i)) →
    exec (.readCleCounters mb) s = .next (finishCmd mb St.ok [] s'))
  ∧ (∀ (s s' : State) (mb : Fin 16), Holds s mb 0x0608 1 →
    ReportAt s s' (argOf s mb 0) ((List.range 11).flatMap fun i => natLe 8 (Ctrs.get s.ige.ctrs i)) →
    exec (.igeReadCounters mb) s = .next (finishCmd mb St.ok [] s'))
  ∧ (∀ (s s' : State) (mb : Fin 16), Holds s mb 0x0730 1 →
    ReportAt s s' (argOf s mb 0) ((List.range 12).flatMap fun i => natLe 8 (Ctrs.get s.rse.ctrs i)) →
    exec (.readRseCounters mb) s = .next (finishCmd mb St.ok [] s'))
  ∧ (∀ (s s' : State) (mb : Fin 16), Holds s mb 0x080A 1 →
    ReportAt s s' (argOf s mb 0) ((List.range 13).flatMap fun i => natLe 8 (Ctrs.get s.pcm.ctrs i)) →
    exec (.readPcmCounters mb) s = .next (finishCmd mb St.ok [] s'))
  ∧ (∀ (s s' : State) (mb : Fin 16), Holds s mb 0x0409 1 →
    ReportAt s s' (argOf s mb 0)
      ((List.range 32).flatMap fun l => (List.range 11).flatMap fun i => natLe 8 (Ctrs.get (s.link l).ctrs i)) →
    exec (.readLinkCounters mb) s = .next (finishCmd mb St.ok [] s'))

/-- The commands that clear a unit's counters by a mask, and leave everything else (R18, R88, R234, R261, R303, R338, R409,
R462, R491, R535, R595). -/
def Obligations.CounterClearsClearTheMask : Prop :=
  (∀ (s : State) (mb : Fin 16), Holds s mb 0x0A09 1 → argOf s mb 0 < 2 ^ 5 →
    ∃ c, exec (.clearNumericCounters mb) s = .next (finishCmd mb St.ok [] { s with num := { s.num with ctrs := c } })
      ∧ Cleared s.num.ctrs c (argOf s mb 0))
  ∧ (∀ (s : State) (mb : Fin 16), Holds s mb 0x0A0B 1 → argOf s mb 0 < 2 ^ 5 →
    ∃ c, exec (.clearWgbCounters mb) s = .next (finishCmd mb St.ok [] { s with num := { s.num with wgbCtrs := c } })
      ∧ Cleared s.num.wgbCtrs c (argOf s mb 0))
  ∧ (∀ (s : State) (mb : Fin 16), Holds s mb 0x0321 1 → argOf s mb 0 < 2 ^ 19 →
    ∃ c, exec (.clearPtuCounters mb) s = .next (finishCmd mb St.ok [] { s with ptu := { s.ptu with ctrs := c } })
      ∧ Cleared s.ptu.ctrs c (argOf s mb 0))
  ∧ (∀ (s : State) (mb : Fin 16), Holds s mb 0x034A 1 → argOf s mb 0 < 2 ^ 13 →
    ∃ c, exec (.clearLeafCounters mb) s = .next (finishCmd mb St.ok [] { s with leafs := { s.leafs with ctrs := c } })
      ∧ Cleared s.leafs.ctrs c (argOf s mb 0))
  ∧ (∀ (s : State) (mb : Fin 16), Holds s mb 0x0609 1 → argOf s mb 0 < 2 ^ 11 →
    ∃ c, exec (.igeClearCounters mb) s = .next (finishCmd mb St.ok [] { s with ige := { s.ige with ctrs := c } })
      ∧ Cleared s.ige.ctrs c (argOf s mb 0))
  ∧ (∀ (s : State) (mb : Fin 16), Holds s mb 0x0731 1 → argOf s mb 0 < 2 ^ 12 →
    ∃ c, exec (.clearRseCounters mb) s = .next (finishCmd mb St.ok [] { s with rse := { s.rse with ctrs := c } })
      ∧ Cleared s.rse.ctrs c (argOf s mb 0))
  ∧ (∀ (s : State) (mb : Fin 16), Holds s mb 0x080B 1 → argOf s mb 0 < 2 ^ 13 →
    ∃ c, exec (.clearPcmCounters mb) s = .next (finishCmd mb St.ok [] { s with pcm := { s.pcm with ctrs := c } })
      ∧ Cleared s.pcm.ctrs c (argOf s mb 0))
  ∧ (∀ (s : State) (mb : Fin 16), Holds s mb 0x0205 1 → argOf s mb 0 < 2 ^ 16 →
    ∃ c, exec (.memClearCounters mb) s = .next (finishCmd mb St.ok [] { s with mem := { s.mem with
        ctrs := c, prg := if (argOf s mb 0).testBit 15 then [] else s.mem.prg } })
      ∧ (∀ i, i < 15 → Ctrs.get c i = if (argOf s mb 0).testBit i then 0 else Ctrs.get s.mem.ctrs i)
      ∧ Ctrs.get c 15 = if (argOf s mb 0).testBit 14 then 0 else Ctrs.get s.mem.ctrs 15)
  ∧ (∀ (s : State) (mb : Fin 16), Holds s mb 0x040A 2 → argOf s mb 0 < 2 ^ 32 → argOf s mb 1 < 2 ^ 11 →
    ∃ t, exec (.clearLinkCounters mb) s = .next (finishCmd mb St.ok [] t)
      ∧ (∀ l, l < 32 → (argOf s mb 0).testBit l = true → Cleared (s.link l).ctrs (t.link l).ctrs (argOf s mb 1))
      ∧ (∀ l, (32 ≤ l ∨ (argOf s mb 0).testBit l = false) → t.link l = s.link l)
      ∧ { t with links := { t.links with links := s.links.links } } = s)
  ∧ (∀ (s : State) (mb : Fin 16), Holds s mb 0x050A 1 → argOf s mb 0 < 2 ^ 10 →
    ∃ c, exec (.clearCleCounters mb) s = .next (finishCmd mb St.ok [] { s with
        cle := { s.cle with ctrs := c }
        spine := { s.spine with
          lateCommit := if (argOf s mb 0).testBit 9 then [] else s.spine.lateCommit
          lateInput := if (argOf s mb 0).testBit 9 then [] else s.spine.lateInput } })
      ∧ Cleared s.cle.ctrs c (argOf s mb 0))

/-- The numerics commands and the governor's decision (R68, R80, R82, R84 to R87, R255, R256, R663). Where no schedule runs
the values take effect at once, which is the model's reading (log 35, 94). -/
def Obligations.NumericsCommandsTakeEffect : Prop :=
  (∀ (s : State) (mb : Fin 16), Holds s mb 0x0A01 0 →
    exec (.getNumericCaps mb) s = .next (finishCmd mb St.ok [0x1FFF, 32, 1, 64] s))
  ∧ (∀ (s : State) (mb : Fin 16), Holds s mb 0x0A02 1 → s.num.seedPend = none →
    exec (.setSrSeed mb) s = .next (finishCmd mb St.ok [s.nextApply] { s with num :=
      if s.spine.running then { s.num with seedPend := some (BitVec.ofNat 64 (argOf s mb 0), s.spine.step + 1) }
      else { s.num with seed := BitVec.ofNat 64 (argOf s mb 0) } }))
  ∧ (∀ (s s' : State) (mb : Fin 16) (r : List Byte), Holds s mb 0x0A03 1 → RecordAt s s' (argOf s mb 0) 64 64 r →
    govReserved r = false → govInRange r = true → s'.num.govPend = none →
    exec (.setGovernorConfig mb) s = .next (finishCmd mb St.ok [s'.nextApply] { s' with num :=
      if s'.spine.running then { s'.num with govPend := some (GovCfg.of r, s'.nextApply) }
      else { s'.num with gov := GovCfg.of r } }))
  ∧ (∀ (s s' : State) (mb : Fin 16), Holds s mb 0x0A04 1 → ReportAt s s' (argOf s mb 0) s.num.gov.bytes →
    exec (.getGovernorConfig mb) s = .next (finishCmd mb St.ok [] s'))
  ∧ (∀ (s : State) (mb : Fin 16), Holds s mb 0x0A05 3 → argOf s mb 0 ≤ 4095 → argOf s mb 2 < 256 →
    (isGovFormat (argOf s mb 1) = true ∨ argOf s mb 1 = 15) →
    (argOf s mb 2 = 0 ∨ argOf s mb 1 = 3 ∨ argOf s mb 1 = 4) →
    ∃ t, exec (.pinLayerFormat mb) s = .next (finishCmd mb St.ok [s.nextDecided] t)
      ∧ (∀ n, s.nextDecided ≤ n → t.num.pinAt n (argOf s mb 0)
          = (if argOf s mb 1 = 15 then none else some (argOf s mb 1, signedOf 8 (argOf s mb 2))))
      ∧ (∀ n, s.spine.running = true → n < s.nextDecided → t.num.pinAt n (argOf s mb 0) = s.num.pinAt n (argOf s mb 0))
      ∧ (∀ n k, k ≠ argOf s mb 0 → t.num.pinAt n k = s.num.pinAt n k)
      ∧ (∀ k, k ≠ argOf s mb 0 ∨ s.spine.running = true → t.govFormat k = s.govFormat k)
      ∧ { t with num := { t.num with pins := s.num.pins, pinPend := s.num.pinPend, tensors := s.num.tensors } } = s)
  ∧ (∀ (s : State) (mb : Fin 16), Holds s mb 0x0A06 1 → argOf s mb 0 ≤ 4095 →
    exec (.getLayerDecision mb) s = .next (finishCmd mb St.ok
      (match SMap.lookup s.num.tensors (argOf s mb 0) with
        | some r => [r.dec.format, twos 8 r.dec.texp, r.dec.reason, r.dec.hold, r.step]
        | none => [0, 0, 0, 0, 0]) s))
  ∧ (∀ (s s' : State) (mb : Fin 16), Holds s mb 0x0A07 2 → argOf s mb 0 ≤ 4095 →
    ReportAt s s' (argOf s mb 1) (match SMap.lookup s.num.tensors (argOf s mb 0) with
      | some r => r.bytes (argOf s mb 0)
      | none => List.replicate 768 0) →
    exec (.readTensorStats mb) s = .next (finishCmd mb St.ok [] s'))
  ∧ (∀ (s : State) (mb : Fin 16), Holds s mb 0x0A08 3 → argOf s mb 0 < 2 ^ 54 → argOf s mb 0 % 2 ^ 16 = 0 →
    0 < argOf s mb 1 → argOf s mb 1 ≤ 65536 → argOf s mb 2 < 256 → argOf s mb 2 ≠ 129 → argOf s mb 2 ≠ 128 →
    (∀ k, k < argOf s mb 1 → (s.fxAt (argOf s mb 0 / 2 ^ 52 % 4) (argOf s mb 0 % 2 ^ 52 + k * 2 ^ 16)).isSome = true) →
    ∃ t, exec (.setFxScale mb) s = .next (finishCmd mb St.ok [s.nextDecided] t)
      ∧ (∀ k r i, k < argOf s mb 1 →
          s.fxAt (argOf s mb 0 / 2 ^ 52 % 4) (argOf s mb 0 % 2 ^ 52 + k * 2 ^ 16) = some (r, i) →
          (SMap.lookup s.mem.fx r).isSome = true →
          if s.spine.running then
            SMap.lookup (t.mem.fxBlock r i).pend s.nextDecided = some (signedOf 8 (argOf s mb 2))
              ∧ (t.mem.fxBlock r i).e = (s.mem.fxBlock r i).e
          else (t.mem.fxBlock r i).e = signedOf 8 (argOf s mb 2) ∧ (t.mem.fxBlock r i).d = signedOf 8 (argOf s mb 2))
      ∧ { t with mem := { t.mem with fx := s.mem.fx } } = s)
  ∧ (∀ (s s1 : State), s.spine.running = true → s.spine.started = true → s.rse.window = 0 → s.num.govDone = false →
    s.statsReduced = true →
    s1 = (if s.spine.fTick + (s.spine.sched.map (·.commitOffset)).getD 0 < s.spine.tick then
      s.wgbCtr fun c => Ctrs.sat c 4 1 else s) →
    Calm (sendOwnerState (decideAll s1)) →
    exec .governorDecide s = .next (sendOwnerState (decideAll s1)) ∧ (decideAll s1).num.govDone = true
      ∧ (∀ t, SMap.lookup s.num.combined t ≠ none → s.num.pinAt (s.spine.step + 1) t = none →
          SMap.lookup (decideAll s1).num.decided t = some (decideTensor s.num.gov s.spine.step none
            (SMap.lookup s.num.tensors t) (SMap.getD s.num.combined t Stats.reset))))

/-- The paging commands that set up, map, unmap, move and pin pages (R308, R314, R315, R321, R325, R336, R337, R665). -/
def Obligations.PagingCommandsTakeEffect : Prop :=
  (∀ (s : State) (mb : Fin 16), Holds s mb 0x0301 2 → argOf s mb 0 % 2 ^ 21 = 0 → argOf s mb 1 % 2 ^ 21 = 0 →
    2 ^ 22 ≤ argOf s mb 1 → argOf s mb 0 + argOf s mb 1 ≤ 0xEFF0000000 → s.memOff = false → s.ptu.pages = [] →
    s.leafs.pools = [] → s.ptu.lent = [] →
    exec (.ptuInit mb) s = .next (finishCmd mb St.ok []
      { s with ptu := { s.ptu with area := some (argOf s mb 0, argOf s mb 1) } }))
  ∧ (∀ (s : State) (mb : Fin 16), Holds s mb 0x0302 2 → argOf s mb 0 ≤ 3 → argOf s mb 1 ≤ 1 →
    (∀ p ∈ s.ptu.pages, keyPart p.1 ≠ argOf s mb 0) → (∀ p ∈ s.leafs.pools, p.2.part ≠ argOf s mb 0) →
    ∃ t, exec (.partitionSetView mb) s = .next (finishCmd mb St.ok [] t)
      ∧ SMap.getD t.ptu.view (argOf s mb 0) 0 = argOf s mb 1
      ∧ (∀ p, p ≠ argOf s mb 0 → SMap.getD t.ptu.view p 0 = SMap.getD s.ptu.view p 0)
      ∧ { t with ptu := { t.ptu with view := s.ptu.view } } = s)
  ∧ (∀ (s s' : State) (mb : Fin 16) (r : List Byte), Holds s mb 0x0303 2 → argOf s mb 0 ≤ 3 →
    RecordAt s s' (argOf s mb 1) 40 64 r → (∀ i, i < 4 → fieldAt r (8 * i) 8 % 2 ^ 16 = 0) → fieldAt r 32 1 < 2 →
    zeroAt r 33 7 = true → (fieldAt r 8 8 = 0 ∨ fieldAt r 0 8 ≤ fieldAt r 8 8) →
    ((List.range 4).map fun p => if p = argOf s mb 0 then fieldAt r 0 8 else (s'.quotaOf p).localMin).foldl (· + ·) 0
      ≤ s'.poolFrames * 2 ^ 16 →
    (fieldAt r 8 8 = 0 ∨ s'.localUse (argOf s mb 0) * 2 ^ 16 ≤ fieldAt r 8 8) →
    (fieldAt r 16 8 = 0 ∨ s'.tierUse false (argOf s mb 0) ≤ fieldAt r 16 8) →
    (fieldAt r 24 8 = 0 ∨ s'.tierUse true (argOf s mb 0) ≤ fieldAt r 24 8) →
    ∃ t, exec (.partitionSetQuota mb) s = .next (finishCmd mb St.ok [] t)
      ∧ t.quotaOf (argOf s mb 0)
          = ⟨fieldAt r 0 8, fieldAt r 8 8, fieldAt r 16 8, fieldAt r 24 8, (fieldAt r 32 1).testBit 0⟩
      ∧ (∀ p, p ≠ argOf s mb 0 → t.quotaOf p = s'.quotaOf p)
      ∧ { t with ptu := { t.ptu with quota := s'.ptu.quota } } = s')
  ∧ (∀ (s t : State) (mb : Fin 16) (q : MapReq), Holds s mb 0x0304 12 → q = MapReq.of (argOf s mb) →
    q.va % q.size = 0 → q.len % q.size = 0 → q.off % q.size = 0 → (q.base.isSome = true → argOf s mb 11 % q.size = 0) →
    q.part ≤ 3 → q.slot ≤ 15 → 0 < q.len → q.va + q.len ≤ 2 ^ 52 →
    (q.tier = 3 → q.off + q.len ≤ regionSize ((SMap.lookup s.ptu.regions q.region).getD [])) →
    mapBad (argOf s mb) (SMap.getD s.ptu.view q.part 0) = false → s.memOff = false → s.pagesIn q.part q.va q.len = [] →
    (∀ b, q.base = some b → s.frameFree b (q.len / 2 ^ 16) = true ∧ s.frameRoom q.part (q.len / 2 ^ 16) = true) →
    s.tableRoom q.keys q.big = true → s.generators = false → mapPages q 0 q.keys s = some t → Calm t →
    exec (.pageMap mb) s = .next (finishCmd mb St.ok [] t)
      ∧ (∀ k ∈ q.keys, ∃ p, SMap.lookup t.ptu.pages k = some p ∧ p.big = q.big ∧ p.write = q.write ∧ p.slot = q.slot
          ∧ p.slotAcct = q.acct ∧ p.motion = false ∧ p.lost = false)
      ∧ (∀ k, k ∉ q.keys → SMap.lookup t.ptu.pages k = SMap.lookup s.ptu.pages k))
  ∧ (∀ (s t : State) (mb : Fin 16), Holds s mb 0x0305 3 → argOf s mb 0 ≤ 3 → argOf s mb 1 % 2 ^ 16 = 0 →
    argOf s mb 2 % 2 ^ 16 = 0 → 0 < argOf s mb 2 → argOf s mb 1 + argOf s mb 2 ≤ 2 ^ 52 →
    s.cutsBig (argOf s mb 0) (argOf s mb 1) (argOf s mb 2) = false →
    s.rangeHeld (argOf s mb 0) (argOf s mb 1) (argOf s mb 2) = false → s.generators = false →
    t = (s.pagesIn (argOf s mb 0) (argOf s mb 1) (argOf s mb 2)).foldl (fun s p => unmapPage p.1 p.2 s) s → Calm t →
    exec (.pageUnmap mb) s = .next (finishCmd mb St.ok [] t)
      ∧ (∀ p ∈ s.pagesIn (argOf s mb 0) (argOf s mb 1) (argOf s mb 2), SMap.lookup t.ptu.pages p.1 = none)
      ∧ (∀ k, (∀ p ∈ s.pagesIn (argOf s mb 0) (argOf s mb 1) (argOf s mb 2), p.1 ≠ k) →
          SMap.lookup t.ptu.pages k = SMap.lookup s.ptu.pages k))
  ∧ (∀ (s t : State) (mb : Fin 16), Holds s mb 0x0306 4 → SMap.lookup s.ptu.moves (argOf s mb 0) = none →
    argOf s mb 0 ≤ 3 → argOf s mb 1 % 2 ^ 16 = 0 → argOf s mb 2 % 2 ^ 16 = 0 → 0 < argOf s mb 2 →
    argOf s mb 1 + argOf s mb 2 ≤ 2 ^ 52 → s.cutsBig (argOf s mb 0) (argOf s mb 1) (argOf s mb 2) = false →
    s.mapped (argOf s mb 0) (argOf s mb 1) (argOf s mb 2) = true → 1 ≤ argOf s mb 3 → argOf s mb 3 ≤ 3 →
    (∀ p ∈ s.pagesIn (argOf s mb 0) (argOf s mb 1) (argOf s mb 2),
      (p.2.tier = argOf s mb 3
        ∨ (s.mustStay p.1 p.2 = false ∧ (p.2.big = false ∨ SMap.getD s.ptu.view (argOf s mb 0) 0 ≠ 0)))
      ∧ s.pageBusy p.1 p.2 = false
      ∧ (s.hif.pcieWidth = 0 → p.2.tier = argOf s mb 3 ∨ argOf s mb 3 ≠ 3 ∧ p.2.tier ≠ 3)) →
    s.memOff = false → s.generators = false →
    beginMoves (argOf s mb 3) (argOf s mb 1) (argOf s mb 2) (s.pagesIn (argOf s mb 0) (argOf s mb 1) (argOf s mb 2)) s
      = some t →
    (∀ p ∈ s.pagesIn (argOf s mb 0) (argOf s mb 1) (argOf s mb 2), t.pageXfers p.1 p.2 = []) → Calm t →
    exec (.pageMigrate mb) s = .next (finishCmd mb St.ok
      [((s.pagesIn (argOf s mb 0) (argOf s mb 1) (argOf s mb 2)).filter fun p => p.2.tier != argOf s mb 3).length] t))
  ∧ (∀ (s : State) (mb : Fin 16), Holds s mb 0x0307 4 → argOf s mb 0 ≤ 3 → argOf s mb 1 % 2 ^ 16 = 0 →
    argOf s mb 2 % 2 ^ 16 = 0 → 0 < argOf s mb 2 → argOf s mb 1 + argOf s mb 2 ≤ 2 ^ 52 →
    s.cutsBig (argOf s mb 0) (argOf s mb 1) (argOf s mb 2) = false → argOf s mb 3 ≤ 1 →
    s.rangeHeld (argOf s mb 0) (argOf s mb 1) (argOf s mb 2) = false →
    (∀ p ∈ s.pagesIn (argOf s mb 0) (argOf s mb 1) (argOf s mb 2), argOf s mb 3 = 1 → s.leaving p.1 = false) →
    ∃ t n, exec (.pagePin mb) s = .next (finishCmd mb St.ok [n] t)
      ∧ (∀ p ∈ s.pagesIn (argOf s mb 0) (argOf s mb 1) (argOf s mb 2), p.2.big = false →
          SMap.lookup s.ptu.pages p.1 = some p.2 →
          SMap.lookup t.ptu.pages p.1 = some { p.2 with pin := argOf s mb 3 == 1 })
      ∧ (∀ k, (∀ p ∈ s.pagesIn (argOf s mb 0) (argOf s mb 1) (argOf s mb 2), p.1 ≠ k) →
          SMap.lookup t.ptu.pages k = SMap.lookup s.ptu.pages k)
      ∧ { t with ptu := { t.ptu with pages := s.ptu.pages } } = s)
  ∧ (∀ (s : State) (mb : Fin 16) (k : Nat) (p : Page), Holds s mb 0x0307 4 → argOf s mb 0 ≤ 3 → argOf s mb 1 % 2 ^ 16 = 0 →
    argOf s mb 2 % 2 ^ 16 = 0 → 0 < argOf s mb 2 → argOf s mb 1 + argOf s mb 2 ≤ 2 ^ 52 →
    s.cutsBig (argOf s mb 0) (argOf s mb 1) (argOf s mb 2) = false → argOf s mb 3 = 1 →
    s.rangeHeld (argOf s mb 0) (argOf s mb 1) (argOf s mb 2) = false →
    s.pagesIn (argOf s mb 0) (argOf s mb 1) (argOf s mb 2) = [(k, p)] → p.big = false → p.pin = false → s.leaving k = true →
    exec (.pagePin mb) s = .next (finishCmd mb St.ok [1] ((endEvictPage k s).modPage k fun g => { g with pin := true })))

/-- The paging commands that report, lend, borrow and register host memory (R309, R316, R326 to R330, R332, R333, R336). -/
def Obligations.TierCommandsTakeEffect : Prop :=
  (∀ (s : State) (mb : Fin 16), Holds s mb 0x0308 2 → argOf s mb 0 ≤ 3 → argOf s mb 1 < 2 ^ 52 →
    exec (.pageQuery mb) s = .next (finishCmd mb St.ok
      (match s.pageAt (argOf s mb 0) (argOf s mb 1) with
        | some (k, p) => [fieldAt ({ p with pin := s.mustStay k p } : Page).entry 0 8,
            fieldAt ({ p with pin := s.mustStay k p } : Page).entry 8 8]
        | none => [0, 0]) s))
  ∧ (∀ (s s' : State) (mb : Fin 16), Holds s mb 0x0309 1 →
    ReportAt s s' (argOf s mb 0) (s.poolReport.flatMap (natLe 8)) →
    exec (.poolStatus mb) s = .next (finishCmd mb St.ok [] s'))
  ∧ (∀ (s u t : State) (mb : Fin 16) (w : Nat), Holds s mb 0x0310 2 → 0 < argOf s mb 0 → argOf s mb 0 % 2 ^ 21 = 0 →
    argOf s mb 1 ≤ 3 → argOf s mb 0 ≤ 0xEFF0000000 → s.memOff = false → s.generators = false →
    w = firstFree (s.ptu.lent.map (·.1)) 0 →
    lendFrames w (argOf s mb 1) (argOf s mb 0 / 2 ^ 16)
      { s with ptu := { s.ptu with lent := SMap.put s.ptu.lent w ⟨argOf s mb 0, argOf s mb 1, [], [], false, []⟩ } } = some u →
    t = (((SMap.lookup u.ptu.lent w).map (·.frames)).getD []).foldl (fun s f => markUnwritten f 1 s) u → Calm t →
    exec (.farLend mb) s = .next (finishCmd mb St.ok [w] t)
      ∧ ∃ x, SMap.lookup t.ptu.lent w = some x ∧ x.frames.length = argOf s mb 0 / 2 ^ 16)
  ∧ (∀ (s : State) (mb : Fin 16) (w : Lent), Holds s mb 0x0311 1 → SMap.lookup s.ptu.lent (argOf s mb 0) = some w →
    w.reclaim = false → Calm (returnWindow (argOf s mb 0) (startReclaim (argOf s mb 0) s)) →
    exec (.farUnlend mb) s = .next (finishCmd mb St.ok [] (returnWindow (argOf s mb 0) (startReclaim (argOf s mb 0) s))))
  ∧ (∀ (s s' : State) (mb : Fin 16) (r : List Byte), Holds s mb 0x0312 2 → argOf s mb 0 ≤ 3 →
    RecordAt s s' (argOf s mb 1) 1024 64 r → (∀ w ∈ windowList r, w.size % 2 ^ 21 = 0 ∧ w.pos ≤ 1023) →
    (∀ i, i < 64 → zeroAt r (16 * i + 4) 4 = true) → distinctWins (windowList r) = true →
    (∀ c ∈ s'.copies, c.2.2 = argOf s mb 0 → c.1.host = false →
      ∃ w ∈ windowList r, w.pos = c.1.who ∧ w.window = c.1.window ∧ c.1.off + c.2.1 ≤ w.size) →
    ∃ t, exec (.farPoolSet mb) s = .next (finishCmd mb St.ok [] t)
      ∧ SMap.getD t.ptu.lists (argOf s mb 0) [] = windowList r ∧ SMap.lookup t.ptu.rr (argOf s mb 0) = none
      ∧ (∀ p, p ≠ argOf s mb 0 → SMap.getD t.ptu.lists p [] = SMap.getD s'.ptu.lists p [])
      ∧ { t with ptu := { t.ptu with lists := s'.ptu.lists, rr := s'.ptu.rr } } = s')
  ∧ (∀ (s : State) (mb : Fin 16), Holds s mb 0x0313 1 → 100 ≤ argOf s mb 0 → argOf s mb 0 ≤ 10000 →
    exec (.setReclaimBound mb) s = .next (finishCmd mb St.ok [] { s with ptu := { s.ptu with bound := argOf s mb 0 } }))
  ∧ (∀ (s s' : State) (mb : Fin 16) (r : List Byte), Holds s mb 0x0318 2 → argOf s mb 0 ≤ 1023 →
    RecordAt s s' (argOf s mb 1) 1024 64 r → rangeList r ≠ [] →
    (∀ x ∈ rangeList r, x.1 % 2 ^ 16 = 0 ∧ x.2 % 2 ^ 16 = 0 ∧ x.1 + x.2 ≤ 2 ^ 62) → regionSize (rangeList r) ≤ 2 ^ 48 →
    SMap.lookup s'.ptu.regions (argOf s mb 0) = none →
    ∃ t, exec (.hostRegionAdd mb) s = .next (finishCmd mb St.ok [] t)
      ∧ SMap.lookup t.ptu.regions (argOf s mb 0) = some (rangeList r)
      ∧ (∀ k, k ≠ argOf s mb 0 → SMap.lookup t.ptu.regions k = SMap.lookup s'.ptu.regions k)
      ∧ { t with ptu := { t.ptu with regions := s'.ptu.regions } } = s')
  ∧ (∀ (s : State) (mb : Fin 16) (l : List (Nat × Nat)), Holds s mb 0x0319 1 → argOf s mb 0 ≤ 1023 →
    SMap.lookup s.ptu.regions (argOf s mb 0) = some l →
    (∀ c ∈ s.copies, c.1.host = false ∨ c.1.who ≠ argOf s mb 0) →
    ∃ t, exec (.hostRegionRemove mb) s = .next (finishCmd mb St.ok [] t)
      ∧ SMap.lookup t.ptu.regions (argOf s mb 0) = none
      ∧ (∀ k, k ≠ argOf s mb 0 → SMap.lookup t.ptu.regions k = SMap.lookup s.ptu.regions k)
      ∧ { t with ptu := { t.ptu with regions := s.ptu.regions, written := s.ptu.written } } = s)

/-- The commands of leaf pools and sequence slots (R183, R185 to R187, R189, R213, R226, R227, R232, R233). -/
def Obligations.LeafCommandsTakeEffect : Prop :=
  (∀ (s s' u : State) (mb : Fin 16) (r : List Byte) (p : LeafPool), Holds s mb 0x0340 2 → argOf s mb 0 ≤ 7 →
    RecordAt s s' (argOf s mb 1) 64 64 r → p = LeafPool.of r → poolOk r = true → p.elemBase % 2 ^ 21 = 0 →
    p.scaleBase % 2 ^ 16 = 0 → 64 ≤ p.frames → p.frames ≤ 2 ^ 30 → (∀ x ∈ p.spans, x.1 + x.2 ≤ 2 ^ 52) →
    p.selfMeets = false → s'.memOff = false → SMap.lookup s'.leafs.pools (argOf s mb 0) = none →
    (∀ x ∈ p.spans, s'.pagesIn p.part x.1 x.2 = [] ∧ s'.rangeFixed p.part x.1 x.2 = false) →
    s'.tableRoom p.keys false = true → s'.generators = false → mapPool p.keys s' = some u → Calm u →
    exec (.leafPoolCreate mb) s = .next (finishCmd mb St.ok []
      { u with leafs := { u.leafs with pools := SMap.put u.leafs.pools (argOf s mb 0) p } })
      ∧ ∀ k ∈ p.keys, ∃ g, SMap.lookup u.ptu.pages k = some g ∧ g.tier = 1 ∧ g.pin = true ∧ g.write = true)
  ∧ (∀ (s u t : State) (mb : Fin 16) (p : LeafPool), Holds s mb 0x0341 1 →
    SMap.lookup s.leafs.pools (argOf s mb 0) = some p → (∀ q ∈ s.leafs.slots, q.2.pool ≠ argOf s mb 0) →
    s.generators = false →
    u = { s with leafs := { s.leafs with pools := SMap.del s.leafs.pools (argOf s mb 0) } } →
    t = (p.spans.flatMap fun x => u.pagesIn p.part x.1 x.2).foldl (fun s g => unmapPage g.1 g.2 s) u → Calm t →
    exec (.leafPoolDestroy mb) s = .next (finishCmd mb St.ok [] t)
      ∧ SMap.lookup t.leafs.pools (argOf s mb 0) = none
      ∧ (∀ x ∈ p.spans, ∀ g ∈ s.pagesIn p.part x.1 x.2, SMap.lookup t.ptu.pages g.1 = none))
  ∧ (∀ (s s' u t : State) (mb : Fin 16) (r : List Byte) (x : Slot) (p : LeafPool) (n : Nat), Holds s mb 0x0342 2 →
    argOf s mb 0 ≤ 15 → n = x.layers * x.heads * x.maxTokens →
    RecordAt s s' (argOf s mb 1) 128 64 r → x = Slot.of r → slotOk r = true → x.leafTable % 4096 = 0 →
    x.ropeTable % 64 = 0 → 1 ≤ x.layers → x.layers ≤ 512 → 1 ≤ x.heads → x.heads ≤ 64 → x.maxTokens % 16 = 0 →
    1 ≤ x.maxTokens → x.maxTokens ≤ 2 ^ 22 → s'.memOff = false → s'.slot (argOf s mb 0) = none →
    SMap.lookup s'.leafs.pools x.pool = some p → s'.poolUsed x.pool = false → x.rotDims ≤ p.hd →
    (Ptr.va p.part x.leafTable).names n true s' = true →
    (x.rotDims = 0 ∨ (Ptr.va p.part x.ropeTable).names (4 * x.rotDims) false s' = true) → s'.generators = false →
    vaReady none p.part x.leafTable n true s' = (none, u) →
    t = zeroVa p.part x.leafTable n
      { u with leafs := { u.leafs with slots := SMap.put u.leafs.slots (argOf s mb 0) x } } → Calm t →
    exec (.slotCreate mb) s = .next (finishCmd mb St.ok [] t))
  ∧ (∀ (s s' u : State) (mb : Fin 16) (r : List Byte) (x : Slot) (p : LeafPool) (n : Nat) (c : Nat × Nat),
    Holds s mb 0x0342 2 → argOf s mb 0 ≤ 15 → n = x.layers * x.heads * x.maxTokens →
    RecordAt s s' (argOf s mb 1) 128 64 r → x = Slot.of r → slotOk r = true → x.leafTable % 4096 = 0 →
    x.ropeTable % 64 = 0 → 1 ≤ x.layers → x.layers ≤ 512 → 1 ≤ x.heads → x.heads ≤ 64 → x.maxTokens % 16 = 0 →
    1 ≤ x.maxTokens → x.maxTokens ≤ 2 ^ 22 → s'.memOff = false → s'.slot (argOf s mb 0) = none →
    SMap.lookup s'.leafs.pools x.pool = some p → s'.poolUsed x.pool = false → x.rotDims ≤ p.hd →
    (Ptr.va p.part x.leafTable).names n true s' = true →
    (x.rotDims = 0 ∨ (Ptr.va p.part x.ropeTable).names (4 * x.rotDims) false s' = true) → s'.generators = false →
    vaReady none p.part x.leafTable n true s' = (some c, u) →
    exec (.slotCreate mb) s = .next u)
  ∧ (∀ (s t : State) (mb : Fin 16) (x : Slot), Holds s mb 0x0343 1 → argOf s mb 0 ≤ 15 → s.slot (argOf s mb 0) = some x →
    s.slotUsed (argOf s mb 0) = false → t = clearSlot (argOf s mb 0) s → Calm t →
    exec (.slotReset mb) s = .next (finishCmd mb St.ok [] t)
      ∧ ∃ y, t.slot (argOf s mb 0) = some y ∧ y.leaves = [] ∧ y.lens = [] ∧ y.clens = [] ∧ y.pool = x.pool
          ∧ y.layers = x.layers ∧ y.heads = x.heads ∧ y.maxTokens = x.maxTokens)
  ∧ (∀ (s t : State) (mb : Fin 16) (x : Slot), Holds s mb 0x0344 1 → argOf s mb 0 ≤ 15 → s.slot (argOf s mb 0) = some x →
    s.slotUsed (argOf s mb 0) = false → t = clearSlot (argOf s mb 0) s → Calm t →
    exec (.slotDestroy mb) s = .next (finishCmd mb St.ok []
      { t with leafs := { t.leafs with slots := SMap.del t.leafs.slots (argOf s mb 0) } }))
  ∧ (∀ (s s' : State) (mb : Fin 16) (r : List Byte) (g : Ring) (x : Slot) (p : LeafPool), Holds s mb 0x0345 2 →
    argOf s mb 0 ≤ 15 → RecordAt s s' (argOf s mb 1) 64 64 r → g = Ring.of r → g.lbSize % 2 ^ 16 = 0 →
    g.lb0 % 2 ^ 16 = 0 → g.lb1 % 2 ^ 16 = 0 → g.ob % 2 ^ 16 = 0 → zeroAt r 40 24 = true → g.arriveEc ≤ 31 →
    g.pos < g.nr → g.nr ≤ 1024 → g.next ≤ 1023 → g.prev ≤ 1023 → s'.slot (argOf s mb 0) = some x →
    s'.poolOf x = some p → s'.slotUsed (argOf s mb 0) = false → x.ringPend = none →
    (g.lbSize = 0 ∨ ∀ b, (b = g.lb0 ∨ b = g.lb1 ∨ b = g.ob) → (Ptr.va p.part b).names g.lbSize true s' = true) →
    ∃ t, exec (.slotSetRing mb) s = .next (finishCmd mb St.ok [s'.nextApply] t)
      ∧ t.slot (argOf s mb 0) = some (if s'.spine.running then { x with ringPend := some (g, s'.nextApply) } else x.putRing g)
      ∧ (∀ q, q ≠ argOf s mb 0 → t.slot q = s'.slot q)
      ∧ { t with leafs := { t.leafs with slots := s'.leafs.slots } } = s')

/-- The reports, pins and bounds of leaves (R189, R226, R227, R232). -/
def Obligations.LeafReportsAndPinsTakeEffect : Prop :=
  (∀ (s s' : State) (mb : Fin 16) (x : Slot), Holds s mb 0x0346 2 → argOf s mb 0 ≤ 15 → s.slot (argOf s mb 0) = some x →
    ReportAt s s' (argOf s mb 1) x.report →
    exec (.slotStatus mb) s = .next (finishCmd mb St.ok [1, x.pool, x.lastErr, (x.exhausted.getD (0, 0, 0)).1,
      (x.exhausted.getD (0, 0, 0)).2.1, (x.exhausted.getD (0, 0, 0)).2.2] s'))
  ∧ (∀ (s : State) (mb : Fin 16) (x : Slot), Holds s mb 0x0347 6 → argOf s mb 0 ≤ 15 → s.slot (argOf s mb 0) = some x →
    argOf s mb 1 < x.layers → argOf s mb 2 < x.heads → argOf s mb 3 + argOf s mb 4 ≤ x.perTrack → argOf s mb 5 ≤ 1 →
    s.slotUsed (argOf s mb 0) = false → (∀ e ∈ s.leafs.evicting, e.1 ≠ argOf s mb 0) →
    ∃ t n, exec (.leafPin mb) s = .next (finishCmd mb St.ok [n] t)
      ∧ (∃ y, t.slot (argOf s mb 0) = some y ∧
          ∀ i, (y.leaf i).pin = (if (∃ j, j < argOf s mb 4 ∧ i = x.leafIdx (argOf s mb 1) (argOf s mb 2) (argOf s mb 3 + j))
              ∧ (x.leaf i).state ≠ 0 then argOf s mb 5 == 1 else (x.leaf i).pin)
            ∧ (y.leaf i).state = (x.leaf i).state ∧ (y.leaf i).frame = (x.leaf i).frame)
      ∧ (∀ q, q ≠ argOf s mb 0 → t.slot q = s.slot q)
      ∧ { t with leafs := { t.leafs with slots := s.leafs.slots } } = s)
  ∧ (∀ (s : State) (mb : Fin 16) (x : Slot) (i : Nat), Holds s mb 0x0347 6 → argOf s mb 0 ≤ 15 →
    s.slot (argOf s mb 0) = some x → argOf s mb 1 < x.layers → argOf s mb 2 < x.heads → argOf s mb 3 < x.perTrack →
    argOf s mb 4 = 1 → argOf s mb 5 = 1 → s.slotUsed (argOf s mb 0) = false →
    i = x.leafIdx (argOf s mb 1) (argOf s mb 2) (argOf s mb 3) → (x.leaf i).state ≠ 0 → (x.leaf i).pin = false →
    exec (.leafPin mb) s = .next (finishCmd mb St.ok [1]
      ((cancelEvictLeaf (argOf s mb 0) i s).modLeaf (argOf s mb 0) i fun l => { l with pin := true })))
  ∧ (∀ (s : State) (mb : Fin 16), Holds s mb 0x0348 1 → 100 ≤ argOf s mb 0 → argOf s mb 0 ≤ 1000000 →
    exec (.setLeafStallBound mb) s = .next (finishCmd mb St.ok []
      { s with leafs := { s.leafs with bound := argOf s mb 0 } }))
  ∧ (∀ (s : State) (mb : Fin 16) (x : Slot), Holds s mb 0x034B 4 → argOf s mb 0 ≤ 15 → s.slot (argOf s mb 0) = some x →
    argOf s mb 1 < x.layers → argOf s mb 2 < x.heads → argOf s mb 3 < x.perTrack →
    exec (.readLeafEntry mb) s = .next (finishCmd mb St.ok
      (x.leaf (x.leafIdx (argOf s mb 1) (argOf s mb 2) (argOf s mb 3))).words s))

/-- The commands of the Tawa Links and of the position table (R397 to R400, R407, R408). -/
def Obligations.LinkCommandsTakeEffect : Prop :=
  (∀ (s s' : State) (mb : Fin 16), Holds s mb 0x0401 1 →
    ReportAt s s' (argOf s mb 0) ((List.range 32).flatMap s.linkRecord) →
    exec (.linkStatus mb) s = .next (finishCmd mb St.ok [] s'))
  ∧ (∀ (s s' : State) (mb : Fin 16) (r : List Byte), Holds s mb 0x0402 1 → RecordAt s s' (argOf s mb 0) 576 64 r →
    tableOk r = true → (PosTable.of r).inRange = true → s'.links.tablePend = none →
    (∀ o, s'.links.table = some o → o.gen < (PosTable.of r).gen) →
    exec (.posTableLoad mb) s = .next (finishCmd mb St.ok [s'.nextApply]
      (if s'.spine.running then { s' with links := { s'.links with tablePend := some (PosTable.of r) } }
       else installTable (PosTable.of r) s'))
      ∧ (installTable (PosTable.of r) s').links.table = some (PosTable.of r))
  ∧ (∀ (s s' : State) (mb : Fin 16), Holds s mb 0x0403 1 →
    ReportAt s s' (argOf s mb 0) ((s.links.table.map PosTable.bytes).getD (List.replicate 576 0)) →
    exec (.posTableRead mb) s = .next (finishCmd mb St.ok [] s'))
  ∧ (∀ (s : State) (mb : Fin 16), Holds s mb 0x0404 2 → argOf s mb 0 < 2 ^ 32 → argOf s mb 1 ≤ 1 →
    (s.spine.running = true → ∀ l, l < 32 → (argOf s mb 0).testBit l = true → s.inSet l = false) →
    ∃ t, exec (.linkEnable mb) s = .next (finishCmd mb St.ok [] t)
      ∧ (∀ l, (l < 32 ∧ (argOf s mb 0).testBit l = true ∧ argOf s mb 1 = 0) → (t.link l).st = 7)
      ∧ (∀ l, (32 ≤ l ∨ (argOf s mb 0).testBit l = false) → t.link l = s.link l)
      ∧ { t with links := { t.links with links := s.links.links, off := s.links.off } } = s)
  ∧ (∀ (s : State) (mb : Fin 16), Holds s mb 0x0405 1 → argOf s mb 0 ≤ 31 → s.spine.running = false →
    ((s.link (argOf s mb 0)).st ≠ 0 ∧ (s.link (argOf s mb 0)).st ≠ 5 ∧ (s.link (argOf s mb 0)).st ≠ 7) →
    Calm (leaveActive (argOf s mb 0) false s) →
    ∃ t, exec (.linkRetrain mb) s = .next (finishCmd mb St.ok [] t)
      ∧ ((s.link (argOf s mb 0)).st = 3 → t = leaveActive (argOf s mb 0) false s)
      ∧ ((s.link (argOf s mb 0)).st = 4 ∨ (s.link (argOf s mb 0)).st = 8 → (t.link (argOf s mb 0)).st = 4)
      ∧ ((s.link (argOf s mb 0)).st = 1 ∨ (s.link (argOf s mb 0)).st = 2 → (t.link (argOf s mb 0)).st = 1)
      ∧ (∀ l, l ≠ argOf s mb 0 → (s.link (argOf s mb 0)).st ≠ 3 → t.link l = s.link l))
  ∧ (∀ (s : State) (mb : Fin 16), Holds s mb 0x0406 3 → argOf s mb 0 < 2 ^ 32 → argOf s mb 1 ≤ 1 → 1 ≤ argOf s mb 2 →
    argOf s mb 2 ≤ 60000 → s.spine.running = false →
    (∀ l, l < 32 → (argOf s mb 0).testBit l = true → (s.link l).st ≠ 2 ∧ (s.link l).st ≠ 3) →
    ∃ t, exec (.linkTestStart mb) s = .next (finishCmd mb St.ok [] t)
      ∧ (∀ l, l < 32 → (argOf s mb 0).testBit l = true →
          (t.link l).st = 9 ∧ (t.link l).test = some (argOf s mb 1) ∧ (t.link l).testBits = List.replicate 8 0
            ∧ (t.link l).testErrs = List.replicate 8 0)
      ∧ (∀ l, (32 ≤ l ∨ (argOf s mb 0).testBit l = false) → t.link l = s.link l)
      ∧ { t with links := { t.links with links := s.links.links } } = s)
  ∧ (∀ (s s' : State) (mb : Fin 16), Holds s mb 0x0407 2 → argOf s mb 0 ≤ 31 →
    ReportAt s s' (argOf s mb 1) ((List.range 8).flatMap fun i =>
      natLe 8 ((s.link (argOf s mb 0)).testBits.getD i 0) ++ natLe 8 ((s.link (argOf s mb 0)).testErrs.getD i 0)) →
    exec (.linkTestResult mb) s = .next (finishCmd mb St.ok [] s'))
  ∧ (∀ (s : State) (mb : Fin 16), Holds s mb 0x0408 1 → 10 ≤ argOf s mb 0 → argOf s mb 0 ≤ 1000 →
    exec (.setPeerLostBound mb) s = .next (finishCmd mb St.ok [] { s with links := { s.links with bound := argOf s mb 0 } }))
  ∧ (∀ (s s' : State) (mb : Fin 16), Holds s mb 0x040B 1 →
    ReportAt s s' (argOf s mb 0) (padTo 2048 (s.links.events.flatMap LinkEvent.bytes)) →
    exec (.readLinkEvents mb) s = .next (finishCmd mb St.ok [] s'))

/-- Herd configuration, status, groups and reports (R422, R432, R451, R459 to R461). -/
def Obligations.HerdCommandsTakeEffect : Prop :=
  (∀ (s : State) (mb : Fin 16), Holds s mb 0x0501 4 →
    (∀ i, i < 3 → argOf s mb i ≤ 1023 ∨ argOf s mb i = 0xFFFF) → 1024 ≤ argOf s mb 3 → argOf s mb 3 ≤ 65536 →
    exec (.herdConfig mb) s = .next (finishCmd mb St.ok [s.nextApply] { s with spine :=
      if s.spine.running then
        { s.spine with confPend := some ([argOf s mb 0, argOf s mb 1, argOf s mb 2], argOf s mb 3, s.nextApply) }
      else { s.spine with cands := [argOf s mb 0, argOf s mb 1, argOf s mb 2], rewindTicks := argOf s mb 3,
                          confPend := none } }))
  ∧ (∀ (s : State) (mb : Fin 16), Holds s mb 0x0502 0 →
    exec (.herdStatus mb) s = .next (finishCmd mb St.ok
      [s.myRole, s.spine.gen, s.spine.parent.getD 0xFFFF, if s.spine.stag then 0 else s.spine.hops, twos 64 s.spine.offset,
        s.spine.spineRound, s.spine.committed.getD 0, s.cle.epoch, (s.cle.pend.map (·.epoch)).getD 0,
        if s.spine.degraded then 1 else 0] s))
  ∧ (∀ (s : State) (mb : Fin 16) (ptm : BitVec 64), Holds s mb 0x050C 0 →
    exec (.spineTime mb ptm) s = .next (finishCmd mb St.ok [s.spine.tick, s.spine.phase, ptm.toNat] s))
  ∧ (∀ (s s1 s2 : State) (mb : Fin 16) (h r : List Byte), Holds s mb 0x0503 2 → argOf s mb 0 ≤ 4095 →
    RecordAt s s1 (argOf s mb 1) 16 64 h → groupHeadOk h = true →
    RecordAt s1 s2 (argOf s mb 1) (16 + 2 * fieldAt h 0 2) 64 r → s2.groupOk (Group.of r) = true →
    (∀ o, s2.group (argOf s mb 0) = some o → o.epoch ≠ s2.cle.epoch) →
    ∃ t, exec (.groupDefine mb) s = .next (finishCmd mb St.ok [] t)
      ∧ t.group (argOf s mb 0) = some (Group.of r)
      ∧ (∀ g, g ≠ argOf s mb 0 → t.group g = s2.group g)
      ∧ { t with cle := { t.cle with groups := s2.cle.groups } } = s2)
  ∧ (∀ (s : State) (mb : Fin 16) (o : Group), Holds s mb 0x0504 1 → argOf s mb 0 ≤ 4095 →
    s.group (argOf s mb 0) = some o → s.groupNamed (argOf s mb 0) = false →
    ∃ t, exec (.groupRelease mb) s = .next (finishCmd mb St.ok [] t)
      ∧ t.group (argOf s mb 0) = none
      ∧ (∀ g, g ≠ argOf s mb 0 → t.group g = s.group g)
      ∧ { t with cle := { t.cle with groups := s.cle.groups } } = s)
  ∧ (∀ (s s' : State) (mb : Fin 16), Holds s mb 0x0509 1 →
    ReportAt s s' (argOf s mb 0) (latenessBytes s.spine) →
    exec (.readLateness mb) s = .next (finishCmd mb St.ok [] s'))
  ∧ (∀ (s s' : State) (mb : Fin 16), Holds s mb 0x050E 1 →
    ReportAt s s' (argOf s mb 0) (abortBytes s.cle.abort) →
    exec (.collStatus mb) s = .next (finishCmd mb St.ok [] s'))
  ∧ (∀ (s s' : State) (mb : Fin 16), Holds s mb 0x050F 1 →
    ReportAt s s' (argOf s mb 0) (placementBytes s) →
    exec (.placementReport mb) s = .next (finishCmd mb St.ok [s.edges.length] s'))

/-- Loading, starting and stopping a schedule, and a layout epoch (R422, R436, R454, R460, R503). -/
def Obligations.ScheduleCommandsTakeEffect : Prop :=
  (∀ (s s1 s2 : State) (mb : Fin 16) (h r : List Byte), Holds s mb 0x0505 1 →
    RecordAt s s1 (argOf s mb 0) 64 64 h → schedHeadOk h = true → RecordAt s1 s2 (argOf s mb 0) (schedLen h) 64 r →
    s2.schedErr r = none → (s2.spine.running = true → (Sched.of r).epoch = s2.cle.epoch) →
    (∀ e ∈ (Sched.of r).entries, s2.tooLarge e = false) → s2.spine.schedPend = none →
    exec (.scheduleLoad mb) s = .next (finishCmd mb St.ok [s2.nextApply]
      (if s2.spine.running then { s2 with spine := { s2.spine with schedPend := some (Sched.of r, s2.nextApply) } }
       else { s2 with spine := { s2.spine with sched := some (Sched.of r) }
                      cle := { s2.cle with epoch := (Sched.of r).epoch } })))
  ∧ (∀ (s : State) (mb : Fin 16) (f : Nat), Holds s mb 0x0506 2 → s.spine.running = false →
    (s.spine.sched ≠ none ∨ s.cle.pend ≠ none) → s.spine.stag = true → s.memOff = false → 0 ∉ s.sys.refBad →
    s.aggregate.count = s.herdSize → argOf s mb 1 < 2 ^ 48 →
    f = max (s.spine.tick + s.spine.spineRound) (argOf s mb 1) % 2 ^ 48 →
    Calm (orderStart (argOf s mb 0) f s) →
    exec (.spineStart mb) s = .next (finishCmd mb St.ok [f] (orderStart (argOf s mb 0) f s)))
  ∧ (∀ (s : State) (mb : Fin 16), Holds s mb 0x0507 0 → s.spine.running = true → s.spine.stag = true →
    s.rse.window ≠ 1 → s.rse.window ≠ 2 →
    exec (.spineStop mb) s = .next (finishCmd mb St.ok [s.spine.step]
      { s with spine := { s.spine with stopAfter := some s.spine.step } }))
  ∧ (∀ (s t : State) (mb : Fin 16), Holds s mb 0x0507 0 → s.spine.running = true → s.spine.stag = true →
    (s.rse.window = 1 ∨ s.rse.window = 2) →
    t = orderStop (s.rse.winFault.getD ⟨s.myPos, 0, 0, s.spine.tick, 0xFFFF⟩) none s → Calm t →
    exec (.spineStop mb) s = .next (finishCmd mb St.ok [s.lastCommit] t))
  ∧ (∀ (s : State) (mb : Fin 16), Holds s mb 0x0508 3 → argOf s mb 0 = 0 →
    exec (.epochAdvance mb) s = .next (finishCmd mb St.ok [0] { s with cle := { s.cle with pend := none } }))
  ∧ (∀ (s s1 s2 t : State) (mb : Fin 16) (r : List Byte) (gs : SMap Group), Holds s mb 0x0508 3 →
    s.cle.epoch < argOf s mb 0 → argOf s mb 0 < 2 ^ 32 → s.cle.pend = none →
    (∀ f, withSched (argOf s mb 1) s f = f r s1) →
    (∀ f, withGroupList (argOf s mb 2) (argOf s mb 0) s1 f = f gs s2) →
    t = { s2 with cle := { s2.cle with groups := gs } } → t.schedErr r = none → (Sched.of r).epoch = argOf s mb 0 →
    (∀ e ∈ (Sched.of r).entries, t.tooLarge e = false) → Calm s2 →
    exec (.epochAdvance mb) s = .next (finishCmd mb St.ok [0]
      { s2 with cle := { s2.cle with pend := some ⟨argOf s mb 0, Sched.of r, gs⟩ } }))

/-- The commands of the ingest engine (R463, R464, R472, R473, R475, R479, R480, R483, R486, R489, R490). -/
def Obligations.IngestCommandsTakeEffect : Prop :=
  (∀ (s s' t : State) (mb : Fin 16) (r : List Byte) (u : IgeSetup), Holds s mb 0x0601 1 →
    RecordAt s s' (argOf s mb 0) 128 64 r → u = IgeSetup.of r → setupZeros r = true → u.aligned = true →
    u.inRange = true → 4 * s'.ige.limits.cap + 2 ^ 26 ≤ u.workspaceSize → s'.ige.running = false →
    t = dropIndex { s' with ige := { s'.ige with
      setup := some u, touched := false, cache := s'.ige.cache.filter fun c => decide (16 * u.n + 2 ^ 21 ≤ c.2) } } →
    exec (.igeSetup mb) s = .next (finishCmd mb St.ok [] t)
      ∧ t.ige.setup = some u ∧ { t with ige := s'.ige, mem := s'.mem } = s'
      ∧ (s'.ige.cache = none → t.mem = s'.mem))
  ∧ (∀ (s s1 s2 t : State) (mb : Fin 16) (h r : List Byte), Holds s mb 0x0602 1 →
    RecordAt s s1 (argOf s mb 0) 64 64 h → dictHeadOk h = true → RecordAt s1 s2 (argOf s mb 0) (dictImageLen h) 64 r →
    (∀ e, e < fieldAt r 8 4 → dictEntryOk r e = true) → (dictStrings r).Nodup →
    (∀ b : Nat, b < 256 → [BitVec.ofNat 8 b] ∈ dictStrings r) → s2.ige.setup ≠ none → s2.ige.running = false →
    t = dropIndex { s2 with ige := { s2.ige with dict := dictStrings r, dictGen := s2.ige.dictGen + 1 } } →
    exec (.igeDictLoad mb) s = .next (finishCmd mb St.ok [s2.ige.dictGen + 1] t)
      ∧ t.ige.dict = dictStrings r ∧ t.ige.dictGen = s2.ige.dictGen + 1
      ∧ { t with ige := s2.ige, mem := s2.mem } = s2)
  ∧ (∀ (s s' t : State) (mb : Fin 16) (r : List Byte) (l : IgeLimits), Holds s mb 0x0603 1 →
    RecordAt s s' (argOf s mb 0) 32 64 r → l = IgeLimits.of r → zeroAt r 17 15 = true → l.inRange = true →
    (∀ u, s'.ige.setup = some u → 4 * l.cap + 2 ^ 26 ≤ u.workspaceSize) → s'.ige.limitsPend = none →
    t = (if s'.spine.running then { s' with ige := { s'.ige with limitsPend := some (l, s'.nextApply) } }
      else dropIndex { s' with ige := withLimits l s'.ige }) →
    exec (.igeSetLimits mb) s = .next (finishCmd mb St.ok [s'.nextApply] t)
      ∧ (s'.spine.running = false → t.ige.limits = l ∧ t.ige.limitsGen = s'.ige.limitsGen + 1)
      ∧ (s'.spine.running = true → t.ige.limits = s'.ige.limits)
      ∧ { t with ige := s'.ige, mem := s'.mem } = s')
  ∧ (∀ (s t : State) (mb : Fin 16) (u : IgeSetup) (x : IgeState), Holds s mb 0x0604 4 → s.ige.setup = some u →
    (argOf s mb 1 = 0 ∧ x = s.ige.retained
      ∨ argOf s mb 1 = 1 ∧ argOf s mb 3 < u.n ∧ x = ⟨argOf s mb 2, argOf s mb 3, none, 0, 0, s.ige.limitsGen⟩) →
    s.memOff = false → s.ige.running = false → s.ige.dict ≠ [] →
    t = wakeIdle { s with ige := { s.ige with
      running := true, startStep := argOf s mb 0, cur := x, retained := x, marks := [], open_ := false, fill := 0
      tail := [], sample := none, full := [], skips := 0, wait := none, waitsRelease := false, lastErr := 0 } } →
    exec (.igeStart mb) s = .next (finishCmd mb St.ok [(argOf s mb 0 + x.j / u.mbPerStep) % 2 ^ 64] t))
  ∧ (∀ (s : State) (mb : Fin 16), Holds s mb 0x0605 0 → s.ige.running = true →
    exec (.igeStop mb) s = .next (finishCmd mb St.ok
      [s.ige.cur.epoch, s.ige.cur.pos, s.ige.cur.carried.getD (2 ^ 64 - 1), s.ige.cur.offset, s.ige.cur.j, s.ige.cur.limitsGen]
      { s with ige := { s.ige with
        running := false, open_ := false, fill := 0, tail := [], sample := none, skips := 0, wait := none, waitsRelease := false } }))
  ∧ (∀ (s s' : State) (mb : Fin 16), Holds s mb 0x0606 1 → ReportAt s s' (argOf s mb 0) (igeStatusBytes s) →
    exec (.igeStatus mb) s = .next (finishCmd mb St.ok [] s'))
  ∧ (∀ (s s' : State) (mb : Fin 16), Holds s mb 0x0607 1 →
    ReportAt s s' (argOf s mb 0) (padTo 2048 (s.ige.skipLog.flatMap SkipRec.bytes)) →
    exec (.igeReadSkipLog mb) s = .next (finishCmd mb St.ok [] s'))
  ∧ (∀ (s : State) (mb : Fin 16), Holds s mb 0x060A 2 → argOf s mb 1 = 0 → s.ige.running = false →
    exec (.igeCacheSet mb) s = .next (finishCmd mb St.ok [] { s with ige := { s.ige with cache := none, arena := 0 } }))
  ∧ (∀ (s t : State) (mb : Fin 16) (u : IgeSetup), Holds s mb 0x060A 2 → s.ige.setup = some u →
    argOf s mb 0 % 2 ^ 21 = 0 → argOf s mb 1 % 2 ^ 21 = 0 → argOf s mb 0 + argOf s mb 1 ≤ 2 ^ 52 →
    16 * u.n + 2 ^ 21 ≤ argOf s mb 1 → s.ige.running = false → s.memOff = false → s.generators = false →
    t = clearVa u.part (argOf s mb 0) (argOf s mb 1)
      { s with ige := { s.ige with cache := some (argOf s mb 0, argOf s mb 1), arena := 0 } } →
    exec (.igeCacheSet mb) s = .next (finishCmd mb St.ok [] t)
      ∧ t.ige.cache = some (argOf s mb 0, argOf s mb 1) ∧ t.ige.arena = 0
      ∧ { t with ige := s.ige, mem := s.mem } = s)
  ∧ (∀ (s : State) (mb : Fin 16), Holds s mb 0x060B 4 → argOf s mb 0 < argOf s mb 1 → argOf s mb 1 ≤ 2 ^ 40 →
    exec (.igePermute mb) s = .next (finishCmd mb St.ok
      [sampleIndex (argOf s mb 0) (argOf s mb 1) (BitVec.ofNat 64 (argOf s mb 2)) (argOf s mb 3)] s))

/-- The error log, scrubbing, injection and retirement (R496, R522 to R528, R534). -/
def Obligations.ErrorAndRetirementCommandsTakeEffect : Prop :=
  (∀ (s s' : State) (mb : Fin 16) (rs : List LogRec), Holds s mb 0x0701 3 → 1 ≤ argOf s mb 1 → argOf s mb 1 ≤ 4096 →
    rs = (s.rse.log.filter fun r => decide (argOf s mb 0 ≤ r.seq)).take (argOf s mb 1) →
    ReportAt s s' (argOf s mb 2) (rs.flatMap LogRec.bytes) →
    exec (.errLogRead mb) s = .next (finishCmd mb St.ok [rs.length, ((s.rse.log.getLast?).map (·.seq)).getD 0] s'))
  ∧ (∀ (s : State) (mb : Fin 16), Holds s mb 0x0702 0 →
    exec (.errLogClear mb) s = .next (finishCmd mb St.ok [] { s with rse := { s.rse with log := [] } }))
  ∧ (∀ (s : State) (mb : Fin 16), Holds s mb 0x0703 5 → ptrErr (argOf s mb 4) 64 64 true s = none →
    argOf s mb 0 % 2 ^ 16 = 0 → argOf s mb 1 % 2 ^ 16 = 0 → 1 ≤ argOf s mb 1 → argOf s mb 0 + argOf s mb 1 ≤ hbmEnd →
    1 ≤ argOf s mb 3 → argOf s mb 3 ≤ 2048 → argOf s mb 2 ≤ 1 → s.scrubs = false → s.generators = false →
    s.memOff = false →
    exec (.scrubStart mb) s = .next (finishCmd mb St.ok [] { s with rse := { s.rse with
      scrub := some ⟨argOf s mb 0, argOf s mb 1, argOf s mb 2, argOf s mb 3, argOf s mb 4, 0, 0, 0, 0, 0, 2 ^ 64 - 1,
        s.spine.tick, 0, 1⟩ } }))
  ∧ (∀ (s s' : State) (mb : Fin 16), Holds s mb 0x0704 1 →
    ReportAt (scrubNow s) s' (argOf s mb 0) (scrubBytes (scrubNow s).rse.scrub) →
    exec (.scrubStatus mb) s = .next (finishCmd mb St.ok [] s'))
  ∧ (∀ (s u t : State) (mb : Fin 16) (x y : Scrub), Holds s mb 0x0705 0 → s.scrubs = true → u = scrubNow s →
    u.rse.scrub = some x → y = { x with state := 3, endTick := u.spine.tick } →
    ptrWrite x.dst (scrubBytes (some y)) { u with rse := { u.rse with scrub := some y } } = .ok t → Calm t →
    exec (.scrubStop mb) s = .next (finishCmd mb St.ok [] t))
  ∧ (∀ (s : State) (mb : Fin 16), Holds s mb 0x0706 8 → s.mayInject = true → argOf s mb 0 ≤ 15 → 1 ≤ argOf s mb 1 →
    argOf s mb 1 ≤ 9 → (argOf s mb 7 = 0 ∨ argOf s mb 7 = 1 ∧ argOf s mb 1 ≤ 2) →
    injPlace (argOf s mb 1) (argOf s mb 2) (argOf s mb 3) = true → 1 ≤ argOf s mb 5 → argOf s mb 5 ≤ 255 →
    argOf s mb 6 < 2 ^ 48 → SMap.lookup s.rse.inj (argOf s mb 0) = none →
    ∃ t, exec (.injectArm mb) s = .next (finishCmd mb St.ok [] t)
      ∧ SMap.lookup t.rse.inj (argOf s mb 0) = some ⟨argOf s mb 1, argOf s mb 2, argOf s mb 3,
          BitVec.ofNat 64 (argOf s mb 4), argOf s mb 5, argOf s mb 6, argOf s mb 7 == 1, false⟩
      ∧ (∀ k, k ≠ argOf s mb 0 → SMap.lookup t.rse.inj k = SMap.lookup s.rse.inj k)
      ∧ { t with rse := { t.rse with inj := s.rse.inj } } = s)
  ∧ (∀ (s : State) (mb : Fin 16), Holds s mb 0x0707 1 → argOf s mb 0 < 2 ^ 16 →
    ∃ t, exec (.injectDisarm mb) s = .next (finishCmd mb St.ok [] t)
      ∧ (∀ k, (argOf s mb 0).testBit k = true → SMap.lookup t.rse.inj k = none)
      ∧ (∀ k, (argOf s mb 0).testBit k = false → SMap.lookup t.rse.inj k = SMap.lookup s.rse.inj k)
      ∧ (∀ l, t.link l = s.link l ∨ t.link l = { s.link l with dropped := false })
      ∧ { t with rse := { t.rse with inj := s.rse.inj }, links := { t.links with links := s.links.links } } = s)
  ∧ (∀ (s u : State) (mb : Fin 16) (g : Nat), Holds s mb 0x0708 1 → argOf s mb 0 = g * 2 ^ 16 →
    argOf s mb 0 < reserveBase → s.rse.retired.length + s.rse.retirePend.length < 16384 → s.generators = false →
    retireOne g s = .gone u →
    Calm u →
    exec (.retireGranule mb) s = .next (finishCmd mb St.ok [0] { u with rse := { u.rse with
      retired := if u.isRetired g then u.rse.retired else NSet.insert u.rse.retired g
      retirePend := NSet.erase u.rse.retirePend g } }))
  ∧ (∀ (s : State) (mb : Fin 16) (g : Nat), Holds s mb 0x0708 1 → argOf s mb 0 = g * 2 ^ 16 →
    argOf s mb 0 < reserveBase → s.rse.retired.length + s.rse.retirePend.length < 16384 → s.generators = false →
    retireOne g s = .pends →
    exec (.retireGranule mb) s = .next (finishCmd mb St.ok [1]
      { s with rse := { s.rse with retirePend := NSet.insert s.rse.retirePend g } }))
  ∧ (∀ (s : State) (mb : Fin 16), Holds s mb 0x0709 1 → argOf s mb 0 ≤ 63 → argOf s mb 0 ∈ s.rse.banks →
    s.generators = false →
    exec (.retireBank mb) s = .next (finishCmd mb St.ok
      [bankGranules - (s.rse.retirePend.filter fun g => granuleBank g == argOf s mb 0).length,
        (s.rse.retirePend.filter fun g => granuleBank g == argOf s mb 0).length] s))
  ∧ (∀ (s t u : State) (mb : Fin 16) (used stay : List Nat), Holds s mb 0x0709 1 → argOf s mb 0 ≤ 63 →
    argOf s mb 0 ∉ s.rse.banks → s.rse.banks.length < 4 → s.generators = false → used = NSet.addAll [] (s.usedOf (argOf s mb 0)) →
    t = { s with rse := { s.rse with
      banks := NSet.insert s.rse.banks (argOf s mb 0), retirePend := NSet.addAll s.rse.retirePend used } } →
    retireUsed used [] t = (stay, false, u) → Calm u →
    exec (.retireBank mb) s = .next (finishCmd mb St.ok [bankGranules - stay.length, stay.length]
      { u with rse := { u.rse with
        retirePend := u.rse.retirePend.filter fun g => !used.contains g || stay.contains g } }))
  ∧ (∀ (s t : State) (mb : Fin 16), Holds s mb 0x070A 6 → argOf s mb 0 ≤ 19 → argOf s mb 1 ≤ 31 → argOf s mb 2 ≤ 1 →
    argOf s mb 3 ≤ 63 → argOf s mb 4 < 12288 → argOf s mb 5 ≤ 1 → s.spine.running = false → s.generators = false →
    s.memOff = false →
    t = rewriteRow (inRow (argOf s mb 0) (argOf s mb 1) (argOf s mb 2) (argOf s mb 3) (argOf s mb 4)) s → Calm t →
    exec (.rowRepair mb true true) s = .next (finishCmd mb St.ok [] { t with rse := { t.rse with
      rows := t.rse.rows ++ [⟨argOf s mb 0, argOf s mb 1, argOf s mb 2, argOf s mb 3, argOf s mb 4, argOf s mb 5 == 1⟩] } }))
  ∧ (∀ (s s' : State) (mb : Fin 16), Holds s mb 0x070B 1 → ReportAt s s' (argOf s mb 0) (retireListBytes s.rse) →
    exec (.retireListRead mb) s = .next (finishCmd mb St.ok [(retireListBytes s.rse).length] s'))

/-- Mirrors, manifests, recovery limits and the colophon (R501, R504, R505, R515, R520, R533, R534). -/
def Obligations.RecoveryCommandsTakeEffect : Prop :=
  (∀ (s s' : State) (mb : Fin 16) (r : List Byte) (part : Nat), Holds s mb 0x0710 1 →
    RecordAt s s' (argOf s mb 0) 64 64 r → zeroAt r 4 4 = true → (MirrorRec.of r 0).inRange = true →
    (∀ o, o ∈ [16, 24, 40, 48] → fieldAt r o 8 % 2 ^ 16 = 0) → fieldAt r 32 8 % 8 = 0 →
    part < 4 → s'.banksPinned (MirrorRec.of r part) = true → (∀ p, p < part → s'.banksPinned (MirrorRec.of r p) = false) →
    s'.rse.mirrorPend = none →
    exec (.mirrorConfig mb) s = .next (finishCmd mb St.ok [s'.nextApply] { s' with rse :=
      if s'.spine.running then { s'.rse with mirrorPend := some (MirrorRec.of r part) }
      else { s'.rse with mirror := MirrorRec.of r part } }))
  ∧ (∀ (s : State) (mb : Fin 16), Holds s mb 0x0711 0 →
    exec (.mirrorStatus mb) s = .next (finishCmd mb St.ok
      (s.rse.mirror.words ++ [s.curBank, s.rse.mirroredC / 8192, (readyWord s).1]) s))
  ∧ (∀ (s s' : State) (mb : Fin 16) (t : PosTable) (part va : Nat) (r : List Byte), Holds s mb 0x0712 3 →
    s.links.table = some t → argOf s mb 0 ∈ t.fawnFor → ptrOf (argOf s mb 1) = some (.va part va) → 1 ≤ argOf s mb 2 →
    argOf s mb 2 ≤ 256 → RecordAt s s' (argOf s mb 1) (256 * argOf s mb 2) 64 r →
    (∀ i, i < argOf s mb 2 → manifestCode (fieldAt r (256 * i) 2) = true) →
    exec (.fawnManifestLoad mb) s = .next (finishCmd mb St.ok [] { s' with rse := { s'.rse with
      manifests := SMap.put s'.rse.manifests (argOf s mb 0) (part, va, argOf s mb 2) } }))
  ∧ (∀ (s s' : State) (mb : Fin 16), Holds s mb 0x0713 1 →
    ReportAt s s' (argOf s mb 0) (takeoverBytes s.rse.takeoverRec) →
    exec (.takeoverRecordRead mb) s = .next (finishCmd mb St.ok [] s'))
  ∧ (∀ (s s' : State) (mb : Fin 16) (r : List Byte) (l : RecLimits), Holds s mb 0x0714 1 →
    RecordAt s s' (argOf s mb 0) 16 64 r → zeroAt r 1 3 = true →
    l = ⟨fieldAt r 0 1, fieldAt r 4 4, fieldAt r 8 8⟩ → 1 ≤ l.replay → l.replay ≤ 16 → 1000 ≤ l.bound → l.bound ≤ 30000 →
    (l.watchdog = 0 ∨ 1000 ≤ l.watchdog ∧ l.watchdog ≤ 2 ^ 40) →
    exec (.setRecoveryLimits mb) s = .next (finishCmd mb St.ok [s'.nextApply] { s' with rse :=
      if s'.spine.running then { s'.rse with limitsPend := some (l, s'.nextApply) }
      else { s'.rse with limits := l, limitsPend := none } }))
  ∧ (∀ (s : State) (mb : Fin 16), Holds s mb 0x0715 0 →
    exec (.recoveryStatus mb) s = .next (finishCmd mb St.ok (recoveryStatus s.rse) s))
  ∧ (∀ (s s' : State) (mb : Fin 16) (a : Nat) (d : Dump), Holds s mb 0x0720 3 → ptrOf (argOf s mb 2) = some (.host a) →
    s.rse.colo.valid = true → argOf s mb 0 + argOf s mb 1 ≤ s.rse.colo.size → s.coloDump = some d →
    ReportAt s s' (argOf s mb 2) (d.read (argOf s mb 0) (argOf s mb 1)) →
    exec (.colophonRead mb) s = .next (finishCmd mb St.ok [] s'))
  ∧ (∀ (s : State) (mb : Fin 16), Holds s mb 0x0721 0 → s.rse.fatal = none → s.rse.colo.valid = true →
    exec (.colophonRelease mb) s = .next (finishCmd mb St.ok [] { s with rse := { s.rse with
      colo := { s.rse.colo with valid := false }, dump := none, dumping := false } }))

/-- Power limits, the envelope, frequencies, sleep and calibration (R570, R578, R580, R584, R586, R588, R594). -/
def Obligations.PowerCommandsTakeEffect : Prop :=
  (∀ (s s' : State) (mb : Fin 16), Holds s mb 0x0801 1 →
    ReportAt s s' (argOf s mb 0) ((List.range 256).flatMap fun t => natLe 1 (s.ceiling t)) →
    exec (.pwrGetLimits mb) s = .next (finishCmd mb St.ok
      [3300, s.pcm.hostCap, s.pcm.mgmtCap, s.target, 1200 + 3000 * 2 ^ 32, 72000 + 198000 * 2 ^ 32] s'))
  ∧ (∀ (s t : State) (mb : Fin 16), Holds s mb 0x0802 1 → 1200 ≤ argOf s mb 0 → argOf s mb 0 ≤ 3000 →
    t = { s with pcm := { s.pcm with hostCap := argOf s mb 0 } } →
    exec (.pwrSetCap mb) s = .next (finishCmd mb St.ok [t.target] t))
  ∧ (∀ (s t : State) (mb : Fin 16), Holds s mb 0x0803 3 → argOf s mb 2 = 0 →
    (argOf s mb 0 = 2 ^ 64 - 1 ∨ argOf s mb 0 < 2 ^ 48) → t = setAlign (argOf s mb 0) s →
    exec (.envDeclare mb) s = .next (finishCmd mb St.ok [] { t with pcm := { t.pcm with budgets := [], allowance := none } })
      ∧ (argOf s mb 0 < 2 ^ 48 → t.pcm.align = argOf s mb 0) ∧ (argOf s mb 0 = 2 ^ 64 - 1 → t = s))
  ∧ (∀ (s s' t : State) (mb : Fin 16) (r : List Byte) (n align : Nat), Holds s mb 0x0803 3 → n = argOf s mb 2 → 1 ≤ n →
    n ≤ 64 → (argOf s mb 0 = 2 ^ 64 - 1 ∧ align = s.pcm.align ∨ argOf s mb 0 < 2 ^ 48 ∧ align = argOf s mb 0) →
    RecordAt s s' (argOf s mb 1) (16 * n) 64 r → (∀ i, i < n → zeroAt r (16 * i + 12) 4 = true) →
    (∀ i, i + 1 < n → (budgetAt r i).1 < (budgetAt r (i + 1)).1) →
    (∀ i, i < n → 72000 ≤ (budgetAt r i).2 ∧ (budgetAt r i).2 ≤ 198000
      ∧ s'.pcm.ms + 2000 ≤ align + 60000 * (budgetAt r i).1) →
    t = setAlign (argOf s mb 0) s' →
    ∃ m, exec (.envDeclare mb) s = .next (finishCmd mb St.ok [] { t with pcm := { t.pcm with budgets := m } })
      ∧ (∀ i, i < n → SMap.lookup m (budgetAt r i).1 = some (budgetAt r i).2)
      ∧ (∀ k, (∀ i, i < n → k ≠ (budgetAt r i).1) → SMap.lookup m k = SMap.lookup t.pcm.budgets k))
  ∧ (∀ (s s' : State) (mb : Fin 16), Holds s mb 0x0804 1 → ReportAt s s' (argOf s mb 0) (envStatusBytes s) →
    exec (.envStatus mb) s = .next (finishCmd mb St.ok [] s'))
  ∧ (∀ (s : State) (mb : Fin 16), Holds s mb 0x0805 3 → 1 ≤ argOf s mb 1 → argOf s mb 0 + argOf s mb 1 ≤ 256 →
    40 ≤ argOf s mb 2 → argOf s mb 2 ≤ 86 →
    ∃ t n, exec (.tileFreqSet mb) s = .next (finishCmd mb St.ok [n] t)
      ∧ n = (((List.range (argOf s mb 1)).map (argOf s mb 0 + ·)).filter fun q => decide (s.ceiling q < argOf s mb 2)).length
      ∧ (∀ q, argOf s mb 0 ≤ q → q < argOf s mb 0 + argOf s mb 1 →
          t.tilePwr q = { s.tilePwr q with target := some (min (argOf s mb 2) (s.ceiling q)) })
      ∧ (∀ q, (q < argOf s mb 0 ∨ argOf s mb 0 + argOf s mb 1 ≤ q) → t.tilePwr q = s.tilePwr q)
      ∧ { t with pcm := { t.pcm with tiles := s.pcm.tiles } } = s)
  ∧ (∀ (s s' : State) (mb : Fin 16), Holds s mb 0x0806 1 →
    ReportAt s s' (argOf s mb 0) ((List.range 256).flatMap s.tileFreqBytes) →
    exec (.tileFreqGet mb) s = .next (finishCmd mb St.ok [] s'))
  ∧ (∀ (s : State) (mb : Fin 16), Holds s mb 0x0807 1 → argOf s mb 0 ≤ 3 → (argOf s mb 0 ≠ 0 → s.atWork = false) →
    s.pcm.sleepTo = none →
    exec (.sleepEnter mb) s = .next (finishCmd mb St.ok [] (if argOf s mb 0 = s.pcm.sstate then s
      else { s with pcm := { s.pcm with sleepTo := some (argOf s mb 0) } })))
  ∧ (∀ (s : State) (mb : Fin 16) (r : Nat), Holds s mb 0x0808 0 → s.pcm.calibrating = false → r < 12 →
    s.groupOf r ≠ none →
    exec (.pmbusCalibrate mb true) s = .next (finishCmd mb St.ok ((List.range 6).map s.gain)
      { s with pcm := { s.pcm with calibrating := true, measured := [], model := [] } }))
  ∧ (∀ (s s' : State) (mb : Fin 16), Holds s mb 0x0809 1 → ReportAt s s' (argOf s mb 0) (thermalBytes s) →
    exec (.thermalStatus mb) s = .next (finishCmd mb St.ok [] s'))

/-- Reports, field update, image recovery and debug (R604, R607 to R609, R613, R614, R616 to R618). -/
def Obligations.SecurityCommandsTakeEffect : Prop :=
  (∀ (s s' : State) (mb : Fin 16), Holds s mb 0x0901 1 →
    ReportAt s s' (argOf s mb 0) ((List.range 6).flatMap fun i => s.measure (i + 1)) →
    exec (.getMeasurements mb) s = .next (finishCmd mb St.ok [] s'))
  ∧ (∀ (s s' : State) (mb : Fin 16), Holds s mb 0x0902 2 → s.chain.length ≤ argOf s mb 1 →
    ReportAt s s' (argOf s mb 0) s.chain →
    exec (.getCertificate mb) s = .next (finishCmd mb St.ok [s.chain.length] s'))
  ∧ (∀ (s s' : State) (mb : Fin 16) (ms : Nat) (body : List Byte), Holds s mb 0x0903 6 → argOf s mb 4 ≠ 0 →
    argOf s mb 4 < 128 → (argOf s mb 4).testBit 0 = false → ms ≤ 100 →
    body = attestBody (argOf s mb 4) ((List.range 4).flatMap fun i => natLe 8 (argOf s mb i)) s →
    ReportAt s.draw.2 s' (argOf s mb 5) (body ++ Config.signature 1 s.draw.1 body) →
    exec (.attestSign mb ms) s = .next (finishCmd mb St.ok [(body ++ Config.signature 1 s.draw.1 body).length] s'))
  ∧ (∀ (s s' : State) (mb : Fin 16), Holds s mb 0x0904 1 → ReportAt s s' (argOf s mb 0) s.sec.record →
    exec (.configRecordRead mb) s = .next (finishCmd mb St.ok [s.sec.record.length] s'))
  ∧ (∀ (s s' : State) (mb : Fin 16) (r : List Byte), Holds s mb 0x0905 2 → imageLengthOk (argOf s mb 1) = true →
    RecordAt s s' (argOf s mb 0) (argOf s mb 1) 64 r → argOf s mb 1 = 4096 + bodyLength (r.take 4096) →
    imageFault (r.take 4096) (r.drop 4096) s'.sec.record true = none →
    exec (.fwImageStage mb true) s = .next (finishCmd mb St.ok [fieldAt (r.take 4096) 8 4, fieldAt (r.take 4096) 20 4]
      { s' with sec := { s'.sec with staged := some r } }))
  ∧ (∀ (s : State) (mb : Fin 16) (img : List Byte), Holds s mb 0x0906 0 → s.sec.staged = some img →
    s.runningChans = [] → s.spine.running = false → s.rse.window ≠ 1 → s.rse.window ≠ 2 →
    exec (.fwImageActivate mb img) s = .next (finishCmd mb St.ok [] { s with
      flash := Mem.writeN s.flash imageOffset img, sys := { s.sys with devPending := true } }))
  ∧ (∀ (s t : State) (mb : Fin 16) (img read : List Byte), Holds s mb 0x0906 0 → s.sec.staged = some img → read ≠ img →
    s.runningChans = [] → s.spine.running = false → s.rse.window ≠ 1 → s.rse.window ≠ 2 →
    t = raiseCause Cause.security { s with flash := Mem.writeN s.flash imageOffset (read.take img.length) } → Calm t →
    exec (.fwImageActivate mb read) s = .next (finishCmd mb St.signature [] t))
  ∧ (∀ (s s' t : State) (mb : Fin 16) (a : Nat) (r : List Byte), Holds s mb 0x0907 3 → argOf s mb 0 = 0 →
    s.sec.recovery = true → ptrOf (argOf s mb 1) = some (.host a) → imageLengthOk (argOf s mb 2) = true →
    RecordAt s s' (argOf s mb 1) (argOf s mb 2) 64 r → r.length = 4096 + bodyLength (r.take 4096) →
    imageFault (r.take 4096) (r.drop 4096) s'.sec.record true = none →
    t = { s' with flash := Mem.writeN s'.flash imageOffset r } →
    exec (.imagePush mb true) s = .next (finishCmd mb St.ok [] { t with
      sec := t.sec.cleared, sys := { t.sys with bootStep := 1, ready := false } }))
  ∧ (∀ (s s' : State) (mb : Fin 16) (a : Nat) (r : List Byte) (sigValid : Bool), Holds s mb 0x0907 3 → argOf s mb 0 = 1 →
    s.sec.recovery = true → ptrOf (argOf s mb 1) = some (.host a) → 4052 + 65536 ≤ argOf s mb 2 → argOf s mb 2 ≤ 131072 →
    RecordAt s s' (argOf s mb 1) (argOf s mb 2) 64 r →
    (∀ t, pushRecord r sigValid s' = .ok [] t → exec (.imagePush mb sigValid) s = .next (finishCmd mb St.ok [] t))
      ∧ (∀ e, pushRecord r sigValid s' = .fail e → exec (.imagePush mb sigValid) s = .next (finishCmd mb e [] s)))
  ∧ (∀ (s : State) (mb : Fin 16) (nonce : List Byte), Holds s mb 0x0908 0 → s.debugPermitted = true →
    nonce = (List.range 32).map (Config.random s.draw.1) →
    exec (.debugChallenge mb) s = .next (finishCmd mb St.ok
      ((List.range 4).map (fun i => fieldAt nonce (8 * i) 8) ++ [s.sec.deviceId.toNat])
      { s.draw.2 with sec := { s.draw.2.sec with nonce := some (nonce, s.pcm.us) } }))
  ∧ (∀ (s s' t : State) (mb : Fin 16) (r : List Byte), Holds s mb 0x0909 2 → s.debugPermitted = true →
    1 ≤ argOf s mb 0 → argOf s mb 0 ≤ 2 → s.nonceValid = true → RecordAt s s' (argOf s mb 1) 2420 64 r →
    t = openDebug (argOf s mb 0) s' →
    exec (.debugUnlock mb true) s = .next (finishCmd mb St.ok [] { t with sec := { t.sec with nonce := none } })
      ∧ t.sec.debug = argOf s mb 0)
  ∧ (∀ (s t : State) (mb : Fin 16), Holds s mb 0x090A 0 → t = closeDebug s →
    exec (.debugLock mb) s = .next (finishCmd mb St.ok [] t) ∧ t.sec.debug = 0
      ∧ { t with sec := { t.sec with debug := s.sec.debug }, hif := s.hif, out := s.out } = s)

/-- The control instructions of a tile thread (R100 to R106). -/
def Obligations.ControlInstructionsTakeEffect : Prop :=
  (∀ (s : State) (t : Fin 256) (th : Fin 8) (w : BitVec 128), Issues s t th w 0x00 (s.nextPc t th) →
    ∃ u, exec (.nop t th w) s = .next u
      ∧ Advanced s u t th { (s.tile t).thread th with pc := pcAt (s.nextPc t th) })
  ∧ (∀ (s : State) (t : Fin 256) (th : Fin 8) (w : BitVec 128),
    Issues s t th w 0x01 ((s.tile t).thread th).pc.toNat →
    ∃ u, exec (.endThread t th w) s = .next u
      ∧ Advanced s u t th { (s.tile t).thread th with st := .ended })
  ∧ (∀ (s : State) (t : Fin 256) (th : Fin 8) (w : BitVec 128) (h : Thread) (next : Int), h = (s.tile t).thread th →
    Ins.sel w ≤ 5 →
    next = (if branchCond (Ins.sel w) (h.reg (Ins.ga w)) (h.reg (Ins.gb w)) then s.branchPc t th w else s.nextPc t th) →
    Issues s t th w 0x02 next →
    ∃ u, exec (.br t th w) s = .next u ∧ Advanced s u t th { h with pc := pcAt next })
  ∧ (∀ (s : State) (t : Fin 256) (th : Fin 8) (w : BitVec 128) (h v : Thread) (next : Int), h = (s.tile t).thread th →
    v = h.setReg (Ins.ga w) (h.reg (Ins.ga w) - 1) →
    next = (if v.reg (Ins.ga w) ≠ 0 then s.branchPc t th w else s.nextPc t th) → Issues s t th w 0x03 next →
    ∃ u, exec (.loop t th w) s = .next u ∧ Advanced s u t th { v with pc := pcAt next })
  ∧ (∀ (s : State) (t : Fin 256) (th : Fin 8) (w : BitVec 128) (v : BitVec 32), v = (Ins.imm w).setWidth 32 →
    Issues s t th w 0x04 (s.nextPc t th) →
    ∃ u, exec (.waitev t th w) s = .next u
      ∧ Advanced s u t th (if evReached ((s.tile t).ec (Ins.ec w)) v
          then { (s.tile t).thread th with pc := pcAt (s.nextPc t th) }
          else { (s.tile t).thread th with
                  pc := pcAt (s.nextPc t th), st := .waitEvent, waitEc := Ins.ec w, waitVal := v }))
  ∧ (∀ (s : State) (t : Fin 256) (th : Fin 8) (w : BitVec 128), Issues s t th w 0x05 (s.nextPc t th) →
    (s.tile t).outstanding th (Ins.units w) = [] →
    ∃ u, exec (.sigev t th w) s = .next u
      ∧ (u.tile t).ec (Ins.ec w) = (s.tile t).ec (Ins.ec w) + 1
      ∧ (∀ n, n ≠ Ins.ec w → (u.tile t).ec n = (s.tile t).ec n)
      ∧ (∀ (q : Nat) (h : Thread), q < 8 →
          h = (if q = th then { (s.tile t).thread th with pc := pcAt (s.nextPc t th) } else (s.tile t).thread q) →
          (u.tile t).thread q = if h.st = .waitEvent ∧ evReached ((u.tile t).ec h.waitEc) h.waitVal = true
            then { h with st := .ready } else h)
      ∧ (∀ q : Nat, q ≠ t → u.tile q = s.tile q) ∧ { u with tiles := s.tiles } = s)
  ∧ (∀ (s : State) (t : Fin 256) (th : Fin 8) (w : BitVec 128) (l : NSet), Issues s t th w 0x05 (s.nextPc t th) →
    l = (s.tile t).outstanding th (Ins.units w) → l ≠ [] →
    ∃ u, exec (.sigev t th w) s = .next u
      ∧ (u.tile t).sigs = (s.tile t).sigs ++ [⟨Ins.ec w, l⟩] ∧ (u.tile t).ecs = (s.tile t).ecs
      ∧ (u.tile t).thread th = { (s.tile t).thread th with pc := pcAt (s.nextPc t th) }
      ∧ (∀ q : Nat, q ≠ t → u.tile q = s.tile q) ∧ { u with tiles := s.tiles } = s)
  ∧ (∀ (s : State) (t : Fin 256) (th : Fin 8) (w : BitVec 128) (v : BitVec 64),
    v = ((s.tile t).thread th).reg (Ins.ga w) + Ins.imm w → Issues s t th w 0x06 (s.nextPc t th) →
    ∃ u, exec (.tickwait t th w) s = .next u
      ∧ Advanced s u t th (if v.toNat ≤ s.spine.tick then { (s.tile t).thread th with pc := pcAt (s.nextPc t th) }
          else { (s.tile t).thread th with pc := pcAt (s.nextPc t th), st := .waitTick, waitTick := v }))
  ∧ (∀ (s : State) (t : Fin 256) (th : Fin 8) (h : Thread), h = (s.tile t).thread th → h.st = .waitTick →
    h.waitTick.toNat ≤ s.spine.tick →
    ∃ u, exec (.tickwaitExpiry t th) s = .next u ∧ (u.tile t).thread th = { h with st := .ready }
      ∧ (∀ q : Nat, q ≠ th → (u.tile t).thread q = (s.tile t).thread q)
      ∧ { u.tile t with threads := (s.tile t).threads } = s.tile t
      ∧ (∀ q : Nat, q ≠ t → u.tile q = s.tile q) ∧ { u with tiles := s.tiles } = s)

/-- The scalar instructions of a tile thread, reserved opcodes, and code lines (R93, R105, R106, R119, R127 to R131,
R134). -/
def Obligations.ScalarInstructionsTakeEffect : Prop :=
  (∀ (s : State) (t : Fin 256) (th : Fin 8) (w : BitVec 128), Issues s t th w 0x08 (s.nextPc t th) →
    ∃ u, exec (.smovi t th w) s = .next u
      ∧ Advanced s u t th { ((s.tile t).thread th).setReg (Ins.gd w) (Ins.imm w) with pc := pcAt (s.nextPc t th) })
  ∧ (∀ (s : State) (t : Fin 256) (th : Fin 8) (w : BitVec 128) (h : Thread) (b : BitVec 64), h = (s.tile t).thread th →
    b = (if Ins.useImm w then Ins.imm w else h.reg (Ins.gb w)) → Issues s t th w 0x09 (s.nextPc t th) →
    ∃ u, exec (.salu t th w) s = .next u
      ∧ Advanced s u t th { h.setReg (Ins.gd w) (saluResult (Ins.sel w) (h.reg (Ins.ga w)) b) with
          pc := pcAt (s.nextPc t th) })
  ∧ (∀ (s : State) (t : Fin 256) (th : Fin 8) (w : BitVec 128) (h : Thread) (a : Nat), h = (s.tile t).thread th →
    a = sldAddr h w → a % 8 = 0 → a + 8 ≤ 0x100000 → Issues s t th w 0x0A (s.nextPc t th) →
    (a / 64) ∉ (s.tile t).poison → (∀ e ∈ s.rse.inj, e.2.site ≠ 3) →
    ∃ u, exec (.sld t th w) s = .next u
      ∧ Advanced s u t th { h.setReg (Ins.gd w) (BitVec.ofNat 64 (leNat (Mem.readN (s.tile t).scratch a 8))) with
          pc := pcAt (s.nextPc t th) })
  ∧ (∀ (s v s' : State) (t : Fin 256) (th : Fin 8) (w : BitVec 128) (a : Nat) (f : Found) (x : Tile),
    a = sldAddr ((s.tile t).thread th) w → a % 8 = 0 → a + 8 ≤ 0x100000 → Issues s t th w 0x0A (s.nextPc t th) →
    v = goOn t th (s.nextPc t th) s → sramRead t [(a, 8)] v = (f, x, s') → f ≠ .good →
    Calm (reportFound t th false f s') →
    exec (.sld t th w) s = .next (reportFound t th false f s'))
  ∧ (∀ (s : State) (t : Fin 256) (th : Fin 8) (w : BitVec 128) (h : Thread) (a : Nat), h = (s.tile t).thread th →
    a = sldAddr h w → a % 8 = 0 → a + 8 ≤ 0x100000 → Issues s t th w 0x0B (s.nextPc t th) →
    ∃ u, exec (.sst t th w) s = .next u
      ∧ (∀ x, x < a ∨ a + 8 ≤ x → Mem.get (u.tile t).scratch x = Mem.get (s.tile t).scratch x)
      ∧ Mem.readN (u.tile t).scratch a 8 = natLe 8 (h.reg (Ins.gd w)).toNat
      ∧ (u.tile t).thread th = { h with pc := pcAt (s.nextPc t th) }
      ∧ { u.tile t with
          scratch := (s.tile t).scratch, threads := (s.tile t).threads, ctrs := (s.tile t).ctrs
          lastTh := (s.tile t).lastTh } = s.tile t
      ∧ (∀ q : Nat, q ≠ t → u.tile q = s.tile q) ∧ { u with tiles := s.tiles } = s)
  ∧ (∀ (s u : State) (t : Fin 256) (th : Fin 8) (w : BitVec 128), s.atInsn t th w = true → insListed (Ins.op w) = false →
    u = tileFault t th 1 ((s.tile t).thread th).pc (Ins.op w) St.ok s →
    ∃ v, exec (.reservedOpcode t th w) s = .next v ∧ done u = .next v ∧ (Calm u → v = u)
      ∧ ((u.tile t).thread th).st = .faulted
      ∧ ((s.tile t).faultInfo.getLsbD 7 = true → (u.tile t).faultInfo = (s.tile t).faultInfo)
      ∧ ((s.tile t).faultInfo.getLsbD 7 = false → (u.tile t).faultInfo = BitVec.ofNat 64
          (1 + th * 2 ^ 4 + 2 ^ 7 + ((s.tile t).thread th).pc.toNat * 2 ^ 8 + Ins.op w * 2 ^ 40)))
  ∧ (∀ (s : State) (t : Fin 256) (cause : Nat),
    ((∃ q ∈ (s.tile t).queue 0, s.drainWaits t q = true ∨ q.ran = false ∧ Ins.op q.word = 0x13) → cause = 5) →
    ((∀ q ∈ (s.tile t).queue 0, s.drainWaits t q = false ∧ (q.ran = true ∨ Ins.op q.word ≠ 0x13)) → cause = 4) →
    ∃ u, exec (.freezeLong t) s = .next u ∧ { u.tile t with ctrs := (s.tile t).ctrs } = s.tile t
      ∧ (u.tile t).ctrs = Ctrs.sat (Ctrs.sat (s.tile t).ctrs 6 1) cause (2 ^ 20)
      ∧ (∀ q : Nat, q ≠ t → u.tile q = s.tile q) ∧ { u with tiles := s.tiles } = s)
  ∧ (∀ (s s' : State) (t : Fin 256) (th : Fin 8) (c : Nat) (x : Chan) (hd : Header) (h : Thread) (line : Nat)
      (b : List Byte), s.tileRun t = some (c, x, hd) → h = (s.tile t).thread th → h.st = .ready →
    line = h.pc.toNat / 256 → SMap.lookup (s.tile t).icache (h.pc.toNat / 16) = none → line ∉ (s.tile t).badLines →
    h.pc.toNat < hd.codeLength →
    tileLine t (2 * th) x.part (x.program + hd.codeOffset + 256 * line) (min 256 (hd.codeLength - 256 * line)) s
      = .data b false s' → Calm s' →
    exec (.codeLineFetch t th) s = .next (s'.modTile t (fillCode line b)))

/-- The matrix array's and the vector engine's instructions (R69, R96, R98, R99, R107, R111, R121 to R123, R148, R151,
R152, R175). -/
def Obligations.ArrayAndVectorInstructionsTakeEffect : Prop :=
  (∀ (s : State) (t : Fin 256) (th : Fin 8) (w : BitVec 128) (conv : Bool) (i : Instr) (op : Nat) (h : Thread),
    (conv = false ∧ i = .mma t th w ∧ op = 0x10 ∨ conv = true ∧ i = .mconv t th w ∧ op = 0x11) →
    h = (s.tile t).thread th → IssuesTo s t th w op 0 (mmaTiles w) (mmaTiles w) → mmaKind conv (s.tile t) th w = 0 →
    (s.tile t).queue 0 = [] → (s.tile t).queue 2 = [] → s.rse.inj = [] → (s.tile t).poison = [] →
    ∃ u q o, exec i s = .next u
      ∧ (∀ j r c, j < (shapeDims (Mx.shape w)).2.2 → r < 128 → c < 128 →
          SMap.getD (u.tile t).acc (16384 * (Mx.acc w + j) + 128 * r + c) 0
            = match shapeInv (Mx.shape w) j r c with
              | some p => (List.range (groupCount (Mx.k w))).foldl (fun v g => groupAdd (if g = 0 ∧ Mx.zero w then 0 else v)
                  ((mmaGroupA conv (s.tile t).scratch w (mmaA h w % 2 ^ 64) g).getD p.1 [])
                  ((mmaGroupB (s.tile t).scratch w (mmaB h w % 2 ^ 64) g).getD p.2 []))
                  (SMap.getD (s.tile t).acc (16384 * (Mx.acc w + j) + 128 * r + c) 0)
              | none => SMap.getD (s.tile t).acc (16384 * (Mx.acc w + j) + 128 * r + c) 0)
      ∧ (∀ k, (k < 16384 * Mx.acc w ∨ 16384 * (Mx.acc w + (shapeDims (Mx.shape w)).2.2) ≤ k) →
          SMap.getD (u.tile t).acc k 0 = SMap.getD (s.tile t).acc k 0)
      ∧ (u.tile t).queue 0 = [q] ∧ q.th = (th : Nat) ∧ q.word = w ∧ q.reads = mmaTiles w ∧ q.writes = mmaTiles w ∧ q.ran = true
      ∧ (∀ a ∈ mmaTiles w, SMap.lookup (u.tile t).owner a = some (th : Nat))
      ∧ (∀ a, a ∉ mmaTiles w → SMap.lookup (u.tile t).owner a = SMap.lookup (s.tile t).owner a)
      ∧ (u.tile t).thread th
          = { h with pc := pcAt (s.nextPc t th), flags := h.flags ||| BitVec.ofNat 5 (2 * Bool.toNat o) }
      ∧ (∀ q : Nat, q ≠ th → (u.tile t).thread q = (s.tile t).thread q)
      ∧ (u.tile t).scratch = (s.tile t).scratch ∧ (u.tile t).wgb = (s.tile t).wgb
      ∧ (∀ q : Nat, q ≠ t → u.tile q = s.tile q) ∧ { u with tiles := s.tiles } = s)
  ∧ (∀ (s : State) (t : Fin 256) (th : Fin 8) (w : BitVec 128), IssuesTo s t th w 0x12 0 [] (mzeroTiles w) →
    (s.tile t).ownedByOther th (mzeroTiles w) = false → (s.tile t).queue 0 = [] → (s.tile t).queue 2 = [] →
    ∃ u, exec (.mzero t th w) s = .next u
      ∧ (∀ k, k / 16384 ∈ mzeroTiles w → SMap.getD (u.tile t).acc k 0 = 0)
      ∧ (∀ k, k / 16384 ∉ mzeroTiles w → SMap.getD (u.tile t).acc k 0 = SMap.getD (s.tile t).acc k 0)
      ∧ (∀ a ∈ mzeroTiles w, SMap.lookup (u.tile t).owner a = some (th : Nat))
      ∧ (∀ a, a ∉ mzeroTiles w → SMap.lookup (u.tile t).owner a = SMap.lookup (s.tile t).owner a)
      ∧ (u.tile t).thread th = { (s.tile t).thread th with pc := pcAt (s.nextPc t th) }
      ∧ (∀ q : Nat, q ≠ t → u.tile q = s.tile q) ∧ { u with tiles := s.tiles } = s)
  ∧ (∀ (s : State) (t : Fin 256) (th : Fin 8) (w : BitVec 128) (d : Nat), d = drainAddr ((s.tile t).thread th) w →
    IssuesTo s t th w 0x13 0 [Dr.acc w] (drainWrites w) → drainKind (s.tile t) th w = 0 → Dr.dest w = 0 →
    (s.tile t).queue 0 = [] → (s.tile t).queue 2 = [] → (∀ e ∈ s.rse.inj, e.2.site ≠ 4) →
    ∃ u, exec (.mdrain t th w) s = .next u
      ∧ (∀ r c, r < 128 → c < 128 → Mem.readN (u.tile t).scratch (d + 64 * Dr.dstride w * r + 4 * c) 4
          = natLe 4 (SMap.getD (s.tile t).acc (16384 * Dr.acc w + 128 * r + c) 0).toNat)
      ∧ (∀ k, k / 16384 = Dr.acc w → Dr.release w = true → SMap.getD (u.tile t).acc k 0 = 0)
      ∧ (∀ k, (k / 16384 ≠ Dr.acc w ∨ Dr.release w = false) →
          SMap.getD (u.tile t).acc k 0 = SMap.getD (s.tile t).acc k 0)
      ∧ (Dr.release w = true → SMap.lookup (u.tile t).owner (Dr.acc w) = none)
      ∧ (∀ q : Nat, q ≠ t → u.tile q = s.tile q) ∧ { u with tiles := s.tiles } = s)
  ∧ (∀ (s v : State) (t : Fin 256) (th : Fin 8) (w : BitVec 128) (h : Thread) (d : Nat), h = (s.tile t).thread th →
    d = drainAddr h w → IssuesTo s t th w 0x13 0 [Dr.acc w] (drainWrites w) → drainKind (s.tile t) th w = 0 →
    (Dr.dest w = 2 ∨ Dr.dest w = 3) → (s.tile t).queue 0 = [] → (s.tile t).queue 2 = [] →
    v = drainAll t th (d % 2 ^ 64) w (enqueueInsn t 0 (queued th h.pc w (BitVec.ofNat 64 d) 0 [Dr.acc w] (drainWrites w)
      0 152 false) (goOn t th (s.nextPc t th) s)) → Calm v →
    exec (.mdrain t th w) s = .next (v.modTile t fun x => x.markRan 0 (s.tile t).nextId (arrayStreams w)))
  ∧ (∀ (s s1 u : State) (t : Fin 256) (th : Fin 8) (w : BitVec 128) (i : Instr) (h : Thread) (op : Nat) (own rd wr : List Nat)
      (b x : BitVec 64) (n cy : Nat),
    h = (s.tile t).thread th → IssuesTo s t th w op 0 rd wr →
    (op = 0x10 ∧ i = .mma t th w ∧ mmaKind false (s.tile t) th w = 0 ∨ op = 0x11 ∧ i = .mconv t th w
        ∧ mmaKind true (s.tile t) th w = 0) ∧ own = mmaTiles w ∧ rd = mmaTiles w ∧ wr = mmaTiles w ∧ b = BitVec.ofNat 64 (mmaA h w)
        ∧ x = BitVec.ofNat 64 (mmaB h w) ∧ n = (shapeDims (Mx.shape w)).2.2
        ∧ cy = mmaCycles w + (if ((s.tile t).queue 0).isEmpty then 24 else 0)
      ∨ op = 0x12 ∧ i = .mzero t th w ∧ (s.tile t).ownedByOther th (mzeroTiles w) = false ∧ own = mzeroTiles w ∧ rd = []
        ∧ wr = mzeroTiles w ∧ b = 0 ∧ x = 0 ∧ n = 0 ∧ cy = 0
      ∨ op = 0x13 ∧ i = .mdrain t th w ∧ drainKind (s.tile t) th w = 0 ∧ own = [] ∧ rd = [Dr.acc w] ∧ wr = drainWrites w
        ∧ b = BitVec.ofNat 64 (drainAddr h w) ∧ x = 0 ∧ n = 0 ∧ cy = 152 →
    s1 = enqueueInsn t 0 (queued th h.pc w b x rd wr n cy false)
      ((goOn t th (s.nextPc t th) s).modTile t fun y => y.own th own) →
    u = headArray t 4 s1 → Calm u →
    exec i s = .next u ∧ (s1.arrayNext t = none → u = s1)
      ∧ (op = 0x13 → Dr.dest w = 1 → (∀ q ∈ (s.tile t).queue 0, q.ran = true) → u = s1))
  ∧ (∀ (s : State) (t : Fin 256) (th : Fin 8) (w : BitVec 128) (a : Nat) (d : List Byte) (rd wr : List Nat),
    a = chainAddrOf ((s.tile t).thread th) w → a % 64 = 0 → a + 256 ≤ 0x100000 →
    d = Mem.readN (s.tile t).scratch a 256 → rd = (if usesAcc d then chainTiles d else []) →
    wr = (if usesTarget3 d || (usesAcc d && Cd.accRel d) then chainTiles d else []) → IssuesTo s t th w 0x30 1 rd wr →
    ∃ u q, exec (.vchain t th w) s = .next u ∧ (u.tile t).queue 1 = (s.tile t).queue 1 ++ [q] ∧ q.th = (th : Nat) ∧ q.word = w
      ∧ q.base = BitVec.ofNat 64 a ∧ q.extra = ((s.tile t).thread th).reg (Vc.og w) ∧ q.reads = rd ∧ q.writes = wr
      ∧ q.ran = false ∧ (u.tile t).thread th = { (s.tile t).thread th with pc := pcAt (s.nextPc t th) }
      ∧ { u.tile t with queues := (s.tile t).queues, nextId := (s.tile t).nextId, threads := (s.tile t).threads,
                        ctrs := (s.tile t).ctrs, lastTh := (s.tile t).lastTh } = s.tile t
      ∧ (u.tile t).lastTh = th
      ∧ (∀ q : Nat, q ≠ t → u.tile q = s.tile q) ∧ { u with tiles := s.tiles } = s)
  ∧ (∀ (s s' : State) (t : Fin 256) (q : QInstr) (qs : List QInstr) (d : List Byte) (x : Tile), Calm s →
    (s.tile t).queue 1 = q :: qs → q.ran = false → sramRead t [(q.base.toNat, 256)] s = (.good, x, s') →
    d = Mem.readN x.scratch q.base.toNat 256 → chainKind (s.tile t) q.th q.word d q.extra = 0 →
    (usesDrain d = false → Calm (runChain t q d none s') →
      exec (.vchainExecute t) s = .next (runChain t q d none s'))
    ∧ (∀ m, usesDrain d = true → s.drainFor t (Vc.slot q.word) = some m → Calm (runChain t q d (some m) s') →
      exec (.vchainExecute t) s = .next (runChain t q d (some m) s'))
    ∧ (usesDrain d = true → s.drainFor t (Vc.slot q.word) = none → exec (.vchainExecute t) s = .next s))

/-- The fetch engine: lists, lines, checks, requests and multicast (R106, R344 to R347, R350, R351, R355 to R360). -/
def Obligations.FetchEngineTakesEffect : Prop :=
  (∀ (s : State) (t : Fin 256) (th : Fin 8) (w : BitVec 128) (h : Thread), h = (s.tile t).thread th →
    IssuesTo s t th w 0x20 3 [] [] →
    ∃ u, exec (.desc t th w) s = .next u
      ∧ (u.tile t).lists th = (s.tile t).lists th
          ++ [⟨(s.tile t).nextId, h.pc, Ins.ec w, (h.reg (Ins.ga w) + Ins.imm w).toNat, Ins.count w, 0, [], false⟩]
      ∧ (∀ q : Nat, q ≠ th → (u.tile t).lists q = (s.tile t).lists q)
      ∧ (u.tile t).nextId = (s.tile t).nextId + 1
      ∧ (u.tile t).thread th = { h with pc := pcAt (s.nextPc t th) }
      ∧ (∀ q : Nat, q ≠ t → u.tile q = s.tile q) ∧ { u with tiles := s.tiles } = s)
  ∧ (∀ (s s' : State) (t : Fin 256) (th : Fin 8) (c : Nat) (x : Chan) (hd : Header) (l : DList) (n va : Nat)
      (b : List Byte), s.tileRun t = some (c, x, hd) → (s.tile t).runList th = some l → l.stopped = false →
    n = min 4 (l.count - l.next) → 1 ≤ n → (s.tile t).fetched th + n ≤ 32 → va = l.base + 64 * l.next →
    lowestOf ((boundFail x va (64 * n)).toList ++ (s.firstUnmapped x.part va (64 * n)).toList) = none →
    tileLine t (2 * th + 1) x.part va (64 * n) s = .data b false s' → Calm s' →
    ∃ u, exec (.descLineFetch t th) s = .next u
      ∧ u = s'.modTile t (fun y => y.modList th l.id fun (z : DList) => { z with
          next := z.next + n
          descs := z.descs ++ (List.range n).map fun i =>
            ⟨l.next + i, (b.drop (64 * i)).take 64, false, 0, 0, false, false, none⟩ }))
  ∧ (∀ (s u : State) (t : Fin 256) (th : Fin 8) (c : Nat) (x : Chan) (hd : Header) (l : DList) (d : Desc) (v : Nat),
    s.tileRun t = some (c, x, hd) → (s.tile t).headDesc th = some (l, d) → d.checked = false →
    checkDesc s x (l.base + 64 * d.idx) d.raw = (0, v) → Calm s →
    u = touchRanges x.part (descRanges x.relaxed d.raw)
      (s.modTile t fun y => y.modList th l.id fun l => l.modDesc d.idx fun d => { d with checked := true }) →
    exec (.descriptorCheck t th) s = .next u ∧ { u with tiles := s.tiles, ptu := s.ptu } = s)
  ∧ (∀ (s u : State) (t : Fin 256) (th : Fin 8) (c : Nat) (x : Chan) (hd : Header) (l : DList) (d : Desc) (k v : Nat),
    s.tileRun t = some (c, x, hd) → (s.tile t).headDesc th = some (l, d) → d.checked = false →
    checkDesc s x (l.base + 64 * d.idx) d.raw = (k, v) → k ≠ 0 →
    u = descFault t th l d.idx (DescF.kind d.raw) k v s →
    ∃ y, exec (.descriptorCheck t th) s = .next y ∧ done u = .next y ∧ (Calm u → y = u)
      ∧ ((u.tile t).thread th).st = .faulted)
  ∧ (∀ (s u : State) (t : Fin 256) (th : Fin 8) (k : Nat) (i : Instr) (l : DList) (d : Desc),
    (k = 1 ∧ i = .load t th ∨ k = 2 ∧ i = .store t th ∨ k = 3 ∧ i = .copy t th ∨ k = 6 ∧ i = .wgbUnload t th
      ∨ k = 7 ∧ i = .wgbLoad t th ∨ k = 8 ∧ i = .atomic t th) →
    s.ready t th k = some (l, d) →
    u = issuePieces t th l d ((descPieces (s.tileRelaxed t) d.raw).drop d.issued) s → Calm u → exec i s = .next u)
  ∧ (∀ (s u : State) (t : Fin 256) (th : Fin 8) (l : DList) (d : Desc), s.ready t th 4 = some (l, d) → d.opened = true →
    u = issuePieces t th l d ((descPieces (s.tileRelaxed t) d.raw).drop d.issued) s → Calm u →
    exec (.mcast t th) s = .next u)
  ∧ (∀ (s : State) (t : Fin 256) (th : Fin 8) (l : DList) (d : Desc), s.ready t th 4 = some (l, d) → d.opened = false →
    Calm s →
    exec (.mcast t th) s = .next (s.tfeCtr t fun c => Ctrs.sat c 4 1))
  ∧ (∀ (s : State) (t : Fin 256) (th : Fin 8) (c : Nat) (x : Chan) (hd : Header) (l : DList) (d : Desc),
    s.tileRun t = some (c, x, hd) → s.ready t th 4 = some (l, d) → Calm s →
    (∀ k ∈ mcastRanks d.raw, ∃ v, s.recvOf x (DescF.mtag d.raw) k = some v ∧ v.2.rows = DescF.rows d.raw
      ∧ v.2.rowBytes = DescF.rowBytes d.raw) →
    exec (.mcastStart t th) s = .next (s.modTile t fun y => y.modList th l.id fun l => l.modDesc d.idx fun d =>
      { d with opened := true }))
  ∧ (∀ (s : State) (t : Fin 256) (th : Fin 8) (l : DList) (d : Desc), s.ready t th 5 = some (l, d) → Calm s →
    ∃ u, exec (.mrecv t th) s = .next u
      ∧ (u.tile t).recvs = (s.tile t).recvs ++ [⟨th, l.id, d.idx, DescF.mtag d.raw, DescF.rows d.raw, DescF.rowBytes d.raw,
          DescF.laddr d.raw, DescF.lstride d.raw, DescF.rows d.raw * DescF.rowBytes d.raw⟩]
      ∧ { u.tile t with recvs := (s.tile t).recvs, ctxs := (s.tile t).ctxs } = s.tile t
      ∧ (∀ q : Nat, q ≠ t → u.tile q = s.tile q) ∧ { u with tiles := s.tiles } = s)
  ∧ (∀ (s s1 u : State) (t : Fin 256) (n : Nat) (r : Req) (d : List Byte) (m : BitVec 64),
    SMap.lookup (s.tile t).reqs n = some r → s.reqDesc t r = some d → s.reqReady t n r = true →
    fabricCross (if r.sent then [] else reqPath t r) s = (none, m, s1) →
    u = dropInPlace (pageKey (s.tilePart t) r.va) (moveReq t n r d m s1) → Calm u →
    exec (.requestComplete t n) s = .next u)
  ∧ (∀ (s s1 : State) (t : Fin 256) (n k : Nat) (r : Req) (d : List Byte) (m : BitVec 64),
    SMap.lookup (s.tile t).reqs n = some r → s.reqDesc t r = some d → s.reqReady t n r = true →
    fabricCross (if r.sent then [] else reqPath t r) s = (some k, m, s1) → Calm (fabricFault k s1) →
    exec (.requestComplete t n) s = .next (fabricFault k s1))

/-- The regulators, line requests, hot banks and the stacks' scrub results (R266, R272, R277, R296, R297). -/
def Obligations.MemoryEventsTakeEffect : Prop :=
  (∀ s : State, ∃ t, exec .prgBucketRefill s = .next t
    ∧ (∀ c p, c < 20 → p < 4 →
        SMap.getD t.mem.floorB (4 * c + p) 0
          = min (SMap.getD s.mem.floorB (4 * c + p) 0 + 5 * (s.mem.reg p).floor) ((s.mem.reg p).burst * 1024)
        ∧ SMap.getD t.mem.ceilB (4 * c + p) 0
          = min (SMap.getD s.mem.ceilB (4 * c + p) 0 + 5 * (s.mem.reg p).ceil) ((s.mem.reg p).burst * 1024))
    ∧ { t with mem := { t.mem with floorB := s.mem.floorB, ceilB := s.mem.ceilB } } = s)
  ∧ (∀ (s s1 u v : State) (c : Fin 20) (p step : Nat) (q : Ticket) (r : Req) (d : List Byte) (dmg : BitVec 64),
    s.mem.freeSlot c = false → s.mem.grantee c = some (p, step) → s.mem.waiting c p = some q →
    SMap.lookup (s.tile q.tile).reqs q.req = some r → s.reqDesc q.tile r = some d →
    fabricCross (grantPath q r) { s with mem := countSlot c (some p) (s.mem.freeStep c) } = (none, dmg, s1) →
    v = grantTicket c p step q s1 → u = serveTicket q r d dmg v → Calm u →
    exec (.regulatorGrant c) s = .next u
      ∧ SMap.getD v.mem.ingress (4 * c + p) [] = (SMap.getD s.mem.ingress (4 * c + p) []).drop 1
      ∧ (∀ k, k ≠ 4 * c + p → SMap.getD v.mem.ingress k [] = SMap.getD s.mem.ingress k [])
      ∧ SMap.getD v.mem.bankQ q.bank [] = dropServed (SMap.getD s.mem.bankQ q.bank [] ++ [q])
      ∧ (∀ k, k ≠ q.bank → SMap.getD v.mem.bankQ k [] = SMap.getD s.mem.bankQ k [])
      ∧ SMap.getD v.mem.floorB (4 * c + p) 0 = SMap.getD s.mem.floorB (4 * c + p) 0 - q.cost
      ∧ SMap.getD v.mem.ceilB (4 * c + p) 0 = SMap.getD s.mem.ceilB (4 * c + p) 0 - q.cost
      ∧ SMap.lookup (v.tile q.tile).reqs q.req = some { r with granted := true }
      ∧ { v with mem := s1.mem, tiles := s1.tiles } = s1)
  ∧ (∀ (s s1 : State) (c : Fin 20) (p step die : Nat) (q : Ticket) (r : Req) (d : List Byte) (dmg : BitVec 64),
    s.mem.freeSlot c = false → s.mem.grantee c = some (p, step) → s.mem.waiting c p = some q →
    SMap.lookup (s.tile q.tile).reqs q.req = some r → s.reqDesc q.tile r = some d →
    fabricCross (grantPath q r) { s with mem := countSlot c (some p) (s.mem.freeStep c) } = (some die, dmg, s1) →
    Calm (fabricFault die s1) → exec (.regulatorGrant c) s = .next (fabricFault die s1))
  ∧ (∀ (s : State) (c : Fin 20), s.mem.freeSlot c = true ∨ s.mem.grantee c = none →
    ∃ t, exec (.regulatorGrant c) s = .next t
      ∧ (s.mem.freeSlot c = true → SMap.lookup t.mem.freeWait c = some 64)
      ∧ (∀ k, k ≠ (c : Nat) → SMap.lookup t.mem.freeWait k = SMap.lookup s.mem.freeWait k)
      ∧ { t with mem := { t.mem with prg := s.mem.prg, freeWait := s.mem.freeWait } } = s)
  ∧ (∀ (s : State) (pa : BitVec 40) (len : Nat) (data : List Byte) (bad : Bool) (x : LineReport), x.tracker = false →
    s.lineOk pa.toNat data.length = true →
    ∃ t, exec (.writeOrRead true pa len data ⟨bad, x⟩) s = .next t
      ∧ Mem.readN t.mem.bytes pa.toNat data.length = data
      ∧ (∀ a, (a < pa.toNat ∨ pa.toNat + data.length ≤ a) → Mem.get t.mem.bytes a = Mem.get s.mem.bytes a)
      ∧ { t with mem := s.mem, rse := s.rse, hif := s.hif, out := s.out } = taintPa pa.toNat data.length s)
  ∧ (∀ (s : State) (pa : BitVec 40) (len : Nat) (data : List Byte) (bad : Bool) (x : LineReport), x.tracker = false →
    s.lineOk pa.toNat len = true → Healthy s pa.toNat len →
    (s.reachesStack pa.toNat = false ∨ lineUncorrected x pa.toNat len = []) →
    ∃ t, exec (.writeOrRead false pa len data ⟨bad, x⟩) s = .next t
      ∧ t.out = s.out ++ [.line (Mem.readN s.mem.bytes pa.toNat len) []] ∧ t.mem.bytes = s.mem.bytes
      ∧ (s.reachesStack pa.toNat = true → Ctrs.get s.mem.ctrs 8 ≤ ctrMax →
          Ctrs.get t.mem.ctrs 8 = min (Ctrs.get s.mem.ctrs 8 + min x.fails 4) ctrMax)
      ∧ { t with mem := s.mem, out := s.out } = s)
  ∧ (∀ (s : State) (pa : BitVec 40) (len : Nat) (data : List Byte) (bad : Bool) (x : LineReport), x.tracker = false →
    s.lineOk pa.toNat len = true → Healthy s pa.toNat len → s.reachesStack pa.toNat = true →
    lineUncorrected x pa.toNat len ≠ [] →
    ∃ t, exec (.writeOrRead false pa len data ⟨bad, x⟩) s = .next t
      ∧ t.out.getLast? = some (.line (Mem.readN s.mem.bytes pa.toNat len)
          (markOffsets pa.toNat (NSet.addAll [] (lineUncorrected x pa.toNat len))))
      ∧ t.mem.bytes = s.mem.bytes ∧ { t with mem := s.mem, rse := s.rse, hif := s.hif, out := s.out } = s)
  ∧ (∀ (s : State) (pa : BitVec 40) (len : Nat) (data : List Byte) (write bad : Bool) (x : LineReport), x.tracker = true →
    s.lineOk pa.toNat (if write then data.length else len) = true →
    Calm (reportFault (ctrlRecord 0x04 St.uncorrectable pa.toNat) s) →
    exec (.writeOrRead write pa len data ⟨bad, x⟩) s = .next (reportFault (ctrlRecord 0x04 St.uncorrectable pa.toNat) s))
  ∧ (∀ (s : State) (bank : Fin 10240) (start peak : Nat) (part : Fin 4), s.mem.episodeOk bank peak part = true → start ≤ s.spine.tick →
    ∃ t, exec (.hotBankEpisode bank start peak part) s = .next t
      ∧ bank.val ∈ t.mem.hot ∧ SMap.lookup t.mem.lastHot part = some (bank.val, start)
      ∧ SMap.getD t.mem.hotLog (bank / 512) []
          = ((⟨bank, start, peak, part⟩ : HotRec) :: SMap.getD s.mem.hotLog (bank / 512) []).take 16
      ∧ t.mem.ctrs = Ctrs.sat s.mem.ctrs 9 1
      ∧ { t with mem := { t.mem with hot := s.mem.hot, lastHot := s.mem.lastHot, hotLog := s.mem.hotLog, ctrs := s.mem.ctrs } } = s)
  ∧ (∀ (s : State) (bank : Fin 10240), s.mem.depth bank < 256 →
    ∃ t, exec (.hotBankEpisodeEnd bank) s = .next t
      ∧ (∀ b, b ∈ t.mem.hot ↔ b ∈ s.mem.hot ∧ b ≠ bank.val)
      ∧ { t with mem := { t.mem with hot := s.mem.hot } } = s)
  ∧ (∀ (s : State) (errors : List Nat), s.mem.trained = true → Ctrs.get s.mem.ctrs 6 ≤ ctrMax →
    ∃ t, exec (.ecsResultRead errors) s = .next t
      ∧ Ctrs.get t.mem.ctrs 6 = min (Ctrs.get s.mem.ctrs 6 + (errors.take 20).foldl (· + ·) 0) ctrMax
      ∧ { t with mem := { t.mem with ctrs := s.mem.ctrs }, rse := s.rse } = s)

/-- Memory-side adds and maxima, fixed-point contributions and finalisation, and legacy atomics (R33, R36, R74 to R78,
R284 to R291). -/
def Obligations.MemorySideOperationsTakeEffect : Prop :=
  (∀ (s : State) (pa : BitVec 40) (data : List Byte), s.wordsOk pa.toNat data.length 4 = true →
    Healthy s (pa.toNat / 256 * 256) 256 →
    ∃ t, exec (.iadd32 pa data) s = .next t
      ∧ WordsMapped s t pa.toNat 4 (data.length / 4) (fun i old => (old + fieldAt data (4 * i) 4) % 2 ^ 32)
      ∧ { t with mem := s.mem } = taintPa pa.toNat data.length s)
  ∧ (∀ (s : State) (pa : BitVec 40) (data : List Byte), s.wordsOk pa.toNat data.length 8 = true →
    Healthy s (pa.toNat / 256 * 256) 256 →
    ∃ t, exec (.iadd64 pa data) s = .next t
      ∧ WordsMapped s t pa.toNat 8 (data.length / 8) (fun i old => (old + fieldAt data (8 * i) 8) % 2 ^ 64)
      ∧ { t with mem := s.mem } = taintPa pa.toNat data.length s)
  ∧ (∀ (s : State) (pa : BitVec 40) (data : List Byte), s.wordsOk pa.toNat data.length 4 = true →
    Healthy s (pa.toNat / 256 * 256) 256 →
    ∃ t, exec (.fmax32 pa data) s = .next t
      ∧ WordsMapped s t pa.toNat 4 (data.length / 4) (fun i old =>
          (max32 (BitVec.ofNat 32 old) (BitVec.ofNat 32 (fieldAt data (4 * i) 4))).toNat)
      ∧ { t with mem := s.mem } = taintPa pa.toNat data.length s)
  ∧ (∀ (s : State) (i : Instr) (wide : Bool) (w : Nat) (c : Fin 4096) (x : Chan) (pa : BitVec 40) (data : List Byte),
    (wide = true ∧ w = 4 ∧ i = .fadd32 c pa data ∨ wide = false ∧ w = 2 ∧ i = .faddbf16 c pa data) →
    s.chan c = some x → x.relaxed = true → s.wordsOk pa.toNat data.length w = true →
    s.mem.fxFind (pa.toNat / 2 ^ 16) = none → Healthy s (pa.toNat / 256 * 256) 256 →
    ∃ t, exec i s = .next t
      ∧ WordsMapped s t pa.toNat w (data.length / w) (fun i old => relaxedAdd wide (fieldAt data (w * i) w) old)
      ∧ t.chan c = some { x with nondet := true, nondetStep := true }
      ∧ (∀ k, k ≠ (c : Nat) → t.chan k = s.chan k) 
      ∧ { t with mem := s.mem, chans := s.chans } = taintPa pa.toNat data.length s)
  ∧ (∀ (s : State) (i : Instr) (wide : Bool) (w : Nat) (c : Fin 4096) (x : Chan) (pa : BitVec 40) (data : List Byte)
      (r b n : Nat),
    (wide = true ∧ w = 4 ∧ i = .fadd32 c pa data ∨ wide = false ∧ w = 2 ∧ i = .faddbf16 c pa data) →
    s.chan c = some x → x.relaxed = false → data.length = n * w → s.wordsOk pa.toNat (8 * n) 8 = true →
    s.mem.fxFind (pa.toNat / 2 ^ 16) = some (r, b) → Healthy s (pa.toNat / 256 * 256) 256 →
    ∃ t, exec i s = .next t
      ∧ WordsMapped s t pa.toNat 8 n (fun i old =>
          fxAdd (fxWord (s.mem.fxBlock r b).e ((contributions wide data).getD i (.fin false 0 0))).1 old)
      ∧ { t with mem := s.mem, num := s.num } = taintPa pa.toNat data.length s)
  ∧ (∀ (s : State) (i : Instr) (wide : Bool) (pa : BitVec 40) (r b : Nat),
    (wide = true ∧ i = .final32 pa ∨ wide = false ∧ i = .finalbf16 pa) → s.mem.trained = true →
    s.mem.selfRefresh = false → pa.toNat % 2 ^ 16 = 0 → s.mem.fxFind (pa.toNat / 2 ^ 16) = some (r, b) →
    Healthy s pa.toNat (2 ^ 16) →
    ∃ t, exec i s = .next t
      ∧ t.out = s.out ++ [.line ((List.range 8192).flatMap fun j =>
          (fxFinal wide (s.mem.fxBlock r b).e (leNat (Mem.readN s.mem.bytes (pa.toNat + 8 * j) 8))).1) []]
      ∧ (∀ a, pa.toNat ≤ a → a < pa.toNat + 2 ^ 16 → Mem.get t.mem.bytes a = 0)
      ∧ (∀ a, (a < pa.toNat ∨ pa.toNat + 2 ^ 16 ≤ a) → Mem.get t.mem.bytes a = Mem.get s.mem.bytes a)
      ∧ (∀ k, k < 20 → pa.toNat / 2 ^ 16 * 20 + k ∉ t.mem.written)
      ∧ { t with mem := s.mem, num := s.num, out := s.out } = s)
  ∧ (∀ (s s1 : State) (i : Instr) (c : Fin 4096) (x : Chan) (pa : BitVec 40) (wide : Bool) (code sel w v cmp old : Nat)
      (a b : BitVec 64) (sl : Fin 3) (hi : Bool),
    (code = 1 ∧ sel = 0 ∧ cmp = 0 ∧ i = .atomicIntAdd c pa wide a
      ∨ code = 2 ∧ sel = 0 ∧ cmp = 0 ∧ i = .atomicSwap c pa wide a
      ∨ code = 3 ∧ sel = 0 ∧ cmp = b.toNat % 2 ^ (8 * w) ∧ i = .atomicCompareAndSwap c pa wide a b
      ∨ code = 4 ∧ sel = sl.val ∧ cmp = 0 ∧ i = .atomicAndOrXor c pa wide sl a
      ∨ code = 5 ∧ sel = (if hi then 1 else 0) ∧ cmp = 0 ∧ i = .atomicMinMax c pa wide hi a
      ∨ code = 6 ∧ sel = 0 ∧ cmp = 0 ∧ wide = false ∧ i = .atomicFloatAdd c pa (a.setWidth 32)) →
    w = (if wide then 8 else 4) → v = a.toNat % 2 ^ (8 * w) →
    s.chan c = some x → s.wordsOk pa.toNat w w = true → s.mem.fxFind (pa.toNat / 2 ^ 16) = none →
    s.rse.inj = [] → (∀ e, SMap.lookup s.mem.shc (pa.toNat / 256) = some e → e.mask = 0) →
    s1 = (if (SMap.lookup s.mem.shc (pa.toNat / 256)).isNone then shcFill (pa.toNat / 256) x.part (taintPa pa.toNat w s)
      else shcTouch (pa.toNat / 256) id ((taintPa pa.toNat w s).memCtr fun c => Ctrs.wrap c 11 1)) →
    pa.toNat / 32 ∉ s1.mem.poison → old = leNat (Mem.readN s1.mem.bytes pa.toNat w) →
    ∃ t, exec i s = .next t ∧ t.out = s1.out ++ [.old (BitVec.ofNat 64 old)]
      ∧ Mem.readN t.mem.bytes pa.toNat w = natLe w (atomicResult code sel w old v cmp)
      ∧ (∀ q, (q < pa.toNat ∨ pa.toNat + w ≤ q) → Mem.get t.mem.bytes q = Mem.get s1.mem.bytes q)
      ∧ t.chan c = some { x with nondet := true, nondetStep := true } ∧ (∀ k, k ≠ (c : Nat) → t.chan k = s.chan k)
      ∧ { t with mem := s1.mem, chans := s1.chans, out := s1.out } = s1)

/-- The events of the page and tier unit: eviction, migration, far and host data, a lender's service and reclaim, and a
borrower's reclaim (R225, R313 to R334). -/
def Obligations.PagingEventsTakeEffect : Prop :=
  (∀ (s : State) (part : Fin 4) (k : Nat) (p : Page), s.pageLeaving = none →
    (s.accessWants part = true ∨ s.reclaimWants part = true) → s.takeFrame part 1 = none →
    s.oldest (s.evictable part 1) = some (k, p) → SMap.lookup s.ptu.pages k = some p →
    (∀ r, p.farcopy = true → p.far = some r →
      ∃ t, exec (.pageEviction part) s = .next t
        ∧ SMap.lookup t.ptu.pages k = some { p with
            tier := if r.host then 3 else 2, far := some r, farcopy := false, motion := false, frame := 0 }
        ∧ (∀ q, q ≠ k → SMap.lookup t.ptu.pages q = SMap.lookup s.ptu.pages q)
        ∧ Ctrs.get t.ptu.ctrs 15 = min (Ctrs.get s.ptu.ctrs 15 + 1) ctrMax
        ∧ { t with ptu := s.ptu, rse := s.rse } = s)
    ∧ (∀ r v, p.farcopy = false → placeOut (keyPart k) pageSize s = some (r, v) →
      ∃ t, exec (.pageEviction part) s = .next t
        ∧ SMap.lookup t.ptu.pages k = some { p with motion := true }
        ∧ (∀ q, q ≠ k → SMap.lookup t.ptu.pages q = SMap.lookup s.ptu.pages q)
        ∧ SMap.lookup t.ptu.xfers k = some ⟨.evict, p.frame, false, r, [], [], [], some r⟩
        ∧ (∀ q, q ≠ k → SMap.lookup t.ptu.xfers q = SMap.lookup s.ptu.xfers q)
        ∧ { t with ptu := { t.ptu with pages := s.ptu.pages, xfers := s.ptu.xfers, rr := s.ptu.rr } } = s))
  ∧ (∀ (s : State) (part : Fin 4) (k : Nat) (p : Page) (r : FarRef), s.pageLeaving = some (k, r) →
    (SMap.lookup s.ptu.xfers k).bind (·.dest) = some r → SMap.lookup s.ptu.pages k = some p →
    (s.placeUp r = false → exec (.pageEviction part) s = .next s)
    ∧ (s.placeUp r = true →
      ∃ t, exec (.pageEviction part) s = .next t
        ∧ SMap.lookup t.ptu.pages k = some { p with
            tier := if r.host then 3 else 2, far := some r, farcopy := false, motion := false, frame := 0 }
        ∧ (∀ q, q ≠ k → SMap.lookup t.ptu.pages q = SMap.lookup s.ptu.pages q)
        ∧ SMap.lookup t.ptu.xfers k = none ∧ t.mem.bytes = s.mem.bytes
        ∧ (∀ a, r.host = true → s.hostAddr ⟨true, r.who, 0, 0⟩ r.off = some a → Healthy s (p.frame * pageSize) pageSize →
          Mem.readN t.host a pageSize = Mem.readN s.mem.bytes (p.frame * pageSize) pageSize)))
  ∧ (∀ (s : State) (part : Fin 4) (vpn : Nat) (x : Xfer) (p : Page), SMap.lookup s.ptu.xfers (vpnKey part vpn) = some x →
    SMap.lookup s.ptu.pages (vpnKey part vpn) = some p → p.big = false → x.kind = .toLocal → 16 ≤ x.pieces.length →
    s.farWritten x.far = true → x.bad = [] →
    ∃ t, exec (.migrationComplete part vpn) s = .next t
      ∧ (∃ keep : Bool, (keep = true ↔ x.forWrite = false ∧ (x.far.host = true ∨ s.reclaiming x.far.who x.far.window = false))
        ∧ SMap.lookup t.ptu.pages (vpnKey part vpn) = some { p with
          tier := 1, frame := x.frame, motion := false, fixed := false, farcopy := keep
          far := if keep then some x.far else none })
      ∧ (∀ q, q ≠ vpnKey part vpn → SMap.lookup t.ptu.pages q = SMap.lookup s.ptu.pages q)
      ∧ SMap.lookup t.ptu.xfers (vpnKey part vpn) = none
      ∧ Mem.readN t.mem.bytes (x.frame * pageSize) pageSize = Mem.readN x.data 0 pageSize
      ∧ (∀ a, (a < x.frame * pageSize ∨ x.frame * pageSize + pageSize ≤ a) → Mem.get t.mem.bytes a = Mem.get s.mem.bytes a)
      ∧ Ctrs.get t.ptu.ctrs 14 = min (Ctrs.get s.ptu.ctrs 14 + 1) ctrMax)
  ∧ (∀ (s : State) (link : Fin 32) (part : Fin 4) (vpn : Nat) (piece : Fin 16) (data : List Byte) (bad : Bool) (x : Xfer),
    SMap.lookup s.ptu.xfers (vpnKey part vpn) = some x → x.far.host = false →
    link.val ∈ s.linkSet (s.lenderPos x.far.who) → data.length = 4096 →
    ∃ t y, exec (.farData link part vpn piece data bad) s = .next t
      ∧ SMap.lookup t.ptu.xfers (vpnKey part vpn) = some y
      ∧ (∀ i, i ∈ y.pieces ↔ i ∈ x.pieces ∨ i = piece.val)
      ∧ Mem.readN y.data (4096 * piece) 4096 = data
      ∧ (∀ a, (a < 4096 * piece.val ∨ 4096 * piece.val + 4096 ≤ a) → Mem.get y.data a = Mem.get x.data a)
      ∧ (∀ k, k ∈ y.bad ↔ if 128 * piece.val ≤ k ∧ k < 128 * piece.val + 128 then bad = true else k ∈ x.bad)
      ∧ { y with pieces := x.pieces, data := x.data, bad := x.bad } = x
      ∧ { t with ptu := { t.ptu with xfers := s.ptu.xfers } } = s)
  ∧ (∀ (s : State) (part : Fin 4) (vpn : Nat) (data : List Byte) (error poisoned : Bool) (x : Xfer),
    SMap.lookup s.ptu.xfers (vpnKey part vpn) = some x → x.far.host = true → s.hif.pcieWidth ≠ 0 → data.length = pageSize →
    ∃ t y, exec (.hostTierCompletion part vpn data error poisoned) s = .next t
      ∧ SMap.lookup t.ptu.xfers (vpnKey part vpn) = some y
      ∧ (∀ i, i < 16 → i ∈ y.pieces) ∧ Mem.readN y.data 0 pageSize = data
      ∧ (∀ k, k < 2048 → (k ∈ y.bad ↔ error = true ∨ poisoned = true))
      ∧ { t with ptu := { t.ptu with xfers := s.ptu.xfers }, rse := s.rse, hif := s.hif, out := s.out } = s
      ∧ (error = false → poisoned = false → t.rse = s.rse ∧ t.hif = s.hif))
  ∧ (∀ (s : State) (link : Fin 32) (window off len : Nat) (data : List Byte) (bad : Bool) (w : Lent),
    SMap.lookup s.ptu.lent window = some w → (s.link link).st = 3 → data ≠ [] → off + data.length ≤ w.size →
    w.reclaim = false → off % pageSize + data.length ≤ pageSize → chargeWindow w off data.length s ≠ none →
    ∃ t, exec (.farRequest link true window off len data bad) s = .next t
      ∧ Mem.readN t.mem.bytes (w.pa off) data.length = data
      ∧ (∀ a, (a < w.pa off ∨ w.pa off + data.length ≤ a) → Mem.get t.mem.bytes a = Mem.get s.mem.bytes a)
      ∧ SMap.lookup t.ptu.lent window = some { w with borrowers := NSet.insert w.borrowers (s.peerOf link) })
  ∧ (∀ (s : State) (link : Fin 32) (window off len : Nat) (data : List Byte) (bad : Bool) (w : Lent),
    SMap.lookup s.ptu.lent window = some w → (s.link link).st = 3 → s.links.isolated = false → 0 < len →
    off + len ≤ w.size → off % pageSize + len ≤ pageSize → chargeWindow w off len s ≠ none → Healthy s (w.pa off) len →
    ∃ t p, exec (.farRequest link false window off len data bad) s = .next t
      ∧ SMap.getD (t.link link).queues 3 [] = SMap.getD (s.link link).queues 3 [] ++ [p]
      ∧ p.data.take len = Mem.readN s.mem.bytes (w.pa off) len ∧ p.dstPos = s.peerOf link ∧ p.srcPos = s.myPos
      ∧ SMap.lookup t.ptu.lent window = some { w with
          borrowers := NSet.insert w.borrowers (s.peerOf link)
          waiting := if w.reclaim then NSet.insert w.waiting (s.peerOf link) else w.waiting }
      ∧ t.mem.bytes = s.mem.bytes)
  ∧ (∀ (s : State) (link : Fin 32) (write : Bool) (window off len : Nat) (data : List Byte) (bad : Bool) (w : Lent),
    SMap.lookup s.ptu.lent window = some w → chargeWindow w off (if write then data.length else len) s = none →
    ∃ t, exec (.farRequest link write window off len data bad) s = .next t
      ∧ { t with ptu := { t.ptu with lent := s.ptu.lent } } = s)
  ∧ (∀ (s : State) (borrower : Fin 1024) (window : Nat) (w : Lent), SMap.lookup s.ptu.lent window = some w →
    w.reclaim = true →
    ∃ t, exec (.reclaimDone borrower window) s = .next t
      ∧ ((∃ q, q ∈ w.waiting ∧ q ≠ borrower.val) →
          SMap.lookup t.ptu.lent window = some { w with waiting := NSet.erase w.waiting borrower })
      ∧ ((∀ q ∈ w.waiting, q = borrower.val) → SMap.lookup t.ptu.lent window = none
          ∧ ∀ f ∈ w.frames, ∀ a, f * pageSize ≤ a → a < f * pageSize + pageSize → Mem.get t.mem.bytes a = 0))
  ∧ (∀ (s : State) (lender window k : Nat) (p : Page), s.reclaiming lender window = false →
    s.windowPages lender window = [(k, p)] → SMap.lookup s.ptu.pages k = some p →
    (∀ x ∈ s.ptu.xfers, x.2.kind = .evict → ∀ r, x.2.dest = some r → r.inWindow lender window = false) →
    ∃ t, exec (.reclaimNotice lender window) s = .next t
      ∧ SMap.lookup t.ptu.pages k
          = some (if p.tier = 1 then { p with far := none, farcopy := false } else { p with motion := true })
      ∧ (∀ q, q ≠ k → SMap.lookup t.ptu.pages q = SMap.lookup s.ptu.pages q)
      ∧ (p.tier ≠ 1 → SMap.lookup t.ptu.reclaims (lender * 2 ^ 16 + window) = some ⟨s.pcm.ms⟩))
  ∧ (∀ (s : State) (lender window k : Nat) (p : Page) (x : Xfer) (r : FarRef), s.reclaiming lender window = false →
    s.windowPages lender window = [] → SMap.lookup s.ptu.pages k = some p → SMap.lookup s.ptu.xfers k = some x →
    x.kind = .evict → x.dest = some r → r.inWindow lender window = true →
    ∃ t, exec (.reclaimNotice lender window) s = .next t
      ∧ SMap.lookup t.ptu.pages k = some { p with motion := false } ∧ SMap.lookup t.ptu.xfers k = none)
  ∧ (∀ (s : State) (lender window k f : Nat) (p : Page) (r : FarRef) (data : List Byte), s.reclaiming lender window = true →
    s.nextBlock lender window = some (.page k p) → SMap.lookup s.ptu.pages k = some p → p.far = some r → p.big = false →
    placeFar (keyPart k) pageSize pageSize s = none → s.takeFrame (keyPart k) 1 = some f → s.copyWritten r 1 = true →
    data.length = pageSize → Quiet s → Calm s →
    ∃ t, exec (.reclaimBlockPlace lender window data false) s = .next t
      ∧ SMap.lookup t.ptu.pages k = some { p with
          tier := 1, frame := f, far := none, farcopy := false, motion := false }
      ∧ (∀ q, q ≠ k → SMap.lookup t.ptu.pages q = SMap.lookup s.ptu.pages q)
      ∧ Mem.readN t.mem.bytes (f * pageSize) pageSize = data
      ∧ (∀ a, (a < f * pageSize ∨ f * pageSize + pageSize ≤ a) → Mem.get t.mem.bytes a = Mem.get s.mem.bytes a))
  ∧ (∀ (s : State) (lender window : Nat) (data : List Byte) (bad : Bool), s.reclaiming lender window = true →
    s.windowPages lender window = [] → s.windowLeaves lender window = [] →
    (∀ x ∈ s.ptu.xfers, ∀ r, x.2.dest = some r → r.inWindow lender window = false) → Quiet s → Calm s →
    ∃ t, exec (.reclaimBlockPlace lender window data bad) s = .next t
      ∧ t.reclaiming lender window = false
      ∧ (∀ l ∈ t.ptu.lists, ∀ x ∈ l.2, ¬(x.pos = lender ∧ x.window = window))
      ∧ t.ptu.pages = s.ptu.pages ∧ t.mem = s.mem)
  ∧ (∀ (s : State) (lender window k : Nat) (p : Page) (r : Reclaim),
    SMap.lookup s.ptu.reclaims (lender * 2 ^ 16 + window) = some r → r.startMs + s.ptu.bound ≤ s.pcm.ms →
    s.windowPages lender window = [(k, p)] → s.windowLeaves lender window = [] → SMap.lookup s.ptu.pages k = some p →
    Quiet s → Calm s →
    ∃ t, exec (.reclaimBoundExpiry lender window) s = .next t
      ∧ SMap.lookup t.ptu.pages k = some { p with lost := true, motion := false, far := none, farcopy := false }
      ∧ (∀ q, q ≠ k → SMap.lookup t.ptu.pages q = SMap.lookup s.ptu.pages q)
      ∧ SMap.lookup t.ptu.xfers k = none ∧ t.mem = s.mem)

/-- The attention streamer's operations on keys, values and gradients (R201 to R211), the fault of a reserved kind (R196,
R200), and the completion of a unit's instruction (R96, R101). -/
def Obligations.AttentionOperationsTakeEffect : Prop :=
  (∀ (s : State) (t : Fin 256) (th : Fin 8) (w : BitVec 128) (d : List Byte) (x : Slot) (p : LeafPool),
    AttnRuns s t th w kAppend d x p → x.rotDims = 0 →
    ((List.range (At.nheads d)).map fun i => newLeaves (x.len (At.layer d) (At.head0 d + i)) (At.rows d)).sum ≤ p.freeCount →
    (∀ i n, i < At.nheads d → n = x.len (At.layer d) (At.head0 d + i) → n % 16 ≠ 0 →
      (x.leaf (x.leafIdx (At.layer d) (At.head0 d + i) (n / 16))).tier < 2) →
    ∃ u y, exec (.append t th w) s = .next u ∧ AttnLeft s u t th w true ∧ u.slot (At.slot w) = some y
      ∧ (∀ i, i < At.nheads d → y.len (At.layer d) (At.head0 d + i) = x.len (At.layer d) (At.head0 d + i) + At.rows d)
      ∧ (∀ k, k < x.track (At.layer d) (At.head0 d) ∨ x.track (At.layer d) (At.head0 d) + At.nheads d ≤ k →
          SMap.getD y.lens k 0 = SMap.getD x.lens k 0)
      ∧ SMap.lookup y.stalls t = none ∧ (∀ k : Nat, k ≠ t → SMap.lookup y.stalls k = SMap.lookup x.stalls k))
  ∧ (∀ (s : State) (t : Fin 256) (th : Fin 8) (w : BitVec 128) (d : List Byte) (x : Slot) (p : LeafPool) (h : Nat),
    AttnRuns s t th w kAppend d x p → SMap.lookup x.stalls t = none →
    firstShort x (At.layer d) (At.rows d) ((List.range (At.nheads d)).map (· + At.head0 d)) p.freeCount = some h →
    ∃ u y, exec (.append t th w) s = .next u ∧ AttnLeft s u t th w false ∧ u.slot (At.slot w) = some y
      ∧ { y with leaves := x.leaves } = { x.usedBy (s.tile t).chan with
          stalls := SMap.put x.stalls t (s.spine.tick, At.layer d, h, x.len (At.layer d) h) }
      ∧ Ctrs.get u.leafs.ctrs 1 = min (Ctrs.get s.leafs.ctrs 1 + 1) ctrMax)
  ∧ (∀ (s : State) (t : Fin 256) (th : Fin 8) (w : BitVec 128) (d : List Byte) (x : Slot) (p : LeafPool)
      (ks : List (Option Key)) (row : Nat → SoftRow),
    AttnRuns s t th w kFwd d x p → x.rotDims = 0 → At.src d = 0 → (∀ e ∈ s.leafs.evicting, e.1 ≠ At.slot w) →
    (∀ i ∈ namedLeaves d x [At.head0 d], (x.leaf i).tier < 2) →
    (KeySrc.keys ⟨At.slot w, p, x, At.layer d, At.head0 d, none⟩ (At.firstLeaf d) (At.nleaves d) s).1 = ks →
    (KeySrc.keys ⟨At.slot w, p, x, At.layer d, At.head0 d, none⟩ (At.firstLeaf d) (At.nleaves d) s).2.1 = false →
    (∀ r, row r = (keyBlocks ks).foldl (fun y b =>
        foldRow d ((queries x [] (s.tile t).scratch d p.hd).getD r []) (rowKeys d r b) y)
      (if At.first d then ⟨negInf32, 0, List.replicate p.hd 0⟩
        else ⟨(s.tile t).vlane (At.vm d) r, (s.tile t).vlane (At.vl d) r, outRow (s.tile t).acc (At.acc d) r p.hd⟩)) →
    ∃ u, exec (.fwd t th w) s = .next u ∧ AttnLeft s u t th w true
      ∧ ∀ r, r < At.rows d → (u.tile t).vlane (At.vl d) r = (row r).l
        ∧ (At.vm d ≠ At.vl d → (u.tile t).vlane (At.vm d) r = (row r).m)
        ∧ ∀ i, i < p.hd → SMap.getD (u.tile t).acc (outKey (At.acc d) r i) 0 = (row r).o.getD i 0)
  ∧ (∀ (s : State) (t : Fin 256) (th : Fin 8) (w : BitVec 128) (d : List Byte) (x : Slot) (p : LeafPool)
      (m l : Nat → BitVec 32),
    AttnRuns s t th w kFinal d x p → attnRow (At.wideOut d) p.hd ≤ At.stride0 d →
    At.addr1 d + 8 * At.rows d ≤ At.addr0 d →
    (∀ r, l r = (s.tile t).vlane (At.vl d) r) → (∀ r, m r = (s.tile t).vlane (At.vm d) r) →
    ∃ u, exec (.attnFinal t th w) s = .next u ∧ AttnLeft s u t th w true
      ∧ ∀ r, r < At.rows d →
        Mem.readN (u.tile t).scratch (At.addr0 d + At.stride0 d * r) (attnRow (At.wideOut d) p.hd)
          = rowBytes (At.wideOut d) ((outRow (s.tile t).acc (At.acc d) r p.hd).map fun o =>
              if l r = 0 then 0 else (mul32 o (div32 0x3F800000 (l r)).1).1)
        ∧ Mem.readN (u.tile t).scratch (At.addr1 d + 8 * r) 8
          = natLe 4 (if l r = 0 then 0 else m r).toNat ++ natLe 4 (if l r = 0 then 0 else (div32 0x3F800000 (l r)).1).toNat
        ∧ (u.tile t).vlane (At.vl d) r = (if l r = 0 then 0 else (div32 0x3F800000 (l r)).1)
        ∧ (At.vm d ≠ At.vl d → (u.tile t).vlane (At.vm d) r = if l r = 0 then 0 else m r))
  ∧ (∀ (s : State) (t : Fin 256) (th : Fin 8) (w : BitVec 128) (d : List Byte) (x : Slot) (p : LeafPool),
    AttnRuns s t th w kPrep d x p →
    ∃ u, exec (.bwdPrep t th w) s = .next u ∧ AttnLeft s u t th w true
      ∧ (∀ r, r < At.rows d → (u.tile t).vlane (At.vd d) r = (round32NV [] (numSum num0 (List.zipWith numMul
          ((readRow (s.tile t).scratch (At.wideIn d) (At.addr0 d + At.stride0 d * r) p.hd).map val32)
          ((readRow (s.tile t).scratch (At.wideIn d) (At.addr1 d + At.stride1 d * r) p.hd).map val32)))).1)
      ∧ (∀ n r, n ≠ At.vd d → r < 128 → (u.tile t).vlane n r = (s.tile t).vlane n r)
      ∧ (u.tile t).scratch = (s.tile t).scratch ∧ (u.tile t).acc = (s.tile t).acc)
  ∧ (∀ (s : State) (t : Fin 256) (th : Fin 8) (w : BitVec 128) (d : List Byte) (x : Slot) (p : LeafPool)
      (ks b : List (Option Key)) (qs dOs : List (List Machine.Num)) (g : Nat → List (Option (Key × BitVec 32 × BitVec 32))),
    AttnRuns s t th w kBwd d x p → p.hd ≤ 256 → x.rotDims = 0 → At.src d = 0 → At.firstLeaf d + At.nleaves d ≤ 2 ^ 18 →
    (∀ e ∈ s.leafs.evicting, e.1 ≠ At.slot w) →
    (∀ i ∈ namedLeaves d x [At.head0 d], (x.leaf i).tier < 2) →
    s.turnOf (x.usedBy (s.tile t).chan) 2 t = true →
    (KeySrc.keys ⟨At.slot w, p, x, At.layer d, At.head0 d, none⟩ (At.firstLeaf d) (At.nleaves d) s).1 = ks →
    (KeySrc.keys ⟨At.slot w, p, x, At.layer d, At.head0 d, none⟩ (At.firstLeaf d) (At.nleaves d) s).2.1 = false →
    keyBlocks ks = [b] → blockSkipped d b = false → qs = queries x [] (s.tile t).scratch d p.hd →
    dOs = (List.range (At.rows d)).map (fun r =>
      (readRow (s.tile t).scratch (At.wideIn d) (At.addr1 d + At.stride1 d * r) p.hd).map fun v => bf16Of (val32 v)) →
    (∀ r, g r = (rowKeys d r b).map fun o => o.map fun y => (y, gradPair d ((s.tile t).vlane (At.vm d) r)
      ((s.tile t).vlane (At.vl d) r) ((s.tile t).vlane (At.vd d) r) (qs.getD r []) (dOs.getD r []) y)) →
    ∃ u y, exec (.bwd t th w) s = .next u ∧ AttnLeft s u t th w true ∧ u.slot (At.slot w) = some y
      ∧ (∀ r i, r < At.rows d → i < p.hd → SMap.getD (u.tile t).acc (outKey (At.acc d) r i) 0
          = if (g r).all (·.isNone) then SMap.getD (s.tile t).acc (outKey (At.acc d) r i) 0
            else dot (SMap.getD (s.tile t).acc (outKey (At.acc d) r i) 0)
              ((g r).map fun o => (o.map fun e => bf16Of (val32 e.2.2)).getD num0)
              ((g r).map fun o => (o.map fun e => e.1.k.getD i num0).getD num0))
      ∧ (∀ (e : Nat) (k : Key), b[e]? = some (some k) → ∀ i, i < p.hd →
          ((∀ r, r < At.rows d → ((g r)[e]?).bind id = none) →
            ∀ v, SMap.getD y.ob (obKey v (At.head0 d) k.leaf k.tok i) 0 = SMap.getD x.ob (obKey v (At.head0 d) k.leaf k.tok i) 0)
          ∧ ((∃ r, r < At.rows d ∧ ((g r)[e]?).bind id ≠ none) →
            SMap.getD y.ob (obKey false (At.head0 d) k.leaf k.tok i) 0
              = (add32 (SMap.getD x.ob (obKey false (At.head0 d) k.leaf k.tok i) 0)
                  (dot 0
                    ((List.range (At.rows d)).map fun r => ((((g r)[e]?).bind id).map fun a => bf16Of (val32 a.2.2)).getD num0)
                    ((List.range (At.rows d)).map fun r =>
                      ((((g r)[e]?).bind id).map fun _ => (qs.getD r []).getD i num0).getD num0))).1
            ∧ SMap.getD y.ob (obKey true (At.head0 d) k.leaf k.tok i) 0
              = (add32 (SMap.getD x.ob (obKey true (At.head0 d) k.leaf k.tok i) 0)
                  (dot 0
                    ((List.range (At.rows d)).map fun r => ((((g r)[e]?).bind id).map fun a => bf16Of (val32 a.2.1)).getD num0)
                    ((List.range (At.rows d)).map fun r =>
                      ((((g r)[e]?).bind id).map fun _ => (dOs.getD r []).getD i num0).getD num0))).1)))
  ∧ (∀ (s : State) (t : Fin 256) (th : Fin 8) (w : BitVec 128) (d : List Byte) (x : Slot) (p : LeafPool),
    AttnRuns s t th w kGfinal d x p → x.rotDims = 0 → attnRow (At.wideOut d) p.hd ≤ At.stride0 d →
    (At.qgrad d = true →
      ∃ u, exec (.gfinal t th w) s = .next u ∧ AttnLeft s u t th w true
        ∧ ∀ r, r < At.rows d → Mem.readN (u.tile t).scratch (At.addr0 d + At.stride0 d * r) (attnRow (At.wideOut d) p.hd)
          = rowBytes (At.wideOut d) (outRow (s.tile t).acc (At.acc d) r p.hd))
    ∧ (At.qgrad d = false → At.src d = 0 → attnRow (At.wideOut d) p.hd ≤ At.stride1 d →
      At.addr0 d + At.stride0 d * (16 * At.nleaves d) ≤ At.addr1 d →
      ∃ u, exec (.gfinal t th w) s = .next u ∧ AttnLeft s u t th w true
        ∧ ∀ i, i < 16 * At.nleaves d →
          Mem.readN (u.tile t).scratch (At.addr0 d + At.stride0 d * i) (attnRow (At.wideOut d) p.hd)
            = rowBytes (At.wideOut d) ((List.range p.hd).map fun c =>
                SMap.getD x.ob (obKey false (At.head0 d) (At.firstLeaf d + i / 16) (i % 16) c) 0)
          ∧ Mem.readN (u.tile t).scratch (At.addr1 d + At.stride1 d * i) (attnRow (At.wideOut d) p.hd)
            = rowBytes (At.wideOut d) ((List.range p.hd).map fun c =>
                SMap.getD x.ob (obKey true (At.head0 d) (At.firstLeaf d + i / 16) (i % 16) c) 0)))
  ∧ (∀ (s : State) (t : Fin 256) (th : Fin 8) (w : BitVec 128) (a : Nat),
    a = baseAddr ((s.tile t).thread th) (At.dg w) (At.doff w) → a % 64 = 0 → a + 64 ≤ 0x100000 →
    At.kind w = 0 ∨ 10 < At.kind w → IssuesTo s t th w 0x40 2 [] [] → Quiet s → s.rse.inj = [] → (s.tile t).poison = [] →
    s.spine.newStag = true →
    ∃ u, exec (.attnReservedKind t th w) s = .next u ∧ ((u.tile t).thread th).st = .faulted
      ∧ ((s.tile t).faultInfo.getLsbD 7 = false → (u.tile t).faultInfo = BitVec.ofNat 64
          (2 + th * 2 ^ 4 + 2 ^ 7 + ((s.tile t).thread th).pc.toNat * 2 ^ 8 + 0x40 * 2 ^ 40))
      ∧ (∃ q, (u.tile t).queue 2 = [q] ∧ q.word = w ∧ q.ran = true))
  ∧ (∀ (s : State) (t : Fin 256) (n : Fin 4) (q : QInstr) (qs : List QInstr), Calm s →
    (s.tile t).queue n = q :: qs → (if n = 2 then qs = [] else (s.tile t).queue 2 = []) →
    (q.ran = true → s.drainWaits t q = false → (∀ m ∈ (s.tile t).queue 0, m.ran = true) →
    ∃ u, exec (.unitInstructionComplete t n) s = .next u ∧ (u.tile t).queue n = qs
      ∧ (∀ k : Nat, k ≠ n → (u.tile t).queue k = (s.tile t).queue k)
      ∧ (∀ g ∈ (u.tile t).sigs, q.id ∉ g.waits ∧ g.waits ≠ [])
      ∧ (n ≠ 0 → u.freeCtr = s.freeCtr)
      ∧ (∀ k : Nat, k ≠ t → u.tile k = s.tile k) ∧ { u with tiles := s.tiles, freeCtr := s.freeCtr } = s)
    ∧ (n ≠ 2 → (q.ran = false ∨ s.drainWaits t q = true) → exec (.unitInstructionComplete t n) s = .next s))

/-- The streamer's operations on quires and leaves, and the events of quires, leaves and stalls (R183, R187, R189,
R213 to R229). -/
def Obligations.QuireAndLeafOperationsTakeEffect : Prop :=
  (∀ (s s2 : State) (t : Fin 256) (th : Fin 8) (w : BitVec 128) (d : List Byte) (x : Slot) (p : LeafPool) (g : Ring)
      (b : Nat) (bytes : List Byte),
    AttnRuns s t th w kQsend d x p → x.ring = some g → b = bufOf (At.src d) →
    (∀ e ∈ s.leafs.evicting, e.1 ≠ At.slot w) →
    (∀ i ∈ namedLeaves d x ((List.range (At.nheads d)).map (· + At.head0 d)), (x.leaf i).tier < 2) →
    ((At.bwdq d || At.gradOnly d) = true → s.releasedBy (x.usedBy (s.tile t).chan) b = true) →
    x.sent % 2 ∈ x.credits → quireOf d x p g s = some (bytes, false, s2) →
    ∃ u y, exec (.qsend t th w) s = .next u ∧ AttnLeft s u t th w true ∧ u.slot (At.slot w) = some y
      ∧ y.sent = x.sent + 1 ∧ (∀ c, c ∈ y.credits ↔ c ∈ x.credits ∧ c ≠ x.sent % 2)
      ∧ y.buf b = { x.buf b with left := true }
      ∧ Ctrs.get u.leafs.ctrs 8 = min (Ctrs.get s.leafs.ctrs 8 + 1) ctrMax)
  ∧ (∀ (s : State) (t : Fin 256) (th : Fin 8) (w : BitVec 128) (d : List Byte) (x : Slot) (p : LeafPool),
    AttnRuns s t th w kQrelease d x p →
    ∃ u y, exec (.qrelease t th w) s = .next u ∧ AttnLeft s u t th w true ∧ u.slot (At.slot w) = some y
      ∧ (∀ c, c ∈ (y.buf (bufOf (At.src d))).released ↔ c ∈ (x.buf (bufOf (At.src d))).released ∨ c = t.val)
      ∧ { y with bufs := x.bufs, users := x.users } = x)
  ∧ (∀ (s : State) (t : Fin 256) (th : Fin 8) (w : BitVec 128) (d : List Byte) (x : Slot) (p : LeafPool) (ls : List Nat),
    AttnRuns s t th w kLfetch d x p → ls = namedLeaves d x ((List.range (At.nheads d)).map (· + At.head0 d)) →
    ∃ u y, exec (.lfetch t th w) s = .next u ∧ u.slot (At.slot w) = some y
      ∧ AttnLeft s u t th w (ls.all fun i => (x.leaf i).tier < 2)
      ∧ (∀ i, y.leaf i = if i ∈ ls ∧ 2 ≤ (x.leaf i).tier then { x.leaf i with motion := true }
          else if i ∈ ls ∧ (s.leafs.evicting.any fun e => e.1 == At.slot w && e.2.1 == i) then { x.leaf i with motion := false } else x.leaf i)
      ∧ (∀ e, e ∈ u.leafs.evicting ↔ e ∈ s.leafs.evicting ∧ ¬(e.1 = At.slot w ∧ e.2.1 ∈ ls))
      ∧ { y with leaves := x.leaves, users := x.users } = x)
  ∧ (∀ (s : State) (t : Fin 256) (th : Fin 8) (w : BitVec 128) (d : List Byte) (x : Slot) (p : LeafPool),
    AttnRuns s t th w kTrunc d x p → (s.tile t).leafWaits = none →
    ∃ u y, exec (.trunc t th w) s = .next u ∧ AttnLeft s u t th w true ∧ u.slot (At.slot w) = some y
      ∧ (∀ i, i < At.nheads d → y.len (At.layer d) (At.head0 d + i) = At.nleaves d)
      ∧ (∀ k, k < x.track (At.layer d) (At.head0 d) ∨ x.track (At.layer d) (At.head0 d) + At.nheads d ≤ k →
          SMap.getD y.lens k 0 = SMap.getD x.lens k 0)
      ∧ y.clens = x.clens)
  ∧ (∀ (s : State) (q : Fin 16) (h payload : List Byte) (x : Slot) (p : LeafPool) (g : Ring) (pa : Nat),
    s.slot q = some x → s.poolOf x = some p → x.ring = some g → (x.buf (x.got % 2)).header = none →
    fieldAt h 32 4 ≤ s.cle.epoch → quireCheck x p g h payload.length s = 0 → Quiet s → Calm s →
    Resident s p.part (g.bufVa (x.got % 2)) payload.length →
    s.vaPa p.part (g.bufVa (x.got % 2)) = some pa → g.bufVa (x.got % 2) % pageSize + payload.length ≤ pageSize →
    ∃ u y, exec (.quireArrival q h payload) s = .next u ∧ u.slot q = some y
      ∧ y.got = x.got + 1 ∧ y.buf (x.got % 2) = { QBuf.reset with header := some h }
      ∧ { y with got := x.got, bufs := x.bufs, tainted := x.tainted } = x
      ∧ Mem.readN u.mem.bytes pa payload.length = payload
      ∧ Ctrs.get u.leafs.ctrs 9 = min (Ctrs.get s.leafs.ctrs 9 + 1) ctrMax)
  ∧ (∀ (s : State) (q : Fin 16) (b : Fin 2) (x : Slot), s.slot q = some x → Quiet s → Calm s →
    ∃ u, exec (.quireCredit ⟨q, b⟩) s = .next u
      ∧ u.slot q = some { x with credits := NSet.insert x.credits b }
      ∧ { u with leafs := { u.leafs with slots := s.leafs.slots } } = s)
  ∧ (∀ (s : State) (q : Fin 16) (b : Fin 3) (x : Slot) (p : LeafPool) (g : Ring), s.slot q = some x →
    s.poolOf x = some p → x.ring = some g → s.bufFree x g b = true → Calm s →
    ∃ u y, exec (.landingBufferFree q b) s = .next u ∧ u.slot q = some y ∧ y.buf b = QBuf.reset
      ∧ (b.val = 2 → y.ob = []) ∧ (b.val ≠ 2 → y.ob = x.ob)
      ∧ ∀ va pa, g.bufVa b ≤ va → va < g.bufVa b + g.lbSize → s.vaPa p.part va = some pa → Mem.get u.mem.bytes pa = 0)
  ∧ (∀ (s : State) (pool : Fin 8) (p o : LeafPool) (a q i : Nat) (x : Slot), s.leafLeaving pool = none →
    SMap.lookup s.leafs.pools pool = some p → s.leafDemand pool p = true → s.leafCandidates pool = [(a, q, i)] →
    s.slot q = some x → s.poolOf x = some o → Quiet s → Calm s →
    (∀ r, (x.leaf i).farcopy = true → (x.leaf i).far = some r →
      ∃ u y, exec (.leafEvict pool) s = .next u ∧ u.slot q = some y
        ∧ y.leaf i = { x.leaf i with
            tier := if r.host then 3 else 2, far := some r, farcopy := false, motion := false, frame := 0 }
        ∧ (∀ j, j ≠ i → y.leaf j = x.leaf j)
        ∧ SMap.lookup u.leafs.pools x.pool = some { o with used := NSet.erase o.used (x.leaf i).frame }
        ∧ Ctrs.get u.leafs.ctrs 2 = min (Ctrs.get s.leafs.ctrs 2 + 1) ctrMax)
    ∧ (∀ r v, (x.leaf i).farcopy = false → placeLeaf o x.spillHost s = some (r, v) →
      ∃ u y, exec (.leafEvict pool) s = .next u ∧ u.slot q = some y ∧ y.leaf i = { x.leaf i with motion := true }
        ∧ (∀ j, j ≠ i → y.leaf j = x.leaf j) ∧ u.leafs.evicting = s.leafs.evicting ++ [(q, i, r)]
        ∧ u.leafs.pools = s.leafs.pools ∧ u.leafs.ctrs = s.leafs.ctrs))
  ∧ (∀ (s : State) (pool : Fin 8) (o : LeafPool) (q i : Nat) (x : Slot) (r : FarRef), s.leafLeaving pool = some (q, i, r) →
    s.slot q = some x → s.poolOf x = some o → Quiet s → Calm s →
    (r.host = true → s.hif.pcieWidth = 0 → exec (.leafEvict pool) s = .next s)
    ∧ ((r.host = true → s.hif.pcieWidth ≠ 0) →
      ∃ u y, exec (.leafEvict pool) s = .next u ∧ u.slot q = some y
        ∧ y.leaf i = { x.leaf i with
            tier := if r.host then 3 else 2, far := some r, farcopy := false, motion := false, frame := 0 }
        ∧ (∀ j, j ≠ i → y.leaf j = x.leaf j)
        ∧ SMap.lookup u.leafs.pools x.pool = some { o with used := NSet.erase o.used (x.leaf i).frame }
        ∧ (∀ e, e ∈ u.leafs.evicting ↔ e ∈ s.leafs.evicting ∧ ¬(e.1 = q ∧ e.2.1 = i))
        ∧ Ctrs.get u.leafs.ctrs 2 = min (Ctrs.get s.leafs.ctrs 2 + 1) ctrMax))
  ∧ (∀ (s : State) (q : Fin 16) (layer head leaf f : Nat) (data : List Byte) (x : Slot) (p : LeafPool) (l : Leaf) (r : FarRef),
    s.slot q = some x → s.poolOf x = some p → l = x.leaf (x.leafIdx layer head leaf) → p.freeFrame = some f →
    l.far = some r → r.host = false → layer < x.layers → head < x.heads → leaf < x.perTrack → l.motion = true → 2 ≤ l.tier →
    Quiet s → Calm s →
    ∃ u y, exec (.leafReturn q layer head leaf data false) s = .next u ∧ u.slot q = some y
      ∧ y.leaf (x.leafIdx layer head leaf) = { l with
          frame := f, tier := 1, motion := false, farcopy := !s.reclaiming r.who r.window
          far := if s.reclaiming r.who r.window then none else some r }
      ∧ (∀ j, j ≠ x.leafIdx layer head leaf → y.leaf j = x.leaf j)
      ∧ SMap.lookup u.leafs.pools x.pool = some { p with used := NSet.insert p.used f }
      ∧ Ctrs.get u.leafs.ctrs 4 = min (Ctrs.get s.leafs.ctrs 4 + 1) ctrMax)
  ∧ (∀ (s : State) (q : Fin 16) (x : Slot) (a layer head len : Nat) (es : List (Nat × Nat × Nat × Nat)),
    s.slot q = some x →
    (x.stalls.map (·.2)).filter (fun e => decide (e.1 + s.leafs.bound ≤ s.spine.tick)) = (a, layer, head, len) :: es →
    (∀ e ∈ es, a ≤ e.1) → s.spine.newStag = true →
    ∃ u, exec (.leafStallExpiry q) s = .next u
      ∧ u.slot q = some { x with
          stalls := x.stalls.map fun y => (y.1, (raisedTick, y.2.2)), exhausted := some (layer, head, len)
          lastErr := St.leafExhausted }
      ∧ Ctrs.get u.leafs.ctrs 6 = min (Ctrs.get s.leafs.ctrs 6 + 1) ctrMax)

/-- Release, training, HELLO and echoes, admission, loss and test of a link (R391 to R399, R403, R405, R407, R408). -/
def Obligations.LinkTrainingTakesEffect : Prop :=
  (∀ (s : State) (l : Nat), s.mem.trained = true → s.mem.selfRefresh = false → s.nextRelease = some l →
    ∃ t, exec .linkRelease s = .next t ∧ LinkIs s t l ({ s.link l with signal := true }.fresh 1)
      ∧ t.out = s.out ++ patternOf s l ∧ { t with links := s.links, out := s.out } = s)
  ∧ (∀ (s : State) (l : Fin 32), ((s.link l).st = 1 ∧ (s.link l).step ≤ 3 ∨ (s.link l).st = 5 ∨ (s.link l).st = 6) →
    ∃ t, exec (.linkTrainingTimeout l) s = .next t
      ∧ LinkIs s t l ({ s.link l with signal := (s.link l).signal && (s.link l).step != 1 }.fresh 1)
      ∧ t.out = s.out ++ patternOf s l ∧ { t with links := s.links, out := s.out } = s)
  ∧ (∀ (s : State) (l : Fin 32) (reversed : Bool) (polarity : BitVec 8), s.mem.selfRefresh = false →
    ((s.link l).training = true → (s.link l).step = 1 →
      ∃ t, exec (.laneLock l reversed polarity) s = .next t
        ∧ LinkIs s t l { s.link l with step := 3, reversed := reversed, polarity := polarity, signal := true }
        ∧ { t with links := s.links } = s)
    ∧ ((s.link l).st = 8 → (s.link l).dropped = false →
      ∃ t, exec (.laneLock l reversed polarity) s = .next t
        ∧ LinkIs s t l { (s.link l).fresh 4 with
            outSince := some s.spine.tick, step := 3, reversed := reversed, polarity := polarity, signal := true }
        ∧ t.links.events = (⟨s.spine.tick, l, 2, St.ok, s.peerOf l, 0, 4⟩ :: s.links.events).take 64
        ∧ t.out = s.out ++ [.pattern l] ∧ { t with links := s.links, out := s.out } = s))
  ∧ (∀ (s : State) (l : Fin 32) (y : Link), (s.link l).training = true → (s.link l).step = 3 →
    y = { s.link l with step := 4 } →
    ∃ t, exec (.flitLock l) s = .next t ∧ LinkIs s t l y.sent.sent
      ∧ t.out = s.out ++ [.flit l (flitBytes (y.head 2 0 31 false) (helloMsg l s)),
          .flit l (flitBytes (y.sent.head 2 0 31 false) (padTo 32 [2]))]
      ∧ { t with links := s.links, out := s.out } = s)
  ∧ (∀ (s : State) (l : Fin 32), (s.link l).greets = true →
    ∃ t, exec (.helloResend l) s = .next t ∧ LinkIs s t l (s.link l).sent
      ∧ t.out = s.out ++ [.flit l (flitBytes ((s.link l).head 2 0 31 false) (helloMsg l s))]
      ∧ { t with links := s.links, out := s.out } = s)
  ∧ (∀ (s : State) (l : Fin 32) (flit m : List Byte) (h : FlitHead) (y : Link),
    ((s.link l).greets = true ∨ (s.link l).st = 3) → ControlIs flit h m 2 → y = heard (s.link l) h → Calm s →
    ∃ t, exec (.ping ⟨l, flit⟩) s = .next t ∧ LinkIs s t l y.sent
      ∧ t.out = s.out ++ [.flit l (flitBytes (y.head 2 0 31 false) (padTo 32 [3]))]
      ∧ { t with links := s.links, out := s.out } = s)
  ∧ (∀ (s : State) (l : Fin 32) (flit m : List Byte) (h : FlitHead), (s.link l).greets = true → ControlIs flit h m 1 →
    s.posEntry l = none → Calm s →
    ∃ t, exec (.hello l flit) s = .next t
      ∧ LinkIs s t l ({ heard (s.link l) h with hello := some (Hello.of m) } : Link).measure
      ∧ { t with links := s.links } = s)
  ∧ (∀ (s : State) (l : Fin 32) (flit m : List Byte) (h : FlitHead) (e : PosEntry) (y : Link), (s.link l).training = true →
    4 ≤ (s.link l).step → ControlIs flit h m 1 → s.posEntry l = some e → Calm s →
    y = ({ heard (s.link l) h with hello := some (Hello.of m) } : Link).measure →
    (∀ r, refuseReason s e (Hello.of m) y = some r →
      ∃ t, exec (.hello l flit) s = .next t
        ∧ LinkIs s t l { y with st := 6, refusal := r, refused := true, ctrs := Ctrs.sat y.ctrs 8 1 }
        ∧ t.links.events = (⟨s.spine.tick, l, 4, St.ok, (Hello.of m).position, r, 6⟩ :: s.links.events).take 64
        ∧ (y.refused = false → t.hif.intCause = s.hif.intCause ||| BitVec.ofNat 15 (2 ^ Cause.linkEvent)))
    ∧ (refuseReason s e (Hello.of m) y = none → 16 ≤ y.echoes →
      ∃ t, exec (.hello l flit) s = .next t ∧ LinkIs s t l { y with st := 2, step := 6 } ∧ { t with links := s.links } = s))
  ∧ (∀ (s : State) (l : Fin 32) (flit m : List Byte) (h : FlitHead) (trip : Nat) (y z : Link), (s.link l).training = true →
    4 ≤ (s.link l).step → (s.link l).echoes < 15 → ControlIs flit h m 3 → s.posEntry l = none → Calm s →
    y = heard (s.link l) h →
    z = { y with echoes := y.echoes + 1, minTrip := if y.echoes = 0 then trip else min y.minTrip trip } →
    ∃ t, exec (.pong ⟨l, flit⟩ trip) s = .next t ∧ LinkIs s t l z.sent
      ∧ t.out = s.out ++ [.flit l (flitBytes (z.head 2 0 31 false) (padTo 32 [2]))]
      ∧ { t with links := s.links, out := s.out } = s)
  ∧ (∀ (s : State) (l : Fin 32) (flit m : List Byte) (h : FlitHead) (trip n : Nat) (o : Hello) (y : Link),
    (s.link l).training = true → 4 ≤ (s.link l).step → (s.link l).echoes = 15 → (s.link l).hello = some o →
    ControlIs flit h m 3 → s.posEntry l = none → Calm s → y = heard (s.link l) h →
    n = oneWay (min y.minTrip trip) o.turnaround →
    ∃ t, exec (.pong ⟨l, flit⟩ trip) s = .next t
      ∧ LinkIs s t l { y with echoes := 16, minTrip := min y.minTrip trip, latency := n, cls := lengthClass n }
      ∧ { t with links := s.links } = s)
  ∧ (∀ (s : State) (l : Fin 32) (y : Link), (s.link l).st = 2 →
    (∀ k, k < l.val → (s.link k).st = 0 ∨ (s.link k).st = 3 ∨ (s.link k).st = 6 ∨ (s.link k).st = 7 ∨ (s.link k).signal = false) →
    y = { s.link l with st := 3, step := 7, outSince := none, joined := !s.spine.running } →
    ∃ t, exec (.linkAdmit l) s = .next t
      ∧ t.links.events = (⟨s.spine.tick, l, 1, St.ok, s.peerOf l, 0, 3⟩ :: s.links.events).take 64
      ∧ (∀ p, p ∈ t.links.lostPos ↔ p ∈ s.links.lostPos ∧ l.val ∉ s.assigned p)
      ∧ (∃ q, t.link l = { y with queues := q }) ∧ { t with links := s.links, ptu := s.ptu } = s
      ∧ (s.ptu.farWait = [] → LinkIs s t l y ∧ t.ptu = s.ptu))
  ∧ (∀ (s : State) (l : Fin 32) (flit m : List Byte) (h : FlitHead), (s.link l).st = 3 → ControlIs flit h m 4 → Calm s →
    ∃ t, exec (.hold ⟨l, flit⟩) s = .next t ∧ LinkIs s t l { heard (s.link l) h with st := 8, signal := false }
      ∧ t.links.events = (⟨s.spine.tick, l, 8, St.ok, s.peerOf l, 0, 8⟩ :: s.links.events).take 64
      ∧ { t with links := s.links } = s)
  ∧ (∀ (s : State) (l : Fin 32) (flit m : List Byte) (h : FlitHead) (o : Hello), (s.link l).st = 3 →
    (s.link l).hello = some o → ControlIs flit h m 5 → Calm s →
    ∃ t, exec (.positionChange l flit) s = .next t
      ∧ LinkIs s t l { heard (s.link l) h with hello := some { o with position := fieldAt m 2 2 } }
      ∧ { t with links := s.links } = s)
  ∧ (∀ (s : State) (l : Fin 32) (flit : List Byte) (i : Instr),
    (i = .hello l flit ∧ (s.link l).greets = true ∨ i = .ping ⟨l, flit⟩ ∨ i = .hold ⟨l, flit⟩ ∨ i = .positionChange l flit) →
    (s.link l).st = 3 ∨ i = .hello l flit → flitDecode flit = .badCrc 0 → Calm s →
    ∃ t, exec i s = .next t ∧ LinkIs s t l { s.link l with badRun := 0, ctrs := Ctrs.sat (s.link l).ctrs 5 1 }
      ∧ { t with links := s.links } = s)
  ∧ (∀ (s : State) (l : Fin 32), (s.link l).st = 4 →
    ∃ t, exec (.linkDown l) s = .next t
      ∧ LinkIs s t l { s.link l with st := 5, signal := (s.link l).signal && (s.link l).step != 1 }
      ∧ t.links.events = (⟨s.spine.tick, l, 3, St.linkDown, s.peerOf l, 0, 5⟩ :: s.links.events).take 64
      ∧ t.hif.intCause = s.hif.intCause ||| BitVec.ofNat 15 (2 ^ Cause.linkEvent)
      ∧ { t with links := s.links, hif := s.hif, out := s.out } = s)
  ∧ (∀ (s : State) (l : Fin 32) (bits errors : List Nat), (s.link l).st = 9 →
    ∃ t, exec (.linkTestEnd l bits errors) s = .next t
      ∧ LinkIs s t l { (s.link l).fresh (if s.mayRelease l then 1 else 7) with
          testBits := bits.take 8, testErrs := errors.take 8 }
      ∧ t.out = s.out ++ (if s.mayRelease l then patternOf s l else []) ∧ { t with links := s.links, out := s.out } = s)

/-- Retrains, lost peers, isolation, the transmitter, NAK, and the receiver of flits (R376, R381 to R391, R400, R401). -/
def Obligations.LinkTransportTakesEffect : Prop :=
  (∀ (s : State) (l : Fin 32) (i : Instr), (i = .signalLoss l ∨ i = .ackTimeout l ∧ (s.link l).replay ≠ []) →
    (s.link l).st = 3 → Still s →
    ∃ t, exec i s = .next t
      ∧ t.link l = { (s.link l).fresh 4 with
          outSince := some s.spine.tick, ctrs := Ctrs.sat (s.link l).ctrs 7 1
          signal := if i = .signalLoss l then false else (s.link l).signal }
      ∧ t.links.events = (⟨s.spine.tick, l, 2, St.ok, s.peerOf l, 0, 4⟩ :: s.links.events).take 64
      ∧ (s.spine.running = false → (∀ p ∈ SMap.getD (s.link l).queues 3 [], p.cls ≠ 5 ∧ p.cls ≠ 6) →
          ∀ k, k ≠ l.val → t.link k = s.link k))
  ∧ (∀ (s : State) (pos : Fin 1024), s.everIn pos ≠ [] → (∀ l ∈ s.everIn pos, s.outFor l = true) →
    pos.val ∉ s.links.lostPos → pos.val ≠ s.rse.mirror.twinPos → pos.val ≠ s.rse.mirror.mirrorOf → Still s →
    ∃ t, exec (.peerLost pos) s = .next t
      ∧ (∀ p, p ∈ t.links.lostPos ↔ p ∈ s.links.lostPos ∨ p = pos.val)
      ∧ (∃ e, t.links.events = (e :: s.links.events).take 64 ∧ e.event = 5 ∧ e.status = St.peerLost ∧ e.pos = pos.val)
      ∧ t.hif.intCause.getLsbD Cause.linkEvent = true)
  ∧ (∀ s : State, s.spine.running = true → s.links.isolated = false → s.runningChans = [] → Calm s →
    (∃ l e, l < 32 ∧ s.posEntry l = some e ∧ e.enable = true ∧ l ∉ s.links.off) →
    (∀ l e, l < 32 → s.posEntry l = some e → e.enable = true → l ∉ s.links.off → s.outFor l = true) →
    ∃ t e, exec .selfIsolate s = .next t ∧ t.links.isolated = true ∧ t.links.links = s.links.links
      ∧ t.links.events = (e :: s.links.events).take 64 ∧ e.event = 7 ∧ e.status = St.peerLost
      ∧ t.hif.intCause = s.hif.intCause ||| BitVec.ofNat 15 (2 ^ Cause.linkEvent)
      ∧ { t with links := s.links, hif := s.hif, out := s.out } = s)
  ∧ (∀ (s : State) (l : Fin 32) (v : Nat) (p : Packet), (s.link l).st = 3 → s.links.isolated = false →
    (s.link l).choose = some (v, p) → (s.link l).full = false → (s.link l).txSlots.length < 400 →
    ∃ t, exec (.packetSend l) s = .next t
      ∧ SMap.getD (t.link l).queues v [] = (SMap.getD (s.link l).queues v []).drop 1
      ∧ (∀ k, k ≠ v → SMap.getD (t.link l).queues k [] = SMap.getD (s.link l).queues k [])
      ∧ SMap.getD (t.link l).sentSlots v 0 = SMap.getD (s.link l).sentSlots v 0 + slotsOf p
      ∧ (t.link l).rr = (if v = 0 then (s.link l).rr else v % 3 + 1)
      ∧ (∀ k, k ≠ l.val → t.link k = s.link k)
      ∧ { t with links := { t.links with links := s.links.links }, out := s.out, rse := s.rse } = s)
  ∧ (∀ (s : State) (l : Fin 32) (v : Nat) (p : Packet), (s.link l).st = 3 → s.links.isolated = false →
    (s.link l).choose = some (v, p) → (s.link l).full = false → s.rse.inj = [] →
    SMap.getD (s.link l).queues v [] = [p] → (∀ k, k ≠ v → SMap.getD (s.link l).queues k [] = []) →
    (s.link l).txSlots = [] → (s.link l).txFirst = 31 → packetSlots (stamped p s) ≠ [] →
    (packetSlots (stamped p s)).length ≤ 400 →
    ∃ t, exec (.packetSend l) s = .next t
      ∧ t.out = s.out ++ [.flit l (flitBytes ((s.link l).head 1 (s.link l).txSeq 0 false) (packetSlots (stamped p s)))]
      ∧ (t.link l).replay = (s.link l).replay ++ [((s.link l).txSeq, 0, packetSlots (stamped p s))]
      ∧ (t.link l).txSeq = ((s.link l).txSeq + 1) % 4096 ∧ (t.link l).cvc = ((s.link l).cvc + 1) % 4
      ∧ (t.link l).txSlots = [] ∧ (t.link l).txFirst = 31
      ∧ (t.link l).ctrs = Ctrs.wrap (s.link l).ctrs 0 1)
  ∧ (∀ (s : State) (l : Fin 32), (s.link l).st = 3 → s.links.isolated = false →
    ((s.link l).full = true ∨ (s.link l).txSlots = [] ∧ (s.link l).choose = none) →
    ∃ t, exec (.packetSend l) s = .next t ∧ LinkIs s t l (s.link l).sent
      ∧ t.out = s.out ++ [.flit l (flitBytes ((s.link l).head 0 0 31 false) [])]
      ∧ { t with links := s.links, out := s.out } = s)
  ∧ (∀ (s : State) (l : Fin 32) (ack : BitVec 12) (y z : Link) (n : Nat), (s.link l).st = 3 →
    y = (s.link l).acked ack.toNat → n = (if y.ackSeen = some ack.toNat then y.naks + 1 else 1) → n < 8 →
    z = { y with ackSeen := some ack.toNat, naks := n } → s.rse.inj = [] → Calm s →
    ∃ t, exec (.nakReceive l ack) s = .next t
      ∧ LinkIs s t l { sentTimes y.replay.length z with
          ctrs := Ctrs.sat (Ctrs.wrap (sentTimes y.replay.length z).ctrs 0 y.replay.length) 6 1 }
      ∧ t.out = s.out ++ ((List.range y.replay.length).zip y.replay).map fun e => Output.flit l
          (flitBytes ((sentTimes e.1 z).head 1 e.2.1 e.2.2.1 false) e.2.2.2))
  ∧ (∀ (s : State) (l : Fin 32) (ack : BitVec 12) (y : Link), (s.link l).st = 3 → y = (s.link l).acked ack.toNat →
    y.ackSeen = some ack.toNat → 7 ≤ y.naks → Still s →
    ∃ t, exec (.nakReceive l ack) s = .next t
      ∧ t.link l = { y.fresh 4 with outSince := some s.spine.tick, ctrs := Ctrs.sat y.ctrs 7 1 })
  ∧ (∀ (s s1 : State) (l : Fin 32) (flit payload : List Byte) (h : FlitHead), (s.link l).st = 3 →
    flitDecode flit = .good h payload 0 → h.type = 1 → h.nak = false → h.seq = (s.link l).rxNext →
    s1 = s.modLink l (fun _ => { heard (s.link l) h with
      rxNext := ((s.link l).rxNext + 1) % 4096, episode := false, ctrs := Ctrs.wrap (s.link l).ctrs 1 1 }) →
    Calm (takePayload l h.first payload s1) →
    exec (.dataFlitReceive l flit) s = .next (takePayload l h.first payload s1))
  ∧ (∀ (s : State) (l : Fin 32) (flit payload : List Byte) (h : FlitHead), (s.link l).st = 3 →
    flitDecode flit = .good h payload 0 → h.type = 1 → h.ackv = false → h.seq ≠ (s.link l).rxNext → Calm s →
    ∃ t, exec (.dataFlitReceive l flit) s = .next t
      ∧ ((s.link l).episode = true → LinkIs s t l (heard (s.link l) h) ∧ t.out = s.out)
      ∧ ((s.link l).episode = false → LinkIs s t l ({ heard (s.link l) h with episode := true } : Link).sent
        ∧ t.out = s.out ++ [.flit l (flitBytes ((s.link l).head 0 0 31 true) [])]))
  ∧ (∀ (s : State) (l : Fin 32) (flit : List Byte), (s.link l).st = 3 → flitDecode flit = .uncorrectable →
    (s.link l).badRun < 7 → (s.link l).episode = true → Calm s →
    ∃ t, exec (.dataFlitReceive l flit) s = .next t
      ∧ LinkIs s t l { s.link l with badRun := (s.link l).badRun + 1, ctrs := Ctrs.sat (s.link l).ctrs 4 1 }
      ∧ { t with links := s.links } = s)
  ∧ (∀ (s : State) (l : Fin 32) (flit payload : List Byte) (h : FlitHead), (s.link l).st = 3 →
    flitDecode flit = .good h payload 0 → h.type = 0 → h.nak = false → Calm s →
    ∃ t, exec (.idleFlitReceive l flit) s = .next t
      ∧ LinkIs s t l (heard (s.link l) h)
      ∧ { t with links := s.links } = s)

/-- SYNC, the backup candidates, STATUS, COMMIT and the start of a step (R411 to R429). -/
def Obligations.SpineTimeAndCommitsTakeEffect : Prop :=
  (∀ s : State, s.spine.stag = true → s.spine.tick % 64 = 0 →
    ∃ t, exec .syncSend s = .next t ∧ t.spine = { s.spine with phase := 0, lastSync := s.spine.tick }
      ∧ SentOn s t s.activeLinks 1 (natLe 2 0 ++ natLe 2 ((s.links.table.map (·.herdId)).getD 0xFFFF)
          ++ natLe 4 s.spine.gen ++ natLe 8 (s.spine.step % 2 ^ 64))
      ∧ { t with spine := s.spine, links := s.links } = s)
  ∧ (∀ (s : State) (l : Fin 32) (p : Packet) (hops e : Nat), ArrivesOn s l p 1 → skindOf p = 1 →
    some (fieldAt p.data 2 2) = s.links.table.map (·.herdId) → fieldAt p.data 4 4 = s.spine.gen →
    fieldAt p.cword 1 1 / 16 % 4 = s.spine.cand → s.spine.stag = false → s.spine.parent = some p.srcPos →
    s.linkSet p.srcPos ≠ [] → hops = fieldAt p.cword 1 1 % 16 → hops ≤ s.spine.hops →
    e = fieldAt p.cword 2 6 * 1000 + fieldAt p.data 0 2 + (s.link l).latency → Calm s →
    (s.spine.running = false →
      ∃ t, exec (.sync l p) s = .next t
        ∧ t.spine = { s.spine with
            heard := SMap.put s.spine.heard p.srcPos hops, hops := hops, offset := (e : Int) - s.spine.time
            tick := e / 1000 % 2 ^ 48, phase := e % 1000, slew := 0, lastSync := e / 1000 % 2 ^ 48 }
        ∧ (hops < 15 → ∀ k ∈ s.activeLinks, k ∉ s.linkSet p.srcPos → s.links.isolated = false →
            ∃ q, SMap.getD (t.link k).queues 0 [] = SMap.getD (s.link k).queues 0 [] ++ [q]
              ∧ q.cword = spineWord 1 (hops + 1) s.spine.cand (e / 1000 % 2 ^ 48)))
    ∧ (s.spine.running = true → ((e : Int) - s.spine.time).natAbs ≤ 1000 →
      ∃ t, exec (.sync l p) s = .next t
        ∧ t.spine = { s.spine with
            heard := SMap.put s.spine.heard p.srcPos hops, hops := hops, offset := (e : Int) - s.spine.time
            slew := (e : Int) - s.spine.time, lastSync := s.spine.tick }))
  ∧ (∀ (s : State) (k : Nat), s.candIndex = some k → s.spine.running = true → s.spine.stag = false →
    s.spine.lastSync + 200 + 100 * k ≤ s.spine.tick →
    ∃ t, exec .stagCandidateTimeout s = .next t
      ∧ t.spine = { s.spine with
          stag := true, newStag := true, gen := (s.spine.gen + 1) % 2 ^ 32, cand := k, parent := none, hops := 0, heard := []
          children := [], lastSync := s.spine.tick, stamps := s.spine.stamps ++ [s.spine.lastSync + 200 + 100 * k]
          faults := s.spine.faults ++ [⟨s.myPos, 0, 0x08, s.spine.lastSync + 200 + 100 * k, 0xFFFF⟩] }
      ∧ Ctrs.get t.cle.ctrs 9 = min (Ctrs.get s.cle.ctrs 9 + 1) ctrMax)
  ∧ (∀ (s : State) (p k : Nat) (ks : List Nat), s.spine.stag = false → s.spine.parent = some p → s.linkSet p = k :: ks →
    ∃ t, exec .statusReport s = .next t ∧ t.spine = (noteReady s).spine
      ∧ (s.links.isolated = false → ∃ q, SMap.getD (t.link k).queues 0 [] = SMap.getD (s.link k).queues 0 [] ++ [q]
        ∧ skindOf q = 2 ∧ q.dstPos = p ∧ q.data.take 31 = (noteReady s).aggregate.bytes)
      ∧ { t with spine := s.spine, links := s.links } = s)
  ∧ (∀ (s : State) (m : Nat), s.spine.stag = true → s.spine.running = true → s.spine.newStag = true → s.spine.faults = [] →
    (noteReady s).aggregate.count = s.herdSize → (noteReady s).aggregate.applied = m → s.spine.committed = some m →
    ∃ t, exec .statusReport s = .next t
      ∧ t.spine = { (noteReady s).spine with
          newStag := false, seen := s.spine.seen ++ [(s.spine.gen, 3, m, (s.spine.tick + s.spine.spineRound) % 2 ^ 48)] }
      ∧ SentOn s t s.activeLinks 3 (commitBytes m s.spine.commitTick ((s.spine.tick + s.spine.spineRound) % 2 ^ 48) 0)
      ∧ { t with spine := s.spine, links := s.links } = s)
  ∧ (∀ (s : State) (l : Fin 32) (p : Packet), ArrivesOn s l p 1 → skindOf p = 2 → s.spine.stag = false → Calm s →
    ∃ t, exec (.status l p) s = .next t
      ∧ SMap.lookup t.spine.children p.srcPos = some (StatusRec.of p.data)
      ∧ (∀ k, k ≠ p.srcPos → SMap.lookup t.spine.children k = SMap.lookup s.spine.children k)
      ∧ t.spine.readyTick = (if s.isReady then some (s.spine.readyTick.getD s.spine.tick) else none)
      ∧ { t with spine := { t.spine with children := s.spine.children, readyTick := s.spine.readyTick } } = s)
  ∧ (∀ (s : State) (a : StatusRec) (sn c : Nat), s.spine.stag = true → s.spine.running = true → s.spine.newStag = false →
    s.spine.faults = [] → s.spine.started = true → a = (noteReady s).aggregate →
    sn = (s.spine.fTick + (s.spine.sched.map (·.commitOffset)).getD 0) % 2 ^ 48 → c = max sn (a.readyTick + 1) % 2 ^ 48 →
    a.count = s.herdSize → a.ready = true → c ≤ a.clean + 1 → c ≤ s.spine.tick → s.spine.stopAfter ≠ some s.spine.step →
    NoRequests s →
    ∃ t, exec .commitDecide s = .next t ∧ t.spine.committed = some s.spine.step ∧ t.spine.commitTick = c
      ∧ t.spine.step = s.spine.step + 1 ∧ t.spine.started = false
      ∧ t.spine.fTick = (s.spine.tick + roundOf a.pathNs) % 2 ^ 48
      ∧ (∀ k, SMap.getD t.spine.lateCommit k (0, 0) = if k = a.lastPos ∧ sn < c then
          ((SMap.getD s.spine.lateCommit k (0, 0)).1 + 1, (SMap.getD s.spine.lateCommit k (0, 0)).2 + (c - sn))
          else SMap.getD s.spine.lateCommit k (0, 0)))
  ∧ (∀ (s : State) (l : Fin 32) (p : Packet) (n c f : Nat), n = fieldAt p.data 0 8 → c = fieldAt p.data 8 6 →
    f = fieldAt p.data 14 6 → OrderOn s l p 3 n f → Calm s →
    (s.spine.running = true → s.spine.step = n → s.spine.tick ≤ f → NoRequests s →
      ∃ t, exec (.commit l p) s = .next t ∧ t.spine.committed = some n ∧ t.spine.commitTick = c ∧ t.spine.step = n + 1
        ∧ t.spine.started = false ∧ t.spine.readyTick = none ∧ t.spine.fTick = f)
    ∧ (s.spine.running = false → s.rse.takeover = none → s.spine.sched.isSome = true →
      ∃ t, exec (.commit l p) s = .next t ∧ t.spine.running = true ∧ t.spine.step = (n + 1) % 2 ^ 64 ∧ t.spine.fTick = f
        ∧ t.spine.started = false ∧ t.spine.readyTick = none ∧ t.rse.window = 0 ∧ t.rse.replays = 0)
    ∧ (s.spine.running = false → s.rse.takeover = none → s.spine.sched = none →
      ∃ t, exec (.commit l p) s = .next t
        ∧ t.spine = { s.spine with
            seen := s.spine.seen ++ [(s.spine.gen, 3, n, f)], step := (n + 1) % 2 ^ 64, committed := some n, commitTick := c }
        ∧ SentOn s t (s.activeLinks.filter (· != l.val)) 3 p.data
        ∧ { t with spine := s.spine, links := s.links } = s))
  ∧ (∀ s : State, s.spine.running = true → s.spine.started = false → s.rse.window = 0 → s.spine.fTick ≤ s.spine.tick →
    s.cle.heldPkts = [] → Calm s →
    ∃ t, exec .stepStart s = .next t ∧ t.spine.started = true ∧ t.spine.readyTick = none ∧ t.spine.running = true
      ∧ t.spine.step = s.spine.step ∧ t.rse.window = 0 ∧ t.rse.restoring = false
      ∧ (∀ k x, s.chan k = some x → x.startsIn s.spine.step = true →
          ∃ y, t.chan k = some y ∧ y.started = true ∧ y.startStep = x.stepIndex s.spine.step))

/-- FAULT, REWIND, STOP and REBIND, the end of a restoration, the start of a replay and the step's watchdog (R402, R420,
R421, R430, R431, R498 to R500). -/
def Obligations.SpineOrdersTakeEffect : Prop :=
  (∀ (s : State) (l : Fin 32) (p : Packet) (f : FaultRec), ArrivesOn s l p 1 → skindOf p = 6 → s.spine.running = true →
    f = ⟨fieldAt p.data 6 2, fieldAt p.data 8 1, fieldAt p.data 9 1, fieldAt p.data 0 6, 0xFFFF⟩ →
    (s.spine.stag = true → s.spine.newStag = true →
      ∃ t, exec (.fault l p) s = .next t ∧ t.spine = { s.spine with faults := s.spine.faults ++ [f] }
        ∧ { t with spine := s.spine } = s)
    ∧ (∀ q k ks, s.spine.stag = false → s.spine.parent = some q → s.linkSet q = k :: ks → Calm s →
      ∃ t, exec (.fault l p) s = .next t
        ∧ (s.links.isolated = false → ∃ r, SMap.getD (t.link k).queues 0 [] = SMap.getD (s.link k).queues 0 [] ++ [r]
          ∧ skindOf r = 6 ∧ r.dstPos = q ∧ r.data.take 12 = faultBytes f (fieldAt p.data 10 2))
        ∧ { t with links := s.links } = s)
    ∧ (∀ m fp, s.spine.stag = true → s.spine.newStag = false → s.spine.faults = [] → f.cls ≤ 1 →
      s.spine.answered ≤ f.stamp → s.rse.window = 0 → s.rse.replays < s.rse.limits.replay → s.rse.repairs = [] →
      NoRequests s → m = s.lastCommit → s.spine.step ≠ m →
      fp = max (s.spine.tick + s.spine.spineRound + s.spine.rewindTicks) (s.spine.answered + 1) % 2 ^ 48 →
      ∃ t, exec (.fault l p) s = .next t ∧ t.spine.step = (m + 1) % 2 ^ 64 ∧ t.spine.fTick = fp ∧ t.spine.answered = fp
        ∧ t.spine.started = false ∧ t.rse.window = 1 ∧ t.rse.winCommit = m ∧ t.rse.fPrime = fp ∧ t.rse.winFault = some f
        ∧ t.rse.replays = s.rse.replays + 1 ∧ t.rse.restoring = true
        ∧ SentOn s t s.activeLinks 4 (rewindBytes m s.spine.commitTick fp f)))
  ∧ (∀ (s : State) (l : Fin 32) (p : Packet) (m fp : Nat), m = fieldAt p.data 0 8 → fp = fieldAt p.data 14 6 →
    OrderOn s l p 4 m fp → s.spine.running = true → s.rse.window ≠ 2 → s.spine.step ≠ m → s.rse.repairs = [] →
    NoRequests s → Calm s →
    ∃ t, exec (.rewind l p) s = .next t
      ∧ t.spine = { s.spine with
          seen := s.spine.seen ++ [(s.spine.gen, 4, m, fp)], started := false, readyTick := none, step := (m + 1) % 2 ^ 64
          fTick := fp, answered := fp, stamps := s.spine.stamps.filter fun t => decide (fp ≤ t) }
      ∧ t.rse.window = 1 ∧ t.rse.winCommit = m ∧ t.rse.fPrime = fp ∧ t.rse.replays = s.rse.replays + 1
      ∧ t.rse.restoring = true ∧ t.rse.late = false
      ∧ Ctrs.get t.cle.ctrs 6 = min (Ctrs.get s.cle.ctrs 6 + 1) ctrMax
      ∧ SentOn s t (s.activeLinks.filter (· != l.val)) 4 p.data)
  ∧ (∀ (s : State) (l : Fin 32) (p : Packet) (m : Nat), m = fieldAt p.data 0 8 → OrderOn s l p 5 m 0 →
    s.spine.running = true → s.spine.step ≠ m → (orderFault p.data).cls ≠ 2 → s.ptu.lostLenders = [] → NoRequests s →
    Calm s →
    ∃ t, exec (.stop l p) s = .next t
      ∧ t.spine = { s.spine with
          seen := s.spine.seen ++ [(s.spine.gen, 5, m, 0)], started := false, readyTick := none, running := false
          stamps := [], stopAfter := none, faults := [] }
      ∧ t.rse.window = 3 ∧ t.rse.winCommit = m ∧ t.rse.restoring = false ∧ t.rse.takeover = none
      ∧ (∀ k x, s.chan k = some x → x.running = true →
          ∃ y, t.chan k = some y ∧ y.runState = (if x.faultKind = 0 then 6 else 5) ∧ y.started = false)
      ∧ SentOn s t (s.activeLinks.filter (· != l.val)) 5 p.data)
  ∧ (∀ (s : State) (l : Fin 32) (p : Packet) (pos f g : Nat), pos = fieldAt p.data 0 2 → f = fieldAt p.data 2 2 →
    g = fieldAt p.data 4 4 → OrderOn s l p 7 g 0 → s.spine.running = true → s.rse.window = 0 → s.myPos ≠ f → Calm s →
    ∃ t, exec (.rebind l p) s = .next t
      ∧ t.links.rebinds = (s.links.rebinds.filter fun r => r.1 != pos) ++ [(pos, f)]
      ∧ t.links.standIns = (s.links.standIns.filter fun r => r.1 != pos) ++ [(pos, f)]
      ∧ t.links.table = s.links.table.map (fun (x : PosTable) => { x with gen := g })
      ∧ (∀ q, q ∈ t.links.lostPos ↔ q ∈ s.links.lostPos ∧ q ≠ pos)
      ∧ (∀ q, q ∈ t.ptu.lostLenders ↔ q ∈ s.ptu.lostLenders ∨ q = pos)
      ∧ t.rse.window = 2 ∧ t.rse.winCommit = s.lastCommit
      ∧ t.hif.intCause.getLsbD Cause.linkEvent = true ∧ t.hif.intCause.getLsbD Cause.recovery = true
      ∧ SentOn s t (s.activeLinks.filter (· != l.val)) 7 p.data)
  ∧ (∀ s : State, s.rse.window = 1 → s.rse.restoring = true → s.rse.repairs = [] →
    (s.rse.late = false →
      ∃ t, exec .restoreComplete s = .next t ∧ t.rse.restoring = false
        ∧ { t with rse := { t.rse with restoring := true } } = s)
    ∧ (s.rse.late = true → s.cle.heldPkts = [] → Calm s →
      ∃ t, exec .restoreComplete s = .next t ∧ t.rse.restoring = false ∧ t.rse.late = false ∧ t.rse.window = 0
        ∧ t.spine.started = true ∧ Ctrs.get t.rse.ctrs 7 = min (Ctrs.get s.rse.ctrs 7 + 1) ctrMax))
  ∧ (∀ s : State, s.rse.window = 1 → s.spine.running = true → s.spine.started = false → s.spine.fTick ≤ s.spine.tick →
    (s.rse.restoring = true →
      ∃ t, exec .replayStart s = .next t ∧ t.rse.late = true ∧ { t with rse := { t.rse with late := s.rse.late } } = s)
    ∧ (s.rse.restoring = false → s.cle.heldPkts = [] → Calm s →
      ∃ t, exec .replayStart s = .next t ∧ t.spine.started = true ∧ t.spine.readyTick = none ∧ t.rse.window = 0))
  ∧ (∀ (s : State) (c : Fin 4096) (x : Chan) (w : Nat), s.chan c = some x → s.spine.running = true →
    s.spine.started = true → x.running = true → x.started = true → (x.header.map (·.periodic)).getD false = true →
    s.chanDone x = false →
    w = (if s.rse.limits.watchdog = 0 then 2 * (s.spine.sched.map (·.commitOffset)).getD 0 else s.rse.limits.watchdog) →
    s.spine.fTick + w ≤ s.spine.tick → s.spine.stag = true → s.spine.newStag = true →
    ∃ t, exec (.stepWatchdog c) s = .next t
      ∧ t.spine = { s.spine with
          stamps := s.spine.stamps ++ [s.spine.tick]
          faults := s.spine.faults ++ [⟨s.myPos, 0, 0x0A, s.spine.tick, c⟩] }
      ∧ { t with spine := s.spine, rse := s.rse, hif := s.hif, out := s.out } = s)

/-- The collective engine: entries start, sections admit chunks, data go up and down, entries are sealed or aborted, and
chunks are formed (R434, R439 to R451). -/
def Obligations.CollectiveEventsTakeEffect : Prop :=
  (∀ (s : State) (entry k due : Nat) (r : Run) (e : Entry), s.spine.running = true → s.spine.started = true →
    s.runsOf entry = [k] → SMap.lookup s.cle.runs k = some r → s.entryOf k = some e → r.started = false → r.summed = false →
    due = s.spine.fTick + (if k < 4096 then e.start else 0) → due ≤ s.spine.tick → Calm s →
    ((∃ q ∈ (s.nodeFor e 0).kids, SMap.lookup r.kids q = none) →
      ∃ t, exec (.collectiveEntryStart entry) s = .next t ∧ SMap.lookup t.cle.runs k = some { r with started := true }
        ∧ (∀ i, i ≠ k → SMap.lookup t.cle.runs i = SMap.lookup s.cle.runs i)
        ∧ { t with cle := { t.cle with runs := s.cle.runs } } = s)
    ∧ (∀ q, (∀ c ∈ (s.nodeFor e 0).kids, (SMap.lookup r.kids c).isSome = true) → (s.nodeFor e 0).up = some q →
      ∃ t, exec (.collectiveEntryStart entry) s = .next t
        ∧ SMap.lookup t.cle.runs k = some { r with started := true, summed := true }
        ∧ CollSent s t (s.posAt e (s.nodeFor e 0) q) 3
        ∧ { t with cle := { t.cle with runs := s.cle.runs }, links := s.links } = s))
  ∧ (∀ (s : State) (sect : Fin 4) (k j : Nat) (e : Entry) (r : Run), s.nextChunk sect = some (k, e, r, j) →
    RunOpen s k e r → s.claimed sect + s.claimOf e r j ≤ sectionBytes → Calm s →
    ∃ t y, exec (.chunkAdmit sect) s = .next t ∧ SMap.lookup t.cle.runs k = some y ∧ (y.chunk j).admitted = true
      ∧ (∀ i, i ≠ j → y.chunk i = r.chunk i)
      ∧ (e.op ≠ 7 → ∀ q ∈ (s.nodeAt e j).kids, CollSent s t (s.posAt e (s.nodeAt e j) q) 2))
  ∧ (∀ (s : State) (l : Fin 32) (p : Packet) (k j : Nat) (e : Entry) (r : Run), CollOn s l p 2 k → RunOpen s k e r →
    e.op ≠ 6 → j = fieldAt p.data 4 4 →
    (s.nodeAt e j).up = some (relRank (s.groupSize e) (s.nodeAt e j).root (fieldAt p.data 12 2)) → Calm s →
    ∃ t y, exec (.credit l p) s = .next t ∧ SMap.lookup t.cle.runs k = some y ∧ (y.chunk j).credit = true
      ∧ ∀ i, i ≠ j → y.chunk i = r.chunk i)
  ∧ (∀ (s : State) (l : Fin 32) (p : Packet) (k j off n q : Nat) (e : Entry) (r : Run) (vs : List Machine.Num) (c : Chunk),
    CollOn s l p 0 k → RunOpen s k e r → j = fieldAt p.data 4 4 → off = fieldAt p.data 8 4 → c = r.chunk j →
    n = (e.chunkSpan (s.groupSize e) j).2 → q = relRank (s.groupSize e) (s.nodeAt e j).root (fieldAt p.data 12 2) →
    q ∈ (s.nodeAt e j).kids → j < e.chunkCount (s.groupSize e) → e.op ≠ 6 → c.valued = false → c.done = false →
    vs = wireDecode r.fmt r.texp (elemsIn r.fmt false (p.data.drop 16).length (n - off)) (p.data.drop 16) → Calm s →
    (c.admitted = false →
      ∃ t y, exec (.upData l p) s = .next t ∧ SMap.lookup t.cle.runs k = some y
        ∧ SMap.getD (y.chunk j).kids q [] = valueMap off vs (SMap.getD c.kids q [])
        ∧ (∀ i, i ≠ q → SMap.getD (y.chunk j).kids i [] = SMap.getD c.kids i [])
        ∧ (y.chunk j).valued = false ∧ ∀ i, i ≠ j → y.chunk i = r.chunk i)
    ∧ (c.admitted = true → (s.nodeAt e j).up = none → (e.op = 1 ∨ e.op = 3) →
      (r.step ≠ s.spine.step ∨ s.bindsFor k (e.chunkSpan (s.groupSize e) j).1 n = []) →
      (∀ i ∈ (s.nodeAt e j).kids, n ≤ (if i = q then valueMap off vs (SMap.getD c.kids q []) else SMap.getD c.kids i []).length) →
      ∃ t y, exec (.upData l p) s = .next t ∧ SMap.lookup t.cle.runs k = some y
        ∧ (y.chunk j).valued = true ∧ (y.chunk j).done = true
        ∧ (y.chunk j).result = nodeValues e.red n s.draw.1
            (c.own.map (·.2) ++ (SMap.updD c.kids [] q (valueMap off vs)).map (·.2))
        ∧ ∀ i, i ≠ j → y.chunk i = r.chunk i))
  ∧ (∀ (s : State) (l : Fin 32) (p : Packet) (i : Instr) (k j off n m : Nat) (e : Entry) (r : Run) (c : Chunk)
      (d : SMap Machine.Num),
    (i = .downData l p ∧ p.cls = 2 ∧ e.op ≠ 6 ∨ i = .pipelineTransfer l p ∧ p.cls = 3 ∧ e.op = 7) →
    CollOn s l p 1 k → RunOpen s k e r → j = fieldAt p.data 4 4 → off = fieldAt p.data 8 4 → c = r.chunk j →
    n = (e.chunkSpan (s.groupSize e) j).2 → (fieldAt p.cword 5 1).testBit 0 = false → c.done = false →
    (s.nodeAt e j).up = some (relRank (s.groupSize e) (s.nodeAt e j).root (fieldAt p.data 12 2)) →
    (s.nodeAt e j).q ≠ 0 → j < e.chunkCount (s.groupSize e) →
    m = elemsIn r.fmt false (p.data.drop 16).length (n - off) →
    d = valueMap off (wireDecode r.fmt r.texp m ((p.data.drop 16).take (wireLen r.fmt m))) c.down → Calm s →
    (c.admitted = false →
      ∃ t y, exec i s = .next t ∧ SMap.lookup t.cle.runs k = some y ∧ (y.chunk j).down = d ∧ (y.chunk j).done = false
        ∧ (∀ a, a ≠ j → y.chunk a = r.chunk a)
        ∧ ∀ q ∈ (s.nodeAt e j).kids, CollSent s t (s.posAt e (s.nodeAt e j) q) 1)
    ∧ (c.admitted = true → n ≤ d.length → (e.op = 4 ∨ e.op = 5 ∨ e.op = 7) →
      ∃ t y, exec i s = .next t ∧ SMap.lookup t.cle.runs k = some y ∧ (y.chunk j).valued = true ∧ (y.chunk j).done = true
        ∧ (y.chunk j).result = (List.range n).map (fun a => SMap.getD d a (.fin false 0 0)) ∧ (y.chunk j).down = []
        ∧ (∀ a, a ≠ j → y.chunk a = r.chunk a)
        ∧ ∀ q ∈ (s.nodeAt e j).kids, CollSent s t (s.posAt e (s.nodeAt e j) q) 1))
  ∧ (∀ (s : State) (l : Fin 32) (p : Packet) (k q : Nat) (e : Entry) (r : Run) (tr : List Triple × Bool), CollOn s l p 3 k →
    SMap.lookup s.cle.runs k = some r → s.entryOf k = some e → q = relRank (s.groupSize e) 0 (fieldAt p.data 12 2) →
    q ∈ (s.nodeFor e 0).kids → tr = triplesOf (p.data.drop 16) → Calm s →
    (r.started = false →
      ∃ t, exec (.sealSummary l p) s = .next t
        ∧ SMap.lookup t.cle.runs k = some { r with kids := SMap.put r.kids q tr.1, overflow := r.overflow || tr.2 }
        ∧ { t with cle := { t.cle with runs := s.cle.runs } } = s)
    ∧ (r.started = true → r.summed = false → (s.nodeFor e 0).up = none →
      (∀ c ∈ (s.nodeFor e 0).kids, c ≠ q → (SMap.lookup r.kids c).isSome = true) →
      (mergeTriples ([⟨s.digest e r, 1, s.myPos⟩] :: (SMap.put r.kids q tr.1).map (·.2)) (r.overflow || tr.2)).1.length = 1 →
      ∃ t y, exec (.sealSummary l p) s = .next t ∧ SMap.lookup t.cle.runs k = some y ∧ y.summed = true ∧ y.sealed = true
        ∧ y.aborted = r.aborted ∧ ∀ c ∈ (s.nodeFor e 0).kids, CollSent s t (s.posAt e (s.nodeFor e 0) c) 4))
  ∧ (∀ (s : State) (l : Fin 32) (p : Packet) (k : Nat) (e : Entry) (r : Run), CollOn s l p 4 k →
    SMap.lookup s.cle.runs k = some r → s.entryOf k = some e →
    (s.nodeFor e 0).up = some (relRank (s.groupSize e) 0 (fieldAt p.data 12 2)) → r.sealed = false → r.aborted = false →
    Calm s →
    ∃ t y, exec (.seal l p) s = .next t ∧ SMap.lookup t.cle.runs k = some y ∧ y.sealed = true
      ∧ (∀ j c, SMap.lookup r.chunks j = some c → c.done = true → (y.chunk j).closed = true)
      ∧ (∀ q ∈ (s.nodeFor e 0).kids, CollSent s t (s.posAt e (s.nodeFor e 0) q) 4)
      ∧ ∀ j c pa data, r.chunks = [(j, c)] → c.done = true → c.closed = false → c.statRes = none →
        (∀ i ∈ s.cle.runs, ∀ x, s.entryOf i.1 = some x → x.op ≠ 6) →
        data = c.result.flatMap (fun v => natLe (if e.outfmt = 1 then 2 else 4) (scalarEncode e.outfmt true .rne 0 v).1) →
        s.vaPa (s.entryPart e) (e.dst + dstOffset e (s.groupSize e) (e.chunkSpan (s.groupSize e) j).1) = some pa →
        pa % pageSize + data.length ≤ pageSize → Mem.readN t.mem.bytes pa data.length = data)
  ∧ (∀ (s : State) (l : Fin 32) (p : Packet) (k : Nat) (e : Entry) (r : Run), CollOn s l p 5 k →
    SMap.lookup s.cle.runs k = some r → s.entryOf k = some e →
    (s.nodeFor e 0).up = some (relRank (s.groupSize e) 0 (fieldAt p.data 12 2)) → r.sealed = false → r.aborted = false →
    s.spine.newStag = true →
    ∃ t, exec (.abortEntry l p) s = .next t
      ∧ SMap.lookup t.cle.runs k = some { r with aborted := true, chunks := [] }
      ∧ t.cle.abort = some ⟨e.group, e.ordinal, r.step % 2 ^ 40 * 2 ^ 24 + e.ordinal % 2 ^ 24, fieldAt (p.data.drop 16) 0 2,
          (triplesOf (p.data.drop 24)).1⟩
      ∧ Ctrs.get t.cle.ctrs 2 = min (Ctrs.get s.cle.ctrs 2 + 1) ctrMax
      ∧ (∀ q ∈ (s.nodeFor e 0).kids, CollSent s t (s.posAt e (s.nodeFor e 0) q) 5) ∧ t.mem = s.mem)
  ∧ (∀ (s : State) (entry k j n : Nat) (e : Entry) (r : Run) (c : Chunk), s.runsOf entry = [k] → RunOpen s k e r →
    c = r.chunk j → n = (e.chunkSpan (s.groupSize e) j).2 → (s.nodeAt e j).up = none → (e.op = 1 ∨ e.op = 3) →
    c.admitted = true → c.valued = false → c.done = false →
    (r.step = s.spine.step → k < 4096 → c.covered (s.bindsFor k (e.chunkSpan (s.groupSize e) j).1 n) = true) →
    (∀ q ∈ (s.nodeAt e j).kids, n ≤ (SMap.getD c.kids q []).length) → Calm s →
    ∃ t y, exec (.chunkComplete entry j) s = .next t ∧ SMap.lookup t.cle.runs k = some y
      ∧ (y.chunk j).valued = true ∧ (y.chunk j).done = true
      ∧ (y.chunk j).result = nodeValues e.red n s.draw.1 (c.own.map (·.2) ++ c.kids.map (·.2))
      ∧ (y.chunk j).own = [] ∧ (y.chunk j).kids = [] ∧ ∀ i, i ≠ j → y.chunk i = r.chunk i)

/-- Repair of mirror blocks, the takeover by a Fawn, the end of a scrub, injected link drops, and fatal events (R513 to
R520, R522, R524, R525, R530, R587, R601). -/
def Obligations.ResilienceEventsTakeEffect : Prop :=
  (∀ (s u : State) (mirror : Bool) (block : Nat) (data : List Byte), (mirror, block) ∈ s.rse.repairs →
    u = writeBlock s.rse.mirror.part (blockPieces (s.bankAt mirror).1 (s.bankAt mirror).2 block) (padTo 49664 data) s → Calm s →
    ∃ t, exec (.retainedRepair mirror block data false) s = .next t
      ∧ (∀ r, r ∈ t.rse.repairs ↔ r ∈ u.rse.repairs ∧ r ≠ (mirror, block))
      ∧ Ctrs.get t.rse.ctrs 3 = min (Ctrs.get u.rse.ctrs 3 + 1) ctrMax ∧ { t with rse := u.rse } = u)
  ∧ (∀ (s s' : State) (l : Fin 32) (mirror bad : Bool) (k : Nat) (ks : List Nat) (b : Nat × Nat) (d : List Byte),
    s.peerOf l ≠ 0xFFFF → (if mirror then s.rse.mirror.twinPos else s.rse.mirror.mirrorOf) = s.peerOf l →
    (s.link l).st = 3 → s.linkSet (s.peerOf l) = k :: ks → s.links.isolated = false → b = s.bankAt (!mirror) →
    4096 ≤ bankBytes b.2 →
    vaRead s.rse.mirror.part b.1 (bankBytes b.2) s = (d, bad, s') → Calm s →
    ∃ t q rest, exec (.stateRequest l (.state mirror)) s = .next t
      ∧ SMap.getD (t.link k).queues 3 [] = SMap.getD (s'.link k).queues 3 [] ++ q :: rest
      ∧ q.cls = 8 ∧ q.srcPos = s.myPos ∧ q.dstPos = s.peerOf l ∧ q.cword = padTo 8 []
      ∧ q.data = d.take 4096)
  ∧ (∀ (s s' : State) (l : Fin 32) (mirror bad : Bool) (n k : Nat) (ks : List Nat) (b : Nat × Nat) (d : List Byte),
    s.peerOf l ≠ 0xFFFF → (if mirror then s.rse.mirror.twinPos else s.rse.mirror.mirrorOf) = s.peerOf l →
    (s.link l).st = 3 → s.linkSet (s.peerOf l) = k :: ks → s.links.isolated = false → b = s.bankAt (!mirror) →
    8192 * (n + 1) ≤ b.2 → vaRead s.rse.mirror.part (b.1 + 32768 * n) 32768 s = (d, bad, s') → Calm s →
    ∃ t q rest, exec (.stateRequest l (.block mirror n)) s = .next t
      ∧ SMap.getD (t.link k).queues 3 [] = SMap.getD (s'.link k).queues 3 [] ++ q :: rest
      ∧ q.cls = 8 ∧ q.srcPos = s.myPos ∧ q.dstPos = s.peerOf l ∧ q.cword = padTo 8 (natLe 6 (32768 * n))
      ∧ q.data = d.take 4096)
  ∧ (∀ (s : State) (l : Fin 32) (p : Packet) (x : Takeover) (y : Stream) (mirror : Bool), ArrivesOn s l p 8 →
    s.taking = some x → x.manifestDone = true → s.streamOf x p.srcPos = some mirror →
    y = (if mirror then x.mirror else x.own) → Calm s →
    (fieldAt p.cword 6 1 = 1 →
      ∃ t, exec (.stateTransferPacket l p) s = .next t
        ∧ t.rse.takeover = some (if mirror
            then { x with mirror := { y with bytes := y.bytes + p.data.length, part1 := putPart y.part1 (fieldAt p.cword 0 6) p.data } }
            else { x with own := { y with bytes := y.bytes + p.data.length, part1 := putPart y.part1 (fieldAt p.cword 0 6) p.data } })
        ∧ { t with rse := s.rse } = s)
    ∧ (∀ pa, fieldAt p.cword 6 1 = 0 → fieldAt p.cword 0 6 + p.data.length ≤ bankBytes (s.bankAt mirror).2 →
      s.vaPa s.rse.mirror.part ((s.bankAt mirror).1 + fieldAt p.cword 0 6) = some pa →
      pa % pageSize + p.data.length ≤ pageSize →
      ∃ t, exec (.stateTransferPacket l p) s = .next t ∧ Mem.readN t.mem.bytes pa p.data.length = p.data
        ∧ t.rse.takeover = some (if mirror then { x with mirror := { y with bytes := y.bytes + p.data.length } }
            else { x with own := { y with bytes := y.bytes + p.data.length } })))
  ∧ (∀ (s : State) (l : Fin 32) (p : Packet) (mirror : Bool) (pa : Nat), ArrivesOn s l p 8 → s.taking = none →
    s.repairAt p.srcPos (fieldAt p.cword 0 6) = some mirror → fieldAt p.cword 6 1 = 0 →
    s.vaPa s.rse.mirror.part ((s.bankAt mirror).1 + fieldAt p.cword 0 6) = some pa → pa % pageSize + p.data.length ≤ pageSize →
    Calm s →
    ∃ t, exec (.stateTransferPacket l p) s = .next t ∧ Mem.readN t.mem.bytes pa p.data.length = p.data
      ∧ t.rse.repairs = s.rse.repairs ∧ t.rse.takeover = s.rse.takeover)
  ∧ (∀ (s s' : State) (x : Takeover), s.taking = some x → x.manifestDone = false → runManifest x.pos s = .waits s' → Calm s' →
    exec .manifestComplete s = .next s')
  ∧ (∀ (s s' : State) (x : Takeover), s.taking = some x → x.manifestDone = false → runManifest x.pos s = .ran s' →
    s'.rse.mirror.twinPos ≠ 0xFFFF → s'.rse.mirror.mirrorOf ≠ 0xFFFF → Calm s' →
    ∃ t, exec .manifestComplete s = .next t
      ∧ t.out = s'.out ++ [.stateRequest s'.rse.mirror.twinPos false, .stateRequest s'.rse.mirror.mirrorOf true]
      ∧ t.rse.takeover = s'.rse.takeover.map (fun (y : Takeover) =>
          { y with manifestDone := true, mirror := { y.mirror with done := false } })
      ∧ { t with rse := s'.rse, out := s'.out } = s')
  ∧ (∀ (s s' : State) (mirror bad : Bool) (x : Takeover) (y : Stream) (d : List Byte), s.taking = some x →
    y = (if mirror then x.mirror else x.own) → x.manifestDone = true → y.done = false →
    vaRead s.rse.mirror.part (s.bankAt mirror).1 (bankBytes (s.bankAt mirror).2) s = (d, bad, s') →
    s'.rse.takeover = s.rse.takeover → Calm s' →
    (sha3 (d ++ y.part1 ++ y.part2) = y.part3 → (if mirror then x.own else x.mirror).done = false →
      ∃ t, exec (.takeoverStreamComplete mirror) s = .next t
        ∧ t.rse.takeover = some (if mirror then { x with mirror := { y with done := true } }
            else { x with own := { y with done := true } })
        ∧ (mirror = true → t.rse.ownerC = y.part1.take (64 + 8 * ((y.part1.length - 64) / 72)))
        ∧ (mirror = false → t.ige.retained = IgeState.of y.part1 ∧ t.ige.cur = IgeState.of y.part1))
    ∧ (sha3 (d ++ y.part1 ++ y.part2) = y.part3 → (if mirror then x.own else x.mirror).done = true →
      ∃ t r, exec (.takeoverStreamComplete mirror) s = .next t ∧ t.rse.takeover = none ∧ t.rse.takeoverRec = some r
        ∧ r.pos = x.pos ∧ r.former = x.former ∧ r.gen = x.gen ∧ r.commit = x.commit ∧ r.lostTick = x.lostTick
        ∧ r.readyTick = s'.spine.tick ∧ r.result = 0 ∧ r.pulled = x.own.bytes + x.mirror.bytes)
    ∧ (sha3 (d ++ y.part1 ++ y.part2) ≠ y.part3 → y.retried = false →
      ∃ t, exec (.takeoverStreamComplete mirror) s = .next t
        ∧ t.out = s'.out ++ [.stateRequest (if mirror then s'.rse.mirror.mirrorOf else s'.rse.mirror.twinPos) mirror]
        ∧ t.rse.takeover = some (if mirror then { x with mirror := { Stream.reset with retried := true, bytes := y.bytes } }
            else { x with own := { Stream.reset with retried := true, bytes := y.bytes } })
        ∧ { t with rse := s'.rse, out := s'.out } = s'))
  ∧ (∀ (s : State) (x : Takeover), s.rse.window = 2 → s.rse.takeover = some x → x.failed = false → s.rse.ordered = none →
    s.spine.stag = false → Calm s →
    ∃ t, exec .takeoverBoundExpiry s = .next t ∧ t.rse.takeover = some { x with failed := true }
      ∧ t.rse.takeoverRec = some ⟨x.pos, x.former, x.gen, x.commit, x.lostTick, 0, 0, 5, 0, 0, x.own.bytes + x.mirror.bytes⟩)
  ∧ (∀ (s : State) (o : Nat × Nat), s.rse.window = 2 → s.rse.takeover = none → s.rse.ordered = some o →
    s.spine.stag = true → s.spine.running = true → s.spine.newStag = true → s.ptu.lostLenders = [] →
    ∃ t, exec .takeoverBoundExpiry s = .next t ∧ t.spine.running = false ∧ t.rse.window = 3
      ∧ t.rse.takeoverRec = some ⟨o.1, 0xFFFF, (s.links.table.map (·.gen)).getD 0, s.lastCommit, o.2, 0, 0, 5, 0, 0, 0⟩)
  ∧ (∀ (s s' : State) (x : Scrub) (r : Scrub × State), s.rse.scrub = some x → x.state = 1 →
    r = scrubTo (x.len / pageSize) x s → endScrub r.1 2 r.2 = .ok s' → Calm s' →
    ∃ t, exec .scrubComplete s = .next t ∧ t = s' ∧ r.1.granules = max x.granules (x.len / pageSize))
  ∧ (∀ (s : State) (slot : Fin 16) (e : Inj), SMap.lookup s.rse.inj slot = some e → e.site = 9 → e.active = false →
    e.after ≤ s.spine.tick →
    ((∀ l, l < 32 → e.loc.testBit l = true → (s.link l).st ≠ 3) → Calm s →
      ∃ t, exec (.injectLinkDrop slot) s = .next t ∧ SMap.lookup t.rse.inj slot = some { e with active := true }
        ∧ (∀ l, l < 32 → t.link l = if e.loc.testBit l then { s.link l with dropped := true, signal := false } else s.link l)
        ∧ Ctrs.get t.rse.ctrs 10 = min (Ctrs.get s.rse.ctrs 10 + 1) ctrMax)
    ∧ (∀ l, l < 32 → e.loc = 2 ^ l → (s.link l).st = 3 → Still s →
      ∃ t, exec (.injectLinkDrop slot) s = .next t ∧ SMap.lookup t.rse.inj slot = some { e with active := true }
        ∧ t.link l = { ({ s.link l with dropped := true } : Link).fresh 4 with
            outSince := some s.spine.tick, signal := false, ctrs := Ctrs.sat (s.link l).ctrs 7 1 }))
  ∧ (∀ (s : State) (slot : Fin 16) (e : Inj), SMap.lookup s.rse.inj slot = some e → e.site = 9 → e.active = true →
    ∃ t, exec (.injectLinkDropEnd slot) s = .next t ∧ SMap.lookup t.rse.inj slot = none
      ∧ (∀ k, k ≠ slot.val → SMap.lookup t.rse.inj k = SMap.lookup s.rse.inj k)
      ∧ (∀ l, l < 32 → t.link l = if e.loc.testBit l then { s.link l with dropped := false } else s.link l)
      ∧ t.out = s.out ++ ((bitsOf 32 e.loc).filter fun l =>
          (s.link l).dropped && ((s.link l).st == 1 || (s.link l).st == 4)).map Output.pattern
      ∧ { t with rse := s.rse, links := s.links, out := s.out } = s)
  ∧ (∀ (s : State) (i : Instr) (c : Nat), (c = 3 ∧ i = .camloWatchdogExpiry ∨ ∃ f : Fin 6, c = f.val ∧ c ≠ 0 ∧ i = .fatalEvent f) →
    7 ≤ s.sys.bootStep →
    (s.rse.fatal = none → NoRequests s → Still s →
      ∃ t, exec i s = .next t ∧ t.rse.fatal = some c ∧ t.rse.dumping = true ∧ t.rse.dump.isSome = true
        ∧ t.rse.colo.valid = true ∧ t.rse.colo.cause = c ∧ t.rse.colo.seq = (s.rse.colo.seq + 1) % 2 ^ 32
        ∧ t.rse.colo.size = fullDump ∧ t.links.isolated = true ∧ t.hif.intCause.getLsbD Cause.colophon = true
        ∧ (∀ k x, s.chan k = some x → x.running = true → ∃ y, t.chan k = some y ∧ y.runState = 6))
    ∧ (s.rse.fatal ≠ none → s.rse.dumping = true → Calm s →
      ∃ t, exec i s = .next t ∧ t.rse.colo = { s.rse.colo with complete := false } ∧ t.rse.dumping = false
        ∧ { t with rse := { t.rse with colo := s.rse.colo, dumping := s.rse.dumping } } = s))
  ∧ (∀ (s : State) (d : Dump), s.rse.dumping = true → s.rse.dump = some d →
    ∃ t, exec .colophonSummaryWritten s = .next t
      ∧ SMap.lookup t.rse.slots ((s.rse.colo.slot + 1) % 16) = some d ∧ t.rse.colo.slot = (s.rse.colo.slot + 1) % 16
      ∧ t.rse.dumping = false ∧ t.pcm.diesOn = (if s.rse.fatal = some 4 then false else s.pcm.diesOn)
      ∧ { t with rse := s.rse, pcm := s.pcm } = s)

/-- The power pins, the resets and the sleep transitions (R588, R589, R619 to R629, R634, R645, R646, R655). That work which
starts during a transition keeps the device awake is the model's reading (log 134). -/
def Obligations.ResetEventsTakeEffect : Prop :=
  (∀ (s : State) (mode : Bool) (addr : BitVec 2), s.sys.pwrGood = false →
    ∃ t, exec (.pwrGoodRise mode addr) s = .next t ∧ LostAll s t
      ∧ t.sys = { Sys.reset with
          pwrGood := true, perstN := s.sys.perstN, mainGood := s.sys.mainGood, mgmtMode := mode, mgmtAddr := addr
          bootStep := if s.sys.mainGood && s.sys.perstN then 1 else 0
          xspiResetN := s.sys.mainGood && s.sys.perstN, xspiDriven := s.sys.mainGood && s.sys.perstN })
  ∧ (∀ s : State, ∃ t, exec .pwrGoodFall s = .next t ∧ LostAll s t
      ∧ t.sys = { Sys.reset with
          pwrGood := false, perstN := s.sys.perstN, mainGood := s.sys.mainGood, mgmtMode := s.sys.mgmtMode
          mgmtAddr := s.sys.mgmtAddr, bootStep := 0, xspiResetN := false, xspiDriven := false })
  ∧ (∀ s : State, s.sys.perstN = true → s.powered = true → s.pcm.sstate ≠ 3 →
    ∃ t, exec .perstAssert s = .next t ∧ t.sys.perstN = false ∧ t.sys.bootStep = 0 ∧ t.sys.ready = false
      ∧ t.sys.xspiResetN = false ∧ t.sys.xspiDriven = false
      ∧ t.sys.running = some (match s.sys.running with
          | some .pwr => .pwr
          | some .wake => .wake
          | _ => .perst)
      ∧ t.mem = Hbm.reset ∧ t.tiles = [] ∧ t.chans = Chans.reset ∧ t.hif = Hif.reset ∧ t.spine = Spine.reset ∧ t.links = Links.reset
      ∧ t.pcm = { Pcm.reset with ms := s.pcm.ms, us := s.pcm.us, events := s.pcm.events } ∧ t.flash = s.flash
      ∧ t.rse = { Rse.reset with slots := s.rse.slots, colo := s.rse.colo.afterPerst s.rse.dumping })
  ∧ (∀ s : State, s.sys.perstN = true → s.powered = true → s.pcm.sstate = 3 →
    ∃ t, exec .perstAssert s = .next t ∧ t.sys.perstN = false ∧ t.sys.waking = true ∧ { t with sys := s.sys } = s)
  ∧ (∀ s : State, ∃ t, exec .perstRelease s = .next t
      ∧ t.sys = (if s.powered && s.sys.mainEn && s.sys.bootStep == 0 then
          { s.sys with perstN := true, bootStep := 1, xspiResetN := true, xspiDriven := true }
        else { s.sys with perstN := true })
      ∧ { t with sys := s.sys } = s)
  ∧ (∀ s : State, s.sys.mainGood = true →
    (s.sys.mainEn = true → s.pcm.sstate ≠ 3 →
      ∃ t, exec .mainGoodFall s = .next t ∧ LostAll s t ∧ t.sys.mainGood = false ∧ t.sys.bootStep = 0)
    ∧ ((s.sys.mainEn = false ∨ s.pcm.sstate = 3) →
      ∃ t, exec .mainGoodFall s = .next t ∧ t.sys = { s.sys with mainGood := false, mainGoodFell := s.pcm.ms }
        ∧ { t with sys := s.sys } = s))
  ∧ (∀ s : State, s.sys.mainGood = false →
    (s.pcm.sstate = 3 → s.sys.waking = true → s.sys.mainEn = true →
      ∃ t, exec .mainGoodRise s = .next t ∧ t.sys.mainGood = true ∧ t.sys.waking = false
        ∧ t.sys.running = some (if s.sys.running = some .pwr then .pwr else .wake)
        ∧ t.sys.bootStep = (if s.sys.pwrGood && s.sys.perstN then 1 else 0) ∧ t.pcm.sstate = 0 ∧ t.mem = Hbm.reset)
    ∧ (s.pcm.sstate ≠ 3 → s.sys.pwrGood = true →
      ∃ t, exec .mainGoodRise s = .next t ∧ LostAll s t ∧ t.sys.mainGood = true
        ∧ t.sys.bootStep = (if s.sys.perstN then 1 else 0))
    ∧ ((s.pcm.sstate = 3 ∧ (s.sys.waking = false ∨ s.sys.mainEn = false) ∨ s.pcm.sstate ≠ 3 ∧ s.sys.pwrGood = false) →
      ∃ t, exec .mainGoodRise s = .next t ∧ t.sys = { s.sys with mainGood := true } ∧ { t with sys := s.sys } = s))
  ∧ (∀ s : State, s.pcm.sstate = 3 → s.sys.waking = true → s.sys.mainEn = true → s.sys.mainGood = false →
    s.sys.mainEnRose + 100 ≤ s.pcm.ms →
    ∃ t, exec .mainEnWakeTimeout s = .next t ∧ t.sys = { s.sys with mainEn := false, waking := false }
      ∧ t.pcm.events = s.pcm.events ++ [.sensor33 s.healthNow]
      ∧ { t with sys := s.sys, pcm := { t.pcm with events := s.pcm.events } } = s)
  ∧ (∀ (s : State) (i : Instr) (kind : ResetKind),
    (i = .hotReset ∧ kind = .hot ∨ i = .flr ∧ kind = .flr ∧ s.configOpen = true) → s.reachable = true →
    (s.sys.running = none → NoRequests s → (s.spine.running = false ∧ Calm s ∨ s.spine.newStag = true) →
      ∃ t, exec i s = .next t ∧ t.sys = { s.sys with cause := kind.code } ∧ t.chans = Chans.reset
        ∧ (∀ k, k < 256 → { t.tile k with ctrs := [], tfeCtrs := [] } = Tile.reset)
        ∧ t.hif.mbs = Hif.reset.mbs ∧ t.hif.ring = Hif.reset.ring ∧ t.hif.cfg = [] ∧ t.hif.msixTable = []
        ∧ t.hif.pcieWidth = (if kind = .hot then 0 else s.hif.pcieWidth) ∧ t.ige.running = false ∧ t.sec.debug = 0
        ∧ t.rse.inj = [] ∧ (s.leafs.slots = [] → t.host = s.host) ∧ t.flash = s.flash
        ∧ (s.spine.running = true → s.rse.fatal = none → t.links.isolated = true))
    ∧ (s.sys.running ≠ none → Calm s →
      ∃ t, exec i s = .next t
        ∧ t.hif = { s.hif with
            bar2Size := Hif.reset.bar2Size, msixTable := [], msixPba := 0, cfg := []
            pcieRate := if kind = .hot then 0 else s.hif.pcieRate, pcieWidth := if kind = .hot then 0 else s.hif.pcieWidth }
        ∧ { t with hif := s.hif, sec := s.sec } = s))
  ∧ (∀ (s : State) (i : Instr),
    (i = .devResetStart ∧ s.sys.devPending = true ∧ s.sys.ready = true
      ∨ i = .mgmtDevMessage ∧ s.reachable = true ∧ s.mgmtReady = true) → NoRequests s → s.mem.shc = [] →
    ∃ t, exec i s = .next t
      ∧ t.sys = { s.sys with bootStep := 2, ready := false, running := some .dev, devPending := false, refBad := [] }
      ∧ t.chans = Chans.reset ∧ t.tiles = [] ∧ t.spine = Spine.reset ∧ t.num = Numerics.reset ∧ t.ptu = Ptu.reset
      ∧ t.links = { Links.reset with events := t.links.events }
      ∧ t.mem.bytes = s.mem.bytes ∧ t.mem.selfRefresh = true ∧ t.rse.log = s.rse.log ∧ t.rse.retired = s.rse.retired
      ∧ t.pcm.energy = s.pcm.energy ∧ t.pcm.minuteE = s.pcm.minuteE ∧ t.pcm.sstate = 0 ∧ t.hif.ctrs = [] ∧ t.flash = s.flash)
  ∧ (∀ s : State, s.reachable = true → s.mgmtReady = false →
    ∃ t, exec .mgmtDevMessage s = .next t ∧ t.out = s.out ++ [.notReady] ∧ { t with out := s.out } = s)
  ∧ (∀ (s : State) (n : Nat), s.pcm.sleepTo = some n → s.atWork = true → s.pcm.sstate ≠ 2 →
    exec .sleepTransitionDone s = .next { s with pcm := { s.pcm with sleepTo := none, sstate := 0 } })
  ∧ (∀ (s : State) (n : Nat), s.pcm.sleepTo = some n → (n = 0 ∨ s.atWork = false) →
    (n ≤ 1 → s.pcm.sstate ≠ 2 →
      ∃ t, exec .sleepTransitionDone s = .next t ∧ t.pcm = { s.pcm with sleepTo := none, sstate := n }
        ∧ { t with pcm := s.pcm } = s)
    ∧ (n ≤ 1 → s.pcm.sstate = 2 →
      ∃ t, exec .sleepTransitionDone s = .next t ∧ t.pcm.sleepTo = none ∧ t.pcm.sstate = n ∧ t.pcm.diesOn = true
        ∧ t.mem = { s.mem with selfRefresh := false, written := s.mem.saved.getD s.mem.written, saved := none }
        ∧ (∀ l, l < 32 → t.link l = (if (s.link l).st = 8 then
              { (s.link l).fresh 4 with outSince := some s.spine.tick, signal := true }
            else if (s.link l).st = 1 then { (s.link l).fresh 1 with signal := true } else s.link l)))
    ∧ (n = 2 → s.pcm.sstate ≠ 2 → s.mem.shc = [] →
      ∃ t, exec .sleepTransitionDone s = .next t ∧ t.pcm.sleepTo = none ∧ t.pcm.sstate = 2 ∧ t.pcm.diesOn = false
        ∧ t.mem.bytes = s.mem.bytes ∧ t.mem.selfRefresh = true ∧ t.mem.saved = some s.mem.written
        ∧ (∀ k, k < 256 → t.tile k = { Tile.reset with ctrs := (s.tile k).ctrs, tfeCtrs := (s.tile k).tfeCtrs })
        ∧ (∀ l, l < 32 → (s.link l).st = 3 → (t.link l).st = 8))
    ∧ (3 ≤ n →
      ∃ t, exec .sleepTransitionDone s = .next t ∧ t.pcm.sleepTo = none ∧ t.pcm.sstate = 3 ∧ t.pcm.diesOn = false
        ∧ t.pcm.energy = s.pcm.energy ∧ t.pcm.minuteE = s.pcm.minuteE ∧ t.pcm.ms = s.pcm.ms
        ∧ t.sys.mainEn = false ∧ t.sys.bootStep = 0 ∧ t.mem = Hbm.reset ∧ t.tiles = [] ∧ t.flash = s.flash))
  ∧ (∀ s : State, s.pcm.sstate = 3 →
    ∃ t, exec .pldmWakeRequest s = .next t
      ∧ t.sys = (if s.sys.mainEn = false ∧ s.sys.mainGood = false ∧ s.sys.mainGoodFell + 10 ≤ s.pcm.ms
          then { s.sys with waking := true, mainEn := true, mainEnRose := s.pcm.ms } else { s.sys with waking := true })
      ∧ { t with sys := s.sys } = s)

/-- Droop, relocks, the energy model, the loops, the envelope, temperatures, calibration and PLDM (R570 to R594, R655). -/
def Obligations.PowerEventsTakeEffect : Prop :=
  (∀ (s : State) (k : Fin 256) (x : TilePwr), x = s.tilePwr k → x.stretched = false →
    ∃ t, exec (.droopEvent k) s = .next t
      ∧ TilePwrIs s t k (if x.change = none then { x with stretched := true }
          else if 16 < x.droops + 1 then { x with stretched := true, change := none, waited := false, droops := 0, result := 2 }
          else { x with stretched := true, droops := x.droops + 1 })
      ∧ t.pcm.ctrs = (if x.change ≠ none ∧ 16 < x.droops + 1 then Ctrs.sat (Ctrs.sat s.pcm.ctrs 0 1) 4 1
          else Ctrs.sat s.pcm.ctrs 0 1))
  ∧ (∀ (s : State) (k : Fin 256) (cycles : Nat), (s.tilePwr k).stretched = true →
    ∃ t, exec (.droopRelease k cycles) s = .next t
      ∧ TilePwrIs s t k { s.tilePwr k with stretched := false, stretchEnd := some s.pcm.us }
      ∧ t.pcm.ctrs = Ctrs.wrap s.pcm.ctrs 1 cycles)
  ∧ (∀ (s : State) (k : Fin 256) (x : TilePwr), x = s.tilePwr k → x.change ≠ none → x.relock = none → x.stretched = false →
    (∀ e, x.stretchEnd = some e → e + 10 ≤ s.pcm.us) → (∀ p ∈ s.pcm.tiles, p.2.relock = none) →
    ∃ t, exec (.freqRelockStart k) s = .next t
      ∧ TilePwrIs s t k { x with relock := x.change, change := none, droops := 0 }
      ∧ t.pcm.ctrs = if x.waited then Ctrs.sat s.pcm.ctrs 3 1 else s.pcm.ctrs)
  ∧ (∀ (s : State) (k : Fin 256) (x : TilePwr) (f : Nat), x = s.tilePwr k → x.relock = some f →
    ∃ t y, exec (.freqRelockComplete k) s = .next t ∧ TilePwrIs s t k y ∧ y.freq = f ∧ y.relock = none
      ∧ y.result = (if x.waited then 1 else 0) ∧ (f ≠ 0 → y.change = if f = s.wantFreq k then none else some (s.wantFreq k))
      ∧ t.pcm.ctrs = Ctrs.wrap s.pcm.ctrs 2 1)
  ∧ (∀ (s : State) (energy : List Nat) (e sum : Nat), e = s.gained energy →
    sum = (((e :: s.pcm.samples).take 100).foldl (· + ·) 0) →
    ∃ u t, exec (.energyModelSample energy) s = .next t ∧ Settled u t
      ∧ { u with pcm := s.pcm, hif := { u.hif with intCause := s.hif.intCause, msixPba := s.hif.msixPba }, out := s.out } = s
      ∧ t.pcm.samples = (e :: s.pcm.samples).take 100
      ∧ highIn 1000000 s.pcm.us t.pcm.peaks = max (min 65535 (sum / 1000)) (highIn 1000000 s.pcm.us s.pcm.peaks)
      ∧ highIn 1000 s.pcm.us t.pcm.levels = max s.throttleNow (highIn 1000 s.pcm.us s.pcm.levels)
      ∧ Ctrs.get t.pcm.ctrs 6 = (if s.throttledCycles = 0 then Ctrs.get s.pcm.ctrs 6
          else (Ctrs.get s.pcm.ctrs 6 + s.throttledCycles) % 2 ^ 48)
      ∧ t.pcm.minuteE = s.pcm.minuteE + e ∧ t.pcm.secondE = s.pcm.secondE + e ∧ t.pcm.energy = (s.pcm.energy + e) % 2 ^ 64
      ∧ (3200000 < sum → t.pcm.peakThrottle = min 15 (s.pcm.peakThrottle + 2) ∧ t.hif.intCause.getLsbD Cause.power = true)
      ∧ (3100000 ≤ sum → sum ≤ 3200000 → t.pcm.peakThrottle = s.pcm.peakThrottle ∧ t.pcm.lowUs = 0)
      ∧ (sum < 3100000 → s.pcm.lowUs < 90 → t.pcm.peakThrottle = s.pcm.peakThrottle ∧ t.pcm.lowUs = s.pcm.lowUs + 10)
      ∧ (sum < 3100000 → 90 ≤ s.pcm.lowUs → t.pcm.peakThrottle = s.pcm.peakThrottle - 1 ∧ t.pcm.lowUs = 0)
      ∧ (∀ b, s.budget = some b → b * 1000000 ≤ s.pcm.minuteE + e → t.pcm.held = true)
      ∧ (s.budget = none → t.pcm.held = s.pcm.held))
  ∧ (∀ (s : State) (due : Nat), due = s.target * (s.pcm.ms % 1000) * 1000 →
    ∃ u t, exec .sustainedLoopPeriod s = .next t ∧ Settled u t
      ∧ { u with pcm := s.pcm, hif := { u.hif with intCause := s.hif.intCause, msixPba := s.hif.msixPba }, out := s.out } = s
      ∧ (due < s.pcm.secondE →
          t.pcm.fl = (if 40 < s.pcm.fl then s.pcm.fl - 1 else s.pcm.fl)
          ∧ t.pcm.susThrottle = (if 40 < s.pcm.fl then s.pcm.susThrottle else min 15 (s.pcm.susThrottle + 1))
          ∧ t.pcm.ctrs = Ctrs.sat s.pcm.ctrs 7 1 ∧ t.hif.intCause.getLsbD Cause.power = true)
      ∧ (s.pcm.secondE * 100 < due * 98 →
          u = { s with pcm := { s.pcm with susThrottle := s.pcm.susThrottle - 1, fl := min 0x56 (s.pcm.fl + 1) } })
      ∧ (s.pcm.secondE ≤ due → due * 98 ≤ s.pcm.secondE * 100 → u = s))
  ∧ (∀ (s : State) (al : Option Nat),
    al = s.budget.map (fun b => max 1200 ((b * 1000000 - s.pcm.minuteE) / ((60 - (s.minuteNow.map (·.2)).getD 0) * 1000000))) →
    exec .envelopeSecond s = .next { s with pcm := { s.pcm with
      secondE := 0, allowance := al, gains := s.pcm.gainsNext.getD s.pcm.gains, gainsNext := none
      ctrs := if ∃ a, al = some a ∧ a < s.caps then Ctrs.sat s.pcm.ctrs 8 1 else s.pcm.ctrs } })
  ∧ (∀ (s : State) (e : Nat), e = s.pcm.minuteE →
    ∃ u t, exec .minuteEnd s = .next t ∧ Settled u t
      ∧ { u with pcm := s.pcm, hif := { u.hif with intCause := s.hif.intCause, msixPba := s.hif.msixPba }, out := s.out } = s
      ∧ t.pcm.lastJ = e / 1000000 ∧ t.pcm.lastBudget = s.budget.getD 0
      ∧ t.pcm.minute = (s.pcm.minute + 1) % 2 ^ 32 ∧ t.pcm.minuteE = 0 ∧ t.pcm.held = false ∧ t.pcm.allowance = none
      ∧ SMap.lookup t.pcm.budgets s.pcm.minute = none
      ∧ (∀ b, s.budget = some b → b * 1000000 < e →
          t.pcm.lastOver = (e - b * 1000000) / 1000000 ∧ t.pcm.ctrs = Ctrs.sat s.pcm.ctrs 9 1
          ∧ .overrun s.pcm.minute (e / 1000000) b ∈ t.pcm.events ∧ t.hif.intCause.getLsbD Cause.power = true)
      ∧ ((∀ b, s.budget = some b → e ≤ b * 1000000) →
          t.pcm.lastOver = 0 ∧ u.pcm.ctrs = s.pcm.ctrs ∧ u.pcm.events = s.pcm.events ∧ t.hif = s.hif))
  ∧ (∀ (s : State) (ts ss ds : List Nat), ts.length = 256 → ss.length = 20 → ds.length = 4 →
    (∀ v ∈ ts ++ ss ++ ds, v < 256) →
    ((∀ v ∈ ts ++ ds, v < 110) → (∀ v ∈ ss, v < 105) →
      ∃ t, exec (.thermalSample ts ss ds) s = .next t ∧ t.tileTemps = ts ∧ t.stackTemps = ss ∧ t.dieTemps = ds
        ∧ t.pcm.health = t.healthNow
        ∧ (∀ (k : Nat) (y : TilePwr), k < 256 → y = (s.tilePwr k).heat (ts.getD k 0) (s.ceiling k) →
            { t.tilePwr k with change := y.change, waited := y.waited, droops := y.droops } = y)
        ∧ (∀ i, i < 20 → (i ∈ t.mem.refresh2 ↔ 85 ≤ ss.getD i 0)
            ∧ (i ∈ t.pcm.stackHot ↔ 95 ≤ ss.getD i 0 ∨ i ∈ s.pcm.stackHot ∧ 92 ≤ ss.getD i 0))
        ∧ (∀ k m, k < 256 → (m = 95 ∨ m = 100) → (s.tilePwr k).temp < m → m ≤ ts.getD k 0 →
            .thermal k (ts.getD k 0) false ∈ t.pcm.events ∧ t.hif.intCause.getLsbD Cause.thermal = true))
    ∧ (((∃ v ∈ ts ++ ds, 110 ≤ v) ∨ ∃ v ∈ ss, 105 ≤ v) → Still s → NoRequests s →
      ∃ t, exec (.thermalSample ts ss ds) s = .next t ∧ t.sys = { s.sys with thermtrip := true }
        ∧ t.tileTemps = ts ∧ t.stackTemps = ss ∧ t.dieTemps = ds
        ∧ (s.rse.fatal = none → t.rse.fatal = some 4 ∧ t.rse.colo.valid = true ∧ t.links.isolated = true)))
  ∧ (∀ (s : State) (r : Fin 12) (g w : Nat), s.groupOf r = some g →
    exec (.pmbusRead r (some w)) s = .next { s with pcm := { s.pcm with
      measured := SMap.updD s.pcm.measured 0 r (· + w), fails := SMap.setD s.pcm.fails 0 r 0 } })
  ∧ (∀ (s : State) (r : Fin 12) (g : Nat), s.groupOf r = some g →
    ∃ t, exec (.pmbusRead r none) s = .next t ∧ SMap.getD t.pcm.fails r 0 = SMap.getD s.pcm.fails r 0 + 1
      ∧ (SMap.getD s.pcm.fails r 0 = 2 → g ∈ t.pcm.stopped ∧ t.pcm.ctrs = Ctrs.sat s.pcm.ctrs 11 1 ∧ t.pcm.health = t.healthNow)
      ∧ (SMap.getD s.pcm.fails r 0 ≠ 2 → { t with pcm := { t.pcm with fails := s.pcm.fails } } = s))
  ∧ (∀ (s : State) (r : Nat), r < 12 → s.groupOf r ≠ none →
    exec .pmbusCalibration s = .next { s with pcm := { s.pcm with
      gainsNext := some s.newGains, measured := [], model := [], calibrating := false, calibrated := true
      ctrs := Ctrs.sat s.pcm.ctrs 12 1 } })
  ∧ (∀ (s : State) (id : BitVec 16), s.mgmtReady = true →
    exec (.pldmSensorRead id) s = .next (s.emit (match s.sensor id.toNat with
      | some v => .sensor id.toNat v
      | none => .pldmError)))
  ∧ (∀ (s : State) (w : Nat), s.mgmtReady = true → (fieldAt s.sec.record 37 1).testBit 1 = true →
    (w = 0 ∨ 1200 ≤ w ∧ w ≤ 3000) →
    exec (.mgmtCapEffecterSet w) s = .next (State.emit { s with pcm := { s.pcm with mgmtCap := w } } .pldmOk))
  ∧ (∀ (s : State) (e : PldmEvent) (es : List PldmEvent), s.mgmtReady = true → s.pcm.events = e :: es →
    exec .pldmEventRead s = .next (State.emit { s with pcm := { s.pcm with events := es } } (.pldm e)))
  ∧ (∀ s : State, s.mgmtReady = false →
    (∀ id : BitVec 16, exec (.pldmSensorRead id) s = .next (s.emit .notReady))
      ∧ (∀ w : Nat, exec (.mgmtCapEffecterSet w) s = .next (s.emit .notReady))
      ∧ exec .pldmEventRead s = .next (s.emit .notReady))

/-- The ingest engine's own events (R470, R475 to R482, R488). -/
def Obligations.IngestEventsTakeEffect : Prop :=
  (∀ (s s1 : State) (u : IgeSetup) (idx : Nat) (toks : List Nat), s.ige.setup = some u → s.igeFree = true → Calm s →
    idx = sampleIndex s.ige.cur.pos u.n u.seed s.ige.cur.epoch → cacheGet u idx s = (some (.accept toks), s1) →
    ∃ t, exec .sampleStart s = .next t ∧ t.ige.sample = none ∧ t.ige.skips = 0 ∧ NextPosition u s.ige.cur t.ige.cur
      ∧ Packed u idx 0 (givenTokens (framed u toks) s1).1 { s1 with ige := { s1.ige with sample := none } } t
      ∧ Ctrs.get t.ige.ctrs 6 = Ctrs.get (Ctrs.wrap s.ige.ctrs 6 1) 6)
  ∧ (∀ (s s1 : State) (u : IgeSetup) (idx reason units : Nat), s.ige.setup = some u → s.igeFree = true → Calm s →
    idx = sampleIndex s.ige.cur.pos u.n u.seed s.ige.cur.epoch → cacheGet u idx s = (some (.reject reason units), s1) →
    (s.ige.skips + 1 ≠ s.ige.limits.replace ∨ s.spine.newStag = true) →
    ∃ t, exec .sampleStart s = .next t ∧ Skipped u idx reason units s t)
  ∧ (∀ (s s1 s2 : State) (u : IgeSetup) (idx stored : Nat) (claimed : Option Nat) (d : List Byte),
    s.ige.setup = some u → s.igeFree = true → idx = sampleIndex s.ige.cur.pos u.n u.seed s.ige.cur.epoch →
    cacheGet u idx s = (none, s1) → readSample u idx s1 = .data d s2 → Calm s2 → stored = fieldAt d 8 4 →
    claimed = claimedSize ((d.getD 6 0).getLsbD 0) stored (fieldAt d 12 4) (d.drop 16) →
    (capReason s2.ige.limits stored claimed = none →
      exec .sampleStart s = .next { s2 with ige := { s2.ige with sample := some (s.ige.cur.pos, idx, claimed.getD 0) } })
    ∧ (∀ r, capReason s2.ige.limits stored claimed = some r →
      (s2.ige.skips + 1 ≠ s2.ige.limits.replace ∨ s2.spine.newStag = true) →
      ∃ t, exec .sampleStart s = .next t ∧ Skipped u idx r 0 s2 t))
  ∧ (∀ (s s1 : State) (u : IgeSetup) (p idx claimed : Nat) (d : List Byte), s.ige.setup = some u →
    s.ige.sample = some (p, idx, claimed) → s.ige.running = true → readSample u idx s = .data d s1 → Calm s1 →
    (∀ toks, decodeSample s1.ige.limits s1.ige.dict (d.take 16) (d.drop 16) claimed = .accept toks →
      ∃ t x, exec .sampleDecodeComplete s = .next t ∧ t.ige.sample = none ∧ t.ige.skips = 0
        ∧ NextPosition u s1.ige.cur t.ige.cur ∧ x = cachePut u idx (.accept toks) s1
        ∧ Packed u idx 0 (givenTokens (framed u toks) x).1 { x with ige := { x.ige with sample := none } } t)
    ∧ (∀ r n, decodeSample s1.ige.limits s1.ige.dict (d.take 16) (d.drop 16) claimed = .reject r n →
      (s1.ige.skips + 1 ≠ s1.ige.limits.replace ∨ s1.spine.newStag = true) →
      ∃ t, exec .sampleDecodeComplete s = .next t ∧ Skipped u idx r n s1 t))
  ∧ (∀ (s s1 : State) (u : IgeSetup) (r : List Byte), s.ige.setup = some u → s.ige.running = true → s.ige.open_ = false →
    igeRead u.part u.releaseVa 8 s = .data r s1 →
    (leNat r + u.nbuf ≤ s1.ige.cur.j →
      exec .microbatchStart s = .next { s1 with ige := { s1.ige with waitsRelease := true } })
    ∧ (∀ (s2 b : State) (toks : List Nat), s1.ige.cur.j < leNat r + u.nbuf →
      carriedWords u { s1 with ige := { s1.ige with waitsRelease := false } } = .words toks s2 →
      b = { s2 with ige := { s2.ige with
        cur := { s2.ige.cur with limitsGen := s2.ige.limitsGen }, open_ := true, fill := 0, skips := 0
        marks := if s2.ige.cur.j % u.mbPerStep = 0 then
            SMap.put s2.ige.marks (s2.ige.startStep + s2.ige.cur.j / u.mbPerStep)
              { s2.ige.cur with limitsGen := s2.ige.limitsGen }
          else s2.ige.marks } } →
      ∃ t, exec .microbatchStart s = .next t ∧ t.ige.marks = b.ige.marks
        ∧ (s2.ige.cur.carried = none → t.ige.open_ = true ∧ t.ige.fill = 0 ∧ t.ige.cur = b.ige.cur
            ∧ t.mem = (if u.boundary then vaWrite u.part (u.bmapBase + u.tokens / 8 * (s2.ige.cur.j % u.nbuf))
                (List.replicate (u.tokens / 8) 0) b else b).mem)
        ∧ (∀ idx, s2.ige.cur.carried = some idx → Packed u idx s2.ige.cur.offset (givenTokens toks s2).1 b t)))
  ∧ (∀ (s : State) (u : IgeSetup) (j : Nat) (rest : List Nat) (c : Chan), s.ige.setup = some u →
    s.ige.full = j :: rest → s.chan u.channel = some c →
    ∃ t, exec .microbatchReady s = .next t ∧ t.ige = { s.ige with full := NSet.erase s.ige.full j }
      ∧ (∀ k, k ∈ c.tileList → t.tile k = (s.tile k).bumpEc u.readyEc) ∧ (∀ k, k ∉ c.tileList → t.tile k = s.tile k)
      ∧ { t with ige := s.ige, tiles := s.tiles } = s)

/-- The boot ROM's steps, training, readiness and the run-time check of the code (R264, R265, R598, R603 to R605, R609,
R611, R616, R631, R659). -/
def Obligations.BootEventsTakeEffect : Prop :=
  (∀ (s : State) (idPub : List Byte), s.sec.recovery = false → (s.sys.bootStep = 1 ∨ s.sys.bootStep = 2) →
    exec (.bootPufDerive idPub) s = .next { s with
      sys := { s.sys with bootStep := 3 }
      sec := { s.sec with keys := true, idPub := idPub, deviceId := BitVec.ofNat 64 (leNat ((sha3 idPub).take 8)) } })
  ∧ (∀ (s : State) (sigValid : Bool) (r : List Byte), s.sec.recovery = false → s.sys.bootStep = 3 →
    r = Mem.readN s.flash 0 (recordLength (Mem.readN s.flash 0 64)) →
    (recordFault r s.sec.deviceId.toNat sigValid = none →
      exec (.configRecordCheck sigValid) s
        = .next { s with
            sys := { s.sys with bootStep := 4 }
            sec := { s.sec with record := r, lotCode := BitVec.ofNat 72 (fieldAt r 16 9) } })
    ∧ (∀ e, recordFault r s.sec.deviceId.toNat sigValid = some e →
      exec (.configRecordCheck sigValid) s = .next { s with sec := { s.sec with recovery := true, bootFail := some (3, e) } }))
  ∧ (∀ (s : State) (sigValid : Bool) (h body : List Byte), s.sec.recovery = false → s.sys.bootStep = 4 →
    h = Mem.readN s.flash 0x600000 4096 → body = Mem.readN s.flash 0x601000 (bodyLength h) →
    (imageFault h body s.sec.record sigValid = none →
      exec (.imageLoadCheck sigValid) s = .next { s with
        sys := { s.sys with bootStep := 5 }
        sec := { s.sec with
          header := h, fwVersion := BitVec.ofNat 32 (fieldAt h 8 4), fwBuild := BitVec.ofNat 32 (fieldAt h 12 4) } })
    ∧ (∀ e, imageFault h body s.sec.record sigValid = some e →
      exec (.imageLoadCheck sigValid) s = .next { s with sec := { s.sec with recovery := true, bootFail := some (4, e) } }))
  ∧ (∀ s : State, s.sec.recovery = false → s.sys.bootStep = 5 →
    ∃ t, exec .measurementsRecord s = .next t ∧ t.sys = { s.sys with bootStep := 7 }
      ∧ t.measure 1 = (List.range 32).map Config.romVersion ∧ t.measure 2 = sha3 s.sec.record
      ∧ t.measure 3 = sha3 s.sec.header
      ∧ t.measure 4 = natLe 4 (fieldAt s.sec.header 20 4) ++ natLe 4 (fieldAt s.sec.record 32 4) ++ List.replicate 24 0
      ∧ (∀ i, 4 < i → t.measure i = s.measure i)
      ∧ t.sec.aliasCert = Config.certificate s.freeCtr (t.measure 1 ++ t.measure 2 ++ t.measure 3 ++ t.measure 4)
      ∧ { t with sys := s.sys, freeCtr := s.freeCtr
                 sec := { t.sec with meas := s.sec.meas, aliasCert := s.sec.aliasCert } } = s)
  ∧ (∀ (s : State) (ids : List StackId) (declared : List Nat) (stackOk : BitVec 20) (refOk : BitVec 4),
    s.sec.recovery = false → s.sys.bootStep = 7 → s.pcm.diesOn = false → ids.length = 20 → declared = ids.map (·.rate) →
    (∀ d ∈ declared, d < 8) → Calm s →
    ∃ t, exec (.hbmTraining ids stackOk refOk) s = .next t ∧ t.pcm.diesOn = true
      ∧ (∀ i x, ids[i]? = some x → t.mem.failed.getLsbD i = !(stackOk.getLsbD i
          && (x.channels == 32 && x.stackIds == 4 && x.groups == 4 && x.banks == 4 && x.gib == 48)))
      ∧ t.mem = { s.mem with
          declared := declared, failed := t.mem.failed, trained := t.mem.failed == 0, selfRefresh := false
          written := s.mem.saved.getD s.mem.written, saved := none
          rate := if s.mem.selfRefresh then s.mem.rate else declared.foldl min (min 4 (fieldAt s.sec.record 38 1)) }
      ∧ t.sys = { s.sys with refBad := (List.range 4).filter fun d => !refOk.getLsbD d }
      ∧ (∀ k, k < 256 → (t.tilePwr k).freq = s.wantFreq k)
      ∧ (refOk = BitVec.allOnes 4 → { t with mem := s.mem, sys := s.sys, pcm := { t.pcm with tiles := s.pcm.tiles, diesOn := false } } = s))
  ∧ (∀ s : State, s.sec.recovery = false → s.sys.bootStep = 7 → s.pcm.diesOn = true →
    ∃ t, exec .firmwareReady s = .next t
      ∧ t.sys = { s.sys with
          ready := true, bootStep := 8, running := none, cause := (s.sys.running.map (·.code)).getD s.sys.cause }
      ∧ { t with sys := s.sys, hif := s.hif, out := s.out } = s
      ∧ (s.sys.running = some .dev → t.hif.intCause.getLsbD Cause.ready = true)
      ∧ (s.sys.running ≠ some .dev → t.hif.intCause = s.hif.intCause ∧ t.out = s.out))
  ∧ (∀ (s : State) (code : List Byte), 7 ≤ s.sys.bootStep →
    (sha3 code = (s.sec.header.drop 32).take 32 → exec (.codeIntegrityCheck code) s = .next s)
    ∧ (sha3 code ≠ (s.sec.header.drop 32).take 32 → Still s → NoRequests s →
      ∃ t, exec (.codeIntegrityCheck code) s = .next t ∧ t.hif.intCause.getLsbD Cause.security = true
        ∧ (s.rse.fatal = none → t.rse.fatal = some 5 ∧ t.rse.colo.valid = true ∧ t.links.isolated = true)))
  ∧ (∀ s : State, exec .debugNonceExpiry s = .next { s with sec := { s.sec with nonce := none } })

/-- SPDM, Data Object Exchange, MCTP control, the I3C address and the JTAG port (R536, R612, R613, R615, R631, R655). -/
def Obligations.ManagementRequestsAreAnswered : Prop :=
  (∀ (s : State) (mctp : Bool) (m : List Byte), SpdmAsked s mctp m 0x84 0x10 →
    exec (.spdmGetVersion mctp m) s = .next (spdmSent s mctp ⟨true, false, false, []⟩ m versionRsp))
  ∧ (∀ (s : State) (mctp : Bool) (m : List Byte), SpdmAsked s mctp m 0xE1 0x12 → (s.spdm mctp).version = true →
    exec (.spdmGetCapabilities mctp m) s = .next (spdmSent s mctp { s.spdm mctp with caps := true } m capsRsp))
  ∧ (∀ (s : State) (mctp : Bool) (m : List Byte), SpdmAsked s mctp m 0xE3 0x12 → (s.spdm mctp).caps = true →
    exec (.spdmNegotiateAlgorithms mctp m) s
      = .next (spdmSent s mctp { s.spdm mctp with algs := offersAlgs m } m (algsRsp m)))
  ∧ (∀ (s : State) (mctp : Bool) (m : List Byte), (s.spdm mctp).algs = true →
    (SpdmAsked s mctp m 0x81 0x12 →
      exec (.spdmGetDigests mctp m) s = .next (spdmSent s mctp (s.spdm mctp) m (digestsRsp s)))
    ∧ (SpdmAsked s mctp m 0x82 0x12 →
      exec (.spdmGetCertificate mctp m) s = .next (spdmSent s mctp (s.spdm mctp) m (certRsp m s)))
    ∧ (SpdmAsked s mctp m 0x83 0x12 → fieldAt m 2 1 = 0 → (fieldAt m 3 1 = 0 ∨ fieldAt m 3 1 = 1 ∨ fieldAt m 3 1 = 0xFF) →
      ∃ body, exec (.spdmChallenge mctp m) s = .next (spdmSent s.draw.2 mctp (s.spdm mctp) m
          (body ++ Config.signature 1 s.freeCtr ((s.spdm mctp).transcript ++ m ++ body)))
        ∧ body.take 36 = [0x12, 0x03, 0, 1] ++ sha3 s.spdmChain)
    ∧ (SpdmAsked s mctp m 0xE0 0x12 → (fieldAt m 3 1 ≤ 6 ∨ fieldAt m 3 1 = 0xFF) →
      ∃ rsp, exec (.spdmGetMeasurements mctp m) s = .next (spdmSent s.draw.2 mctp (s.spdm mctp) m rsp)
        ∧ rsp.take 2 = [0x12, 0x60]
        ∧ (∀ i, 1 ≤ i → i ≤ 6 → fieldAt m 3 1 = i → (rsp.drop 8).take (measBlock s i).length = measBlock s i)))
  ∧ (∀ (s : State) (mctp : Bool) (m : List Byte), spdmRequests.contains (fieldAt m 1 1) = false →
    (if mctp then s.mgmtReady && s.pcm.sstate != 3 else s.configOpen) = true →
    exec (.spdmUnsupported mctp m) s = .next (s.emit (.spdm mctp (spdmHead 0x12 0x7F 0x07 (fieldAt m 1 1)))))
  ∧ (∀ (s : State) (mctp : Bool) (m : List Byte) (v : Nat), v ≠ 0x12 → SpdmAsked s mctp m 0x83 v →
    exec (.spdmChallenge mctp m) s = .next (s.emit (.spdm mctp (spdmHead 0x12 0x7F 0x41 0))))
  ∧ (∀ (s : State) (mctp : Bool) (m : List Byte), SpdmAsked s mctp m 0x83 0x12 → (s.spdm mctp).algs = false →
    exec (.spdmChallenge mctp m) s = .next (s.emit (.spdm mctp (spdmHead 0x12 0x7F 0x04 0))))
  ∧ (∀ (s : State) (index : BitVec 8), s.configOpen = true →
    exec (.doeDiscoveryRequest index) s = .next (s.emit (.doe (natLe 2 1 ++ natLe 2 0 ++ natLe 4 3
      ++ (if index = 0 then [1, 0, 0, 1] else if index = 1 then [1, 0, 1, 0] else [0xFF, 0xFF, 0, 0])))))
  ∧ (∀ (s : State) (command : BitVec 8) (data : List Byte), s.mgmtReady = true →
    ∃ cc d, exec (.mctpControlRequest command data) s = .next (s.draw.2.emit (.mctp command.toNat cc d))
      ∧ (cc, d) = Config.mctpReply s.freeCtr command.toNat data)
  ∧ (∀ (s : State) (command : BitVec 8) (data : List Byte), s.mgmtReady = false →
    exec (.mctpControlRequest command data) s = .next (s.emit .notReady))
  ∧ (∀ (s : State) (addr : BitVec 7), s.sys.mgmtMode = true → s.sys.pwrGood = true →
    exec (.dynamicAddressAssign addr) s = .next { s with sys := { s.sys with dynAddr := some addr } })
  ∧ (∀ (s : State) (vendor : Bool) (ir : BitVec 8) (dr : List Byte), s.sys.pwrGood = true →
    ((ir = 0xFF ∨ vendor = true ∧ s.sec.debug < 2) →
      exec (.jtagTapOperation vendor ir dr) s = .next (s.emit (.tdo (natLe dr.length (leNat dr * 2)))))
    ∧ (ir ≠ 0xFF → (vendor = false ∨ 2 ≤ s.sec.debug) →
      ∃ out, exec (.jtagTapOperation vendor ir dr) s = .next (s.draw.2.emit (.tdo out)) ∧ out.length = dr.length))

/-- A step takes the command at the front of the queue and gives exec the rest; with no command waiting a microsecond
passes, which is the model's choice (log entry 1). -/
def Obligations.StepTakesTheFrontCommand : Prop :=
  (∀ (c : Instr) (rest : List Instr) (s : State), step { s with pending := c :: rest } = exec c { s with pending := rest })
  ∧ ∀ s : State, s.pending = [] → step s = .next (tick s)

/-- The state after reset satisfies the invariant; nothing waits, the boot ROM is at step 1, and no channel, schedule or
engine runs (R557, R578, R603, R620, R634). -/
def Obligations.ResetSatisfiesTheInvariant : Prop :=
  Inv State.reset ∧ State.reset.pending = [] ∧ State.reset.sys.bootStep = 1 ∧ State.reset.sys.ready = false
    ∧ State.reset.chans.table = [] ∧ State.reset.spine.running = false ∧ State.reset.ige.running = false
    ∧ State.reset.pcm.hostCap = 2800 ∧ State.reset.pcm.fl = 0x56 ∧ State.reset.rse.fatal = none
    ∧ State.reset.mem.trained = false ∧ (∀ a, Mem.get State.reset.mem.bytes a = 0)
    ∧ ∀ mb : Fin 16, State.reset.mailbox mb = ⟨0, 0, [], [], 0⟩

/-- Every step keeps the invariant: the memories stay in canonical form, and READY is set at boot step 8 only (R605, R619,
R631). -/
def Obligations.EveryStepKeepsTheInvariant : Prop :=
  ∀ s s' : State, Inv s → step s = .next s' → Inv s'

/-- Every command, in every state, ends in a next state. -/
def Obligations.EveryCommandCompletes : Prop := ∀ (c : Instr) (s : State), ∃ t, exec c s = .next t

/-- No command changes what waits in the queue behind it, and none but an image's activation and a push changes the flash
(R600, R607, R608). -/
def Obligations.CommandsLeaveQueueAndFlash : Prop :=
  ∀ (c : Instr) (s t : State), exec c s = .next t → t.pending = s.pending
    ∧ ((∀ mb ok, c ≠ .fwImageActivate mb ok) → (∀ mb ok, c ≠ .imagePush mb ok) → t.flash = s.flash)

/-- READY rises by FIRMWARE_READY alone (R631). -/
def Obligations.OnlyFirmwareReadyRaisesReady : Prop :=
  ∀ (c : Instr) (s t : State), exec c s = .next t → s.sys.ready = false → t.sys.ready = true → c = .firmwareReady

/-- A mailbox answers as R547 states: OWN clear, STATUS and SEQ_ECHO, the result words, MB_DONE, and nothing else but the
interrupt that the host asked for. -/
def Obligations.FinishedCommandsAreAnswered : Prop :=
  ∀ (s s' : State) (mb : Fin 16) (st : Nat) (res : List Nat), s'.hif.mbs = s.hif.mbs → s'.hif.mbDone = s.hif.mbDone →
    Answered s (finishCmd mb st res s') mb st res
      ∧ { finishCmd mb st res s' with hif := s'.hif, out := s'.out } = s'
      ∧ ((s.mailbox mb).word0.getLsbD 30 = false → (finishCmd mb st res s').out = s'.out)

/-- A command row acts on its mailbox only while that holds the command; a nonzero argument word beyond those the command
uses is refused with E_BAD_ARG, and nothing else changes (R15, R547, R549). -/
def Obligations.UnusedArgumentWordsAreRefused : Prop :=
  ∀ (c : Instr) (mb : Fin 16) (code n : Nat) (s : State), mailboxRow c = some (mb, code, n) →
    (s.owns mb code = false → exec c s = .next s)
    ∧ (s.owns mb code = true → (s.mailbox mb).zeroFrom n = false →
      exec c s = .next (finishCmd mb St.badArg [] s)
        ∧ { finishCmd mb St.badArg [] s with hif := s.hif, out := s.out } = s)

/-- The interleave of R268: the place of every byte by the function of the rule; every byte of every stack is reached by
exactly one physical address; the lines of a granule reach all 160 slots; the eight sectors of a line share bank, row and
column. -/
def Obligations.InterleaveReachesEveryByteOnce : Prop :=
  (∀ (pa G i j b X g5 k u slot w q : Nat), pa < 0xF000000000 → G = pa / 2 ^ 16 → i = pa / 2 ^ 8 % 256 →
    j = pa / 2 ^ 5 % 8 → b = pa % 32 → X = G / 5 → g5 = G % 5 → k = (256 * g5 + i) / 160 → u = (256 * g5 + i) % 160 →
    slot = (u + 53 * X + X / 32) % 160 → w = 8 * j + slot / 20 → q = 8 * X + k →
    hbmMap pa = ⟨slot % 20, slot / 20, w / 2, w % 2, (q / 32 % 64) ^^^ (q / 2 ^ 11 % 64), q / 2 ^ 11, q % 32, b⟩)
  ∧ (∀ pa, pa < 0xF000000000 → (hbmMap pa).stack < 20 ∧ (hbmMap pa).channel < 32 ∧ (hbmMap pa).pc < 2
      ∧ (hbmMap pa).bank < 64 ∧ (hbmMap pa).row < 12288 ∧ (hbmMap pa).col < 32 ∧ (hbmMap pa).byte < 32)
  ∧ (∀ stack channel pc bank row col byte : Nat, stack < 20 → channel < 32 → pc < 2 → bank < 64 → row < 12288 → col < 32 →
      byte < 32 → ∃ pa, pa < 0xF000000000 ∧ (hbmMap pa).stack = stack ∧ (hbmMap pa).channel = channel
        ∧ (hbmMap pa).pc = pc ∧ (hbmMap pa).bank = bank ∧ (hbmMap pa).row = row ∧ (hbmMap pa).col = col
        ∧ (hbmMap pa).byte = byte)
  ∧ (∀ x y, x < 0xF000000000 → y < 0xF000000000 → (hbmMap x).stack = (hbmMap y).stack →
      (hbmMap x).channel = (hbmMap y).channel → (hbmMap x).pc = (hbmMap y).pc → (hbmMap x).bank = (hbmMap y).bank →
      (hbmMap x).row = (hbmMap y).row → (hbmMap x).col = (hbmMap y).col → (hbmMap x).byte = (hbmMap y).byte → x = y)
  ∧ (∀ G stack octet : Nat, stack < 20 → octet < 8 → ∃ l, l < 256
      ∧ (hbmMap (G * 65536 + l * 256)).stack = stack ∧ (hbmMap (G * 65536 + l * 256)).octet = octet)
  ∧ (∀ line n : Nat, n < 256 → (hbmMap (line * 256 + n)).bank = (hbmMap (line * 256)).bank
      ∧ (hbmMap (line * 256 + n)).row = (hbmMap (line * 256)).row ∧ (hbmMap (line * 256 + n)).col = (hbmMap (line * 256)).col
      ∧ (hbmMap (line * 256 + n)).stack = (hbmMap (line * 256)).stack)

/-- The shuffle gives a permutation of the positions 0 to N − 1 (R475). -/
def Obligations.ShuffleIsAPermutation : Prop :=
  ∀ (n : Nat) (seed : BitVec 64) (epoch : Nat),
    (∀ p, p < n → sampleIndex p n seed epoch < n)
    ∧ (∀ p q, p < n → q < n → sampleIndex p n seed epoch = sampleIndex q n seed epoch → p = q)
    ∧ ∀ y, y < n → ∃ p, p < n ∧ sampleIndex p n seed epoch = y

/-- Device memory reads back what was written, with nothing marked, and every byte outside the range stays as it was
(R277, R282). -/
def Obligations.MemoryReadsBackWhatWasWritten : Prop :=
  ∀ (s : State) (pa : Nat) (data : List Byte), Healthy s pa data.length →
    (hbmRead pa data.length (hbmWrite pa data false s)).1 = data
    ∧ (hbmRead pa data.length (hbmWrite pa data false s)).2.1 = []
    ∧ (∀ a, (a < pa ∨ pa + data.length ≤ a) →
        Mem.get (hbmWrite pa data false s).mem.bytes a = Mem.get s.mem.bytes a)
    ∧ (hbmWrite pa data false s).host = s.host

/-- Cleared granules read as zero with no access to a stack, their first partial write leaves the rest zero, and clearing
writes to no stack (R48). -/
def Obligations.ClearedGranulesReadAsZero : Prop :=
  ∀ (s t : State) (g n : Nat), t = markUnwritten g n s → s.rse.inj = [] →
    (∀ pa len, g * 65536 ≤ pa → pa + len ≤ (g + n) * 65536 →
      (hbmRead pa len t).1 = List.replicate len 0 ∧ (hbmRead pa len t).2.1 = []
        ∧ Ctrs.get (hbmRead pa len t).2.2.mem.ctrs 0 = Ctrs.get t.mem.ctrs 0)
    ∧ (∀ pa data a len, g * 65536 ≤ pa → pa + data.length ≤ (g + n) * 65536 → g * 65536 ≤ a → a + len ≤ (g + n) * 65536 →
      (a + len ≤ pa ∨ pa + data.length ≤ a) →
      (hbmRead a len (hbmWrite pa data false t)).1 = List.replicate len 0
        ∧ (hbmRead a len (hbmWrite pa data false t)).2.1 = [])
    ∧ Ctrs.get t.mem.ctrs 1 = Ctrs.get s.mem.ctrs 1
    ∧ (∀ a, (a < g * 65536 ∨ (g + n) * 65536 ≤ a) → Mem.get t.mem.bytes a = Mem.get s.mem.bytes a)

/-- Every code of a scalar format but a NaN is decoded to a value that converts back to it with no flag (R52, R62, R63). -/
def Obligations.ScalarFormatsRoundTrip : Prop :=
  ∀ (f : FpFmt) (code : Nat) (sat : Bool) (rnd : Rnd), f ∈ [fp32, fp16, bf16, e4m3, e5m2, e3m2, e2m3, e2m1] →
    code < 2 ^ (1 + f.ebits + f.mbits) → (∀ r, rnd = .sr r → r < 2 ^ 16) → decodeFp f code ≠ .nan →
    (sat = true → ∀ neg, decodeFp f code ≠ .inf neg) →
    convertFp f sat rnd (decodeFp f code) = (code, noFlags)

/-- General register G0 reads 0 and ignores writes; every other general register reads what was last written to it, and a
write to one leaves the others alone. -/
def Obligations.GeneralRegistersHoldWhatIsWritten : Prop :=
  ∀ (h : Thread) (r q : Nat) (v : BitVec 64),
    h.reg 0 = 0 ∧ h.setReg 0 v = h ∧ (r ≠ 0 → (h.setReg r v).reg r = v) ∧ (q ≠ r → (h.setReg r v).reg q = h.reg q)
      ∧ { h.setReg r v with regs := h.regs } = h

/-- While authenticated debug is closed, every BAR4 read returns 0, every BAR4 write is discarded, and
HIF.BAR4_CLOSED_CNT counts both (R545). -/
def Obligations.ClosedDebugWindowReadsZero : Prop :=
  ∀ (s : State) (off : BitVec 24) (width : Nat) (data : BitVec 64), s.decodes = true → s.sec.debug = 0 →
    ∃ r w, exec (.bar4Access false off width data) s = .next r ∧ exec (.bar4Access true off width data) s = .next w
      ∧ r.out = s.out ++ [.barRead 4 (List.replicate width 0) false] ∧ w.out = s.out
      ∧ { r with out := s.out, hif := { r.hif with ctrs := s.hif.ctrs } } = s
      ∧ { w with out := s.out, hif := { w.hif with ctrs := s.hif.ctrs } } = s
      ∧ (Ctrs.get s.hif.ctrs 5 < 2 ^ 48 - 1 →
          Ctrs.get r.hif.ctrs 5 = Ctrs.get s.hif.ctrs 5 + 1 ∧ Ctrs.get w.hif.ctrs 5 = Ctrs.get s.hif.ctrs 5 + 1)
      ∧ (∀ i, i ≠ 5 → Ctrs.get r.hif.ctrs i = Ctrs.get s.hif.ctrs i ∧ Ctrs.get w.hif.ctrs i = Ctrs.get s.hif.ctrs i)

/-- Every signal has exactly one land: two lands that carry the same signal are the same land, and every lane of the 32
Tawa Links and of the PCIe link, in both directions and polarities, and both reference clocks of every die have one (R649,
R650). -/
def Obligations.EverySignalHasOneLand : Prop :=
  (∀ y x y' x' : Nat, 1 ≤ y → y ≤ 104 → 1 ≤ x → x ≤ 104 → 1 ≤ y' → y' ≤ 104 → 1 ≤ x' → x' ≤ 104 →
    land y x = land y' x' → land y x ≠ .vss → (∀ r, land y x ≠ .rail r) → y = y' ∧ x = x')
  ∧ (∀ (n u : Nat) (tx pos : Bool), n < 32 → u < 8 →
    ∃ y x, 1 ≤ y ∧ y ≤ 104 ∧ 1 ≤ x ∧ x ≤ 104 ∧ land y x = .lane (.link n) u tx pos)
  ∧ (∀ (u : Nat) (tx pos : Bool), u < 8 → ∃ y x, 1 ≤ y ∧ y ≤ 52 ∧ 1 ≤ x ∧ x ≤ 52 ∧ land y x = .lane .pcie u tx pos)
  ∧ (∀ (die : Nat) (pos : Bool), die < 4 →
    ∃ y x, 1 ≤ y ∧ y ≤ 104 ∧ 1 ≤ x ∧ x ≤ 104 ∧ landDie y x = die ∧ land y x = .linkRefclk die pos)

/-- The sequencer takes the first ready thread in ascending order after the one that issued last, wrapping from T7 to T0;
it finds one whenever a thread is ready, and with every instruction that another thread issues a ready thread comes
nearer to its turn (R95). -/
def Obligations.ReadyThreadsIssueInTurn : Prop :=
  (∀ x : Tile, x.pick = none ↔ ∀ th, th < 8 → x.canIssue th = false)
  ∧ (∀ (x : Tile) (th : Nat), x.pick = some th ↔
    ∃ i, i < 8 ∧ th = (x.lastTh + 1 + i) % 8 ∧ x.canIssue th = true ∧ ∀ j, j < i → x.canIssue ((x.lastTh + 1 + j) % 8) = false)
  ∧ (∀ (x : Tile) (k th : Nat), x.pick = some k → th < 8 → x.canIssue th = true →
    k = th ∨ (th + 7 - k) % 8 < (th + 7 - x.lastTh % 8) % 8)
  ∧ (∀ (s u : State) (t : Fin 256) (th : Fin 8) (w : BitVec 128) (i : Instr), Calm s →
    i ∈ [ .nop t th w, .endThread t th w, .br t th w, .loop t th w, .waitev t th w, .sigev t th w, .tickwait t th w,
      .smovi t th w, .salu t th w, .sld t th w, .sst t th w, .mma t th w, .mconv t th w, .mzero t th w,
      .mdrain t th w, .reservedOpcode t th w, .vchain t th w, .desc t th w, .append t th w, .fwd t th w,
      .attnFinal t th w, .bwdPrep t th w, .bwd t th w, .gfinal t th w, .qsend t th w, .qrelease t th w,
      .lfetch t th w, .trunc t th w, .attnReservedKind t th w ] →
    exec i s = .next u → u ≠ s →
    (s.tile t).pick = some th.val ∧ SMap.lookup (s.tile t).icache (((s.tile t).thread th).pc.toNat / 16) = some w)
end

