-- ==== Sys2Proof/Laws/Maps.lean ====
section
/-! SUPPORT. The laws of the finite maps and of the memories built on them: a read after a write, what a write
leaves alone, and that every memory operation keeps the canonical form. -/

namespace Sys2Proof

variable {α : Type}

theorem SMap.lookup_put_self (m : SMap α) (k : Nat) (v : α) : SMap.lookup (SMap.put m k v) k = some v := by
  induction m with
  | nil => simp [SMap.put, SMap.lookup]
  | cons p m ih =>
    obtain ⟨k', v'⟩ := p
    unfold SMap.put
    split
    · simp [SMap.lookup]
    · split
      · simp [SMap.lookup]
      · next h => simp [SMap.lookup, Ne.symm h, ih]

theorem SMap.lookup_put_ne (m : SMap α) {k j : Nat} (v : α) (h : j ≠ k) :
    SMap.lookup (SMap.put m k v) j = SMap.lookup m j := by
  induction m with
  | nil => simp [SMap.put, SMap.lookup, Ne.symm h]
  | cons p m ih =>
    obtain ⟨k', v'⟩ := p
    unfold SMap.put
    split
    · simp [SMap.lookup, Ne.symm h]
    · split
      · next hk => subst hk; simp [SMap.lookup, Ne.symm h]
      · simp [SMap.lookup, ih]

theorem SMap.lookup_del_self (m : SMap α) (k : Nat) : SMap.lookup (SMap.del m k) k = none := by
  induction m with
  | nil => rfl
  | cons p m ih =>
    obtain ⟨k', v'⟩ := p
    by_cases h : k' = k
    · simpa [SMap.del, h] using ih
    · simpa [SMap.del, SMap.lookup, h] using ih

theorem SMap.lookup_del_ne (m : SMap α) {k j : Nat} (h : j ≠ k) :
    SMap.lookup (SMap.del m k) j = SMap.lookup m j := by
  induction m with
  | nil => rfl
  | cons p m ih =>
    obtain ⟨k', v'⟩ := p
    by_cases hk : k' = k
    · subst hk
      simpa [SMap.del, SMap.lookup, Ne.symm h] using ih
    · by_cases hj : k' = j
      · simp [SMap.del, SMap.lookup, hj, h]
      · simpa [SMap.del, SMap.lookup, hk, hj] using ih

@[simp] theorem SMap.getD_put_self (m : SMap α) (k : Nat) (v d : α) : SMap.getD (SMap.put m k v) k d = v := by
  simp [SMap.getD, SMap.lookup_put_self]

theorem SMap.getD_put_ne (m : SMap α) {k j : Nat} (v d : α) (h : j ≠ k) :
    SMap.getD (SMap.put m k v) j d = SMap.getD m j d := by
  simp [SMap.getD, SMap.lookup_put_ne m v h]

@[simp] theorem SMap.getD_setD_self [DecidableEq α] (m : SMap α) (d : α) (k : Nat) (v : α) :
    SMap.getD (SMap.setD m d k v) k d = v := by
  unfold SMap.setD
  split
  · next h => simp [SMap.getD, SMap.lookup_del_self, h]
  · simp

theorem SMap.getD_setD_ne [DecidableEq α] (m : SMap α) (d : α) {k j : Nat} (v : α) (h : j ≠ k) :
    SMap.getD (SMap.setD m d k v) j d = SMap.getD m j d := by
  unfold SMap.setD
  split
  · simp [SMap.getD, SMap.lookup_del_ne m h]
  · exact SMap.getD_put_ne m v d h

@[simp] theorem SMap.getD_updD_self [DecidableEq α] (m : SMap α) (d : α) (k : Nat) (f : α → α) :
    SMap.getD (SMap.updD m d k f) k d = f (SMap.getD m k d) := by
  simp [SMap.updD]

theorem SMap.getD_updD_ne [DecidableEq α] (m : SMap α) (d : α) {k j : Nat} (f : α → α) (h : j ≠ k) :
    SMap.getD (SMap.updD m d k f) j d = SMap.getD m j d :=
  SMap.getD_setD_ne m d _ h

theorem SMap.lookup_upd_self (m : SMap α) (k : Nat) (f : α → α) :
    SMap.lookup (SMap.upd m k f) k = (SMap.lookup m k).map f := by
  unfold SMap.upd
  split
  · next v h => simp [SMap.lookup_put_self, h]
  · next h => simp [h]

theorem SMap.lookup_upd_ne (m : SMap α) {k j : Nat} (f : α → α) (h : j ≠ k) :
    SMap.lookup (SMap.upd m k f) j = SMap.lookup m j := by
  unfold SMap.upd
  split
  · exact SMap.lookup_put_ne m _ h
  · rfl

/-! ### The canonical form -/

theorem SMap.mem_put {m : SMap α} {k : Nat} {v : α} {p : Nat × α} (h : p ∈ SMap.put m k v) :
    p = (k, v) ∨ p ∈ m := by
  induction m with
  | nil => simpa [SMap.put] using h
  | cons q m ih =>
    obtain ⟨k', v'⟩ := q
    unfold SMap.put at h
    split at h
    · simpa using h
    · split at h
      · rcases List.mem_cons.1 h with h | h
        · exact .inl h
        · exact .inr (List.mem_cons_of_mem _ h)
      · rcases List.mem_cons.1 h with h | h
        · exact .inr (h ▸ List.mem_cons_self)
        · exact (ih h).imp id (List.mem_cons_of_mem _)

theorem SMap.sorted_put {m : SMap α} (h : SMap.sorted m) (k : Nat) (v : α) : SMap.sorted (SMap.put m k v) := by
  induction m with
  | nil => simp [SMap.put, SMap.sorted]
  | cons q m ih =>
    obtain ⟨k', v'⟩ := q
    have h1 := List.pairwise_cons.1 h
    unfold SMap.put
    split
    · next hk =>
      refine List.pairwise_cons.2 ⟨fun p hp => ?_, h⟩
      rcases List.mem_cons.1 hp with rfl | hp
      · exact hk
      · exact Nat.lt_trans hk (h1.1 p hp)
    · split
      · next hk => exact List.pairwise_cons.2 ⟨fun p hp => hk ▸ h1.1 p hp, h1.2⟩
      · refine List.pairwise_cons.2 ⟨fun p hp => ?_, ih h1.2⟩
        rcases SMap.mem_put hp with rfl | hp
        · simp only; omega
        · exact h1.1 p hp

theorem SMap.sorted_filter {m : SMap α} (h : SMap.sorted m) (q : Nat × α → Bool) : SMap.sorted (m.filter q) :=
  List.Pairwise.filter q h

theorem SMap.wf_nil [DecidableEq α] (d : α) : SMap.wf d ([] : SMap α) :=
  ⟨List.Pairwise.nil, by simp⟩

theorem SMap.wf_filter [DecidableEq α] {d : α} {m : SMap α} (h : SMap.wf d m) (q : Nat × α → Bool) :
    SMap.wf d (m.filter q) :=
  ⟨SMap.sorted_filter h.1 q, fun p hp => h.2 p (List.mem_filter.1 hp).1⟩

theorem SMap.wf_del [DecidableEq α] {d : α} {m : SMap α} (h : SMap.wf d m) (k : Nat) : SMap.wf d (SMap.del m k) :=
  SMap.wf_filter h _

theorem SMap.wf_setD [DecidableEq α] {d : α} {m : SMap α} (h : SMap.wf d m) (k : Nat) (v : α) :
    SMap.wf d (SMap.setD m d k v) := by
  unfold SMap.setD
  split
  · exact SMap.wf_del h k
  · next hv =>
    refine ⟨SMap.sorted_put h.1 k v, fun p hp => ?_⟩
    rcases SMap.mem_put hp with rfl | hp
    · exact hv
    · exact h.2 p hp

theorem SMap.wf_updD [DecidableEq α] {d : α} {m : SMap α} (h : SMap.wf d m) (k : Nat) (f : α → α) :
    SMap.wf d (SMap.updD m d k f) :=
  SMap.wf_setD h k _

/-! ### Memories -/

namespace Machine

@[simp] theorem Mem.get_set_self (m : Mem) (a : Nat) (b : Byte) : Mem.get (Mem.set m a b) a = b := by
  simp [Mem.get, Mem.set]

theorem Mem.get_set_ne (m : Mem) {a x : Nat} (b : Byte) (h : x ≠ a) : Mem.get (Mem.set m a b) x = Mem.get m x :=
  SMap.getD_setD_ne m 0 b h

theorem Mem.get_writeN_out (m : Mem) (a : Nat) (bs : List Byte) {x : Nat} (h : x < a ∨ a + bs.length ≤ x) :
    Mem.get (Mem.writeN m a bs) x = Mem.get m x := by
  induction bs generalizing m a with
  | nil => rfl
  | cons b bs ih =>
    simp only [List.length_cons] at h
    rw [Mem.writeN, ih _ _ (by omega), Mem.get_set_ne _ _ (by omega)]

theorem Mem.get_writeN_in (m : Mem) (a : Nat) (bs : List Byte) (i : Nat) (h : i < bs.length) :
    Mem.get (Mem.writeN m a bs) (a + i) = bs[i] := by
  induction bs generalizing m a i with
  | nil => simp at h
  | cons b bs ih =>
    rw [Mem.writeN]
    cases i with
    | zero => rw [Mem.get_writeN_out _ _ _ (by omega)]; simp
    | succ i =>
      have := ih (Mem.set m a b) (a + 1) i (by simpa using h)
      rw [show a + (i + 1) = a + 1 + i by omega, this]
      rfl

theorem Mem.readN_writeN (m : Mem) (a : Nat) (bs : List Byte) : Mem.readN (Mem.writeN m a bs) a bs.length = bs := by
  apply List.ext_getElem
  · simp [Mem.readN]
  · intro i h1 h2
    simp [Mem.readN, Mem.get_writeN_in m a bs i h2]

theorem Mem.wf_set {m : Mem} (h : Mem.wf m) (a : Nat) (b : Byte) : Mem.wf (Mem.set m a b) :=
  SMap.wf_setD h a b

theorem Mem.wf_writeN {m : Mem} (h : Mem.wf m) (a : Nat) (bs : List Byte) : Mem.wf (Mem.writeN m a bs) := by
  induction bs generalizing m a with
  | nil => exact h
  | cons b bs ih => exact ih (Mem.wf_set h a b) (a + 1)

theorem Mem.wf_zero {m : Mem} (h : Mem.wf m) (a n : Nat) : Mem.wf (Mem.zero m a n) := SMap.wf_filter h _

end Machine

end Sys2Proof
end

