-- ==== Sys2Proof/Laws/Mailbox.lean ====
section
/-! SUPPORT. What the completion of a mailbox command does, and when a command completes: the lemmas that a proof about
a command cites. -/

namespace Sys2Proof.Machine

open Sys2Proof.Safety

theorem sendVector_core (v : Nat) (s : State) :
    { sendVector v s with hif := s.hif, out := s.out } = s ∧ (sendVector v s).hif.mbs = s.hif.mbs
      ∧ (sendVector v s).hif.mbDone = s.hif.mbDone := by
  unfold sendVector State.emit
  split <;> exact ⟨rfl, rfl, rfl⟩

theorem Mailbox.setRes_res (m : Mailbox) (res : List Nat) (i : Nat) (hi : i < 15) (v : Nat) (h : res[i]? = some v) :
    SMap.getD (m.setRes res).res i 0 = BitVec.ofNat 64 v := by
  have key : ∀ (l : List (Nat × Nat)) (r : SMap (BitVec 64)), l.Pairwise (fun a b => a.1 < b.1) →
      ((i, v) ∈ l ∨ ((∀ p ∈ l, p.1 ≠ i) ∧ SMap.getD r i 0 = BitVec.ofNat 64 v)) →
      SMap.getD (l.foldl (fun (r : SMap (BitVec 64)) p => SMap.setD r 0 p.1 (BitVec.ofNat 64 p.2)) r) i 0
        = BitVec.ofNat 64 v := by
    intro l
    induction l with
    | nil => intro r _ h; simpa using h
    | cons p l ih =>
      intro r hs hm
      have hs := List.pairwise_cons.1 hs
      refine ih _ hs.2 ?_
      rcases hm with hm | ⟨hn, hr⟩
      · rcases List.mem_cons.1 hm with rfl | hm
        · exact .inr ⟨fun q hq => (Nat.ne_of_lt (hs.1 q hq)).symm, by simp⟩
        · exact .inl hm
      · refine .inr ⟨fun q hq => hn q (List.mem_cons_of_mem _ hq), ?_⟩
        rw [SMap.getD_setD_ne _ _ _ (hn p List.mem_cons_self).symm]
        exact hr
  refine key _ _ ?_ (.inl ?_)
  · rw [List.pairwise_iff_getElem]
    intro a b ha hb hab
    simpa using hab
  · rw [List.mem_iff_getElem?]
    exact ⟨i, by simp [List.getElem?_zip_eq_some, hi, h]⟩

theorem finishCmd_core (mb st : Nat) (res : List Nat) (s : State) :
    { finishCmd mb st res s with hif := s.hif, out := s.out } = s := by
  unfold finishCmd State.modMailbox
  simp only
  split
  · exact (congrArg (fun x : State => { x with hif := s.hif, out := s.out }) (sendVector_core mb _).1 :)
  · rfl

@[simp] theorem finishCmd_spine (mb st : Nat) (res : List Nat) (s : State) : (finishCmd mb st res s).spine = s.spine :=
  (congrArg State.spine (finishCmd_core mb st res s) :)

theorem finishCmd_mbs (mb st : Nat) (res : List Nat) (s : State) :
    (finishCmd mb st res s).hif.mbs = SMap.updD s.hif.mbs Mailbox.reset mb (fun m =>
      { (m.setRes res) with
        word4 := BitVec.ofNat 32 (st + m.seq * 2 ^ 16)
        word0 := m.word0 &&& 0x7FFFFFFF }) := by
  unfold finishCmd State.modMailbox
  simp only
  split
  · exact (sendVector_core mb _).2.1
  · rfl

theorem finishCmd_mbDone (mb st : Nat) (res : List Nat) (s : State) :
    (finishCmd mb st res s).hif.mbDone = s.hif.mbDone ||| BitVec.ofNat 16 (2 ^ mb) := by
  unfold finishCmd State.modMailbox
  simp only
  split
  · exact (sendVector_core mb _).2.2
  · rfl

theorem finishCmd_answered {s s' : State} (h : s'.hif.mbs = s.hif.mbs) (hd : s'.hif.mbDone = s.hif.mbDone) (mb : Fin 16)
    (st : Nat) (res : List Nat) : Answered s (finishCmd mb st res s') mb st res := by
  have hm (j : Nat) : s'.mailbox j = s.mailbox j := by simp [State.mailbox, h]
  refine ⟨?_, ?_, ?_, ?_, ?_⟩
  · simp [State.mailbox, finishCmd_mbs, Mailbox.own]
  · simp [State.mailbox, finishCmd_mbs, h]
  · intro i hi v hv
    simp only [State.mailbox, finishCmd_mbs, SMap.getD_updD_self]
    exact Mailbox.setRes_res _ _ i hi v hv
  · rw [finishCmd_mbDone, hd]
  · intro j hj
    simp only [State.mailbox, finishCmd_mbs]
    rw [SMap.getD_updD_ne _ _ _ hj, h]

/-! ### When a command completes -/

theorem answerFaults_nil {s : State} (h : s.spine.faults = []) (n : Nat) : answerFaults n s = s := by
  cases n with
  | zero => rfl
  | succ n => simp [answerFaults, nextFault, h]

theorem done_calm {s : State} (h : Calm s) : done s = .next s := by
  unfold done
  rcases h with h | h
  · simp [h]
  · rw [answerFaults_nil h, ite_self]

theorem calm_of_spine {s s' : State} (h : Calm s) (hs : s'.spine = s.spine) : Calm s' := by
  unfold Calm at *
  rwa [hs]

theorem runCmd_ok {s : State} {mb : Fin 16} {code n : Nat} {f : (Nat → Nat) → State → Reply} {res : List Nat} {s' : State}
    (h : Holds s mb code n) (hf : f (s.mailbox mb).arg s = .ok res s') (hc : Calm s') :
    runCmd mb code n f s = .next (finishCmd mb St.ok res s') := by
  unfold runCmd
  rw [h.1, h.2.1, hf]
  exact done_calm (calm_of_spine hc (finishCmd_spine ..))

theorem runCmd_fail {s : State} {mb : Fin 16} {code n : Nat} {f : (Nat → Nat) → State → Reply} {st : Status}
    (h : Holds s mb code n) (hf : f (s.mailbox mb).arg s = .fail st) :
    runCmd mb code n f s = .next (finishCmd mb st [] s) := by
  unfold runCmd
  rw [h.1, h.2.1, hf]
  rfl

theorem report_ok {s s' : State} {w : Nat} {data : List Byte} (h : ReportAt s s' w data) (res : List Nat) :
    report w data res s = .ok res s' := by
  simp [report, h.1, h.2.1]

theorem withRecord_ok {s s' : State} {w n align : Nat} {data : List Byte} (h : RecordAt s s' w n align data)
    (f : List Byte → State → Reply) : withRecord w n align s f = f data s' := by
  simp [withRecord, h.1, h.2.1]

theorem checked_of {l : List (Bool × Status)} {r : Reply} (h : ∀ p ∈ l, p.1 = false) : checked l r = r := by
  have : firstErr l = none := by
    induction l with
    | nil => rfl
    | cons p l ih =>
      obtain ⟨b, e⟩ := p
      have hb : b = false := h (b, e) List.mem_cons_self
      simp [firstErr, hb, ih fun q hq => h q (List.mem_cons_of_mem _ hq)]
  simp [checked, this]

end Sys2Proof.Machine
end

