-- ==== Sys2Proof/Laws/Frames.lean ====
section
/-! SUPPORT. What the shared operations leave alone, one lemma each. A lemma named after an operation with the ending
_frame says which parts of the state it can change: with those parts set back, the state is as it was. -/

namespace Sys2Proof.Machine

theorem sendVector_frame (v : Nat) (s : State) (h : Hif) (o : List Output) :
    { sendVector v s with hif := h, out := o } = { s with hif := h, out := o } := by
  unfold sendVector State.emit
  split <;> rfl

theorem raiseCause_frame (c : Nat) (s : State) (h : Hif) (o : List Output) :
    { raiseCause c s with hif := h, out := o } = { s with hif := h, out := o } := by
  unfold raiseCause
  split
  · rfl
  · simp only
    split
    · rfl
    · rw [sendVector_frame]

theorem foldl_frame {β : Type} (f : State → β → State) (h : Hif) (o : List Output)
    (hf : ∀ s b, { f s b with hif := h, out := o } = { s with hif := h, out := o }) (l : List β) (s : State) :
    { l.foldl f s with hif := h, out := o } = { s with hif := h, out := o } := by
  induction l generalizing s with
  | nil => rfl
  | cons b l ih => rw [List.foldl_cons, ih, hf]

theorem sendPending_frame (s : State) (h : Hif) (o : List Output) :
    { sendPending s with hif := h, out := o } = { s with hif := h, out := o } := by
  refine foldl_frame _ h o (fun s v => ?_) _ s
  split <;> rfl

/-- Sending messages leaves the configuration registers, the interrupt mask and causes, and the mailboxes. -/
theorem sendVector_hif (v : Nat) (s : State) :
    { (sendVector v s).hif with msixPba := s.hif.msixPba } = s.hif := by
  unfold sendVector State.emit
  split <;> rfl

theorem sendPending_hif (s : State) (p : BitVec 64) :
    { (sendPending s).hif with msixPba := p } = { s.hif with msixPba := p } := by
  unfold sendPending
  generalize List.range 64 = l
  induction l generalizing s with
  | nil => rfl
  | cons v l ih =>
    rw [List.foldl_cons, ih]
    split <;> rfl

end Sys2Proof.Machine
end

