-- ==== Sys2Proof/Laws/State.lean ====
section
/-! SUPPORT. Each update of a part of the state leaves every other field, one lemma a field; then what an update of a tile,
a thread, a channel or a link reads as. -/

namespace Sys2Proof.Machine

/-! ### emit -/

@[simp] theorem State.emit_pending (s : State) (o : Output) : (s.emit o).pending = s.pending := rfl
@[simp] theorem State.emit_freeCtr (s : State) (o : Output) : (s.emit o).freeCtr = s.freeCtr := rfl
@[simp] theorem State.emit_sys (s : State) (o : Output) : (s.emit o).sys = s.sys := rfl
@[simp] theorem State.emit_hif (s : State) (o : Output) : (s.emit o).hif = s.hif := rfl
@[simp] theorem State.emit_chans (s : State) (o : Output) : (s.emit o).chans = s.chans := rfl
@[simp] theorem State.emit_tiles (s : State) (o : Output) : (s.emit o).tiles = s.tiles := rfl
@[simp] theorem State.emit_num (s : State) (o : Output) : (s.emit o).num = s.num := rfl
@[simp] theorem State.emit_mem (s : State) (o : Output) : (s.emit o).mem = s.mem := rfl
@[simp] theorem State.emit_ptu (s : State) (o : Output) : (s.emit o).ptu = s.ptu := rfl
@[simp] theorem State.emit_leafs (s : State) (o : Output) : (s.emit o).leafs = s.leafs := rfl
@[simp] theorem State.emit_links (s : State) (o : Output) : (s.emit o).links = s.links := rfl
@[simp] theorem State.emit_spine (s : State) (o : Output) : (s.emit o).spine = s.spine := rfl
@[simp] theorem State.emit_cle (s : State) (o : Output) : (s.emit o).cle = s.cle := rfl
@[simp] theorem State.emit_ige (s : State) (o : Output) : (s.emit o).ige = s.ige := rfl
@[simp] theorem State.emit_rse (s : State) (o : Output) : (s.emit o).rse = s.rse := rfl
@[simp] theorem State.emit_pcm (s : State) (o : Output) : (s.emit o).pcm = s.pcm := rfl
@[simp] theorem State.emit_sec (s : State) (o : Output) : (s.emit o).sec = s.sec := rfl
@[simp] theorem State.emit_host (s : State) (o : Output) : (s.emit o).host = s.host := rfl
@[simp] theorem State.emit_hostBad (s : State) (o : Output) : (s.emit o).hostBad = s.hostBad := rfl
@[simp] theorem State.emit_flash (s : State) (o : Output) : (s.emit o).flash = s.flash := rfl

/-! ### draw -/

@[simp] theorem State.draw_pending (s : State) : (s.draw.2).pending = s.pending := rfl
@[simp] theorem State.draw_out (s : State) : (s.draw.2).out = s.out := rfl
@[simp] theorem State.draw_sys (s : State) : (s.draw.2).sys = s.sys := rfl
@[simp] theorem State.draw_hif (s : State) : (s.draw.2).hif = s.hif := rfl
@[simp] theorem State.draw_chans (s : State) : (s.draw.2).chans = s.chans := rfl
@[simp] theorem State.draw_tiles (s : State) : (s.draw.2).tiles = s.tiles := rfl
@[simp] theorem State.draw_num (s : State) : (s.draw.2).num = s.num := rfl
@[simp] theorem State.draw_mem (s : State) : (s.draw.2).mem = s.mem := rfl
@[simp] theorem State.draw_ptu (s : State) : (s.draw.2).ptu = s.ptu := rfl
@[simp] theorem State.draw_leafs (s : State) : (s.draw.2).leafs = s.leafs := rfl
@[simp] theorem State.draw_links (s : State) : (s.draw.2).links = s.links := rfl
@[simp] theorem State.draw_spine (s : State) : (s.draw.2).spine = s.spine := rfl
@[simp] theorem State.draw_cle (s : State) : (s.draw.2).cle = s.cle := rfl
@[simp] theorem State.draw_ige (s : State) : (s.draw.2).ige = s.ige := rfl
@[simp] theorem State.draw_rse (s : State) : (s.draw.2).rse = s.rse := rfl
@[simp] theorem State.draw_pcm (s : State) : (s.draw.2).pcm = s.pcm := rfl
@[simp] theorem State.draw_sec (s : State) : (s.draw.2).sec = s.sec := rfl
@[simp] theorem State.draw_host (s : State) : (s.draw.2).host = s.host := rfl
@[simp] theorem State.draw_hostBad (s : State) : (s.draw.2).hostBad = s.hostBad := rfl
@[simp] theorem State.draw_flash (s : State) : (s.draw.2).flash = s.flash := rfl

/-! ### setTile -/

@[simp] theorem State.setTile_pending (s : State) (t : Nat) (v : Tile) : (s.setTile t v).pending = s.pending := rfl
@[simp] theorem State.setTile_out (s : State) (t : Nat) (v : Tile) : (s.setTile t v).out = s.out := rfl
@[simp] theorem State.setTile_freeCtr (s : State) (t : Nat) (v : Tile) : (s.setTile t v).freeCtr = s.freeCtr := rfl
@[simp] theorem State.setTile_sys (s : State) (t : Nat) (v : Tile) : (s.setTile t v).sys = s.sys := rfl
@[simp] theorem State.setTile_hif (s : State) (t : Nat) (v : Tile) : (s.setTile t v).hif = s.hif := rfl
@[simp] theorem State.setTile_chans (s : State) (t : Nat) (v : Tile) : (s.setTile t v).chans = s.chans := rfl
@[simp] theorem State.setTile_num (s : State) (t : Nat) (v : Tile) : (s.setTile t v).num = s.num := rfl
@[simp] theorem State.setTile_mem (s : State) (t : Nat) (v : Tile) : (s.setTile t v).mem = s.mem := rfl
@[simp] theorem State.setTile_ptu (s : State) (t : Nat) (v : Tile) : (s.setTile t v).ptu = s.ptu := rfl
@[simp] theorem State.setTile_leafs (s : State) (t : Nat) (v : Tile) : (s.setTile t v).leafs = s.leafs := rfl
@[simp] theorem State.setTile_links (s : State) (t : Nat) (v : Tile) : (s.setTile t v).links = s.links := rfl
@[simp] theorem State.setTile_spine (s : State) (t : Nat) (v : Tile) : (s.setTile t v).spine = s.spine := rfl
@[simp] theorem State.setTile_cle (s : State) (t : Nat) (v : Tile) : (s.setTile t v).cle = s.cle := rfl
@[simp] theorem State.setTile_ige (s : State) (t : Nat) (v : Tile) : (s.setTile t v).ige = s.ige := rfl
@[simp] theorem State.setTile_rse (s : State) (t : Nat) (v : Tile) : (s.setTile t v).rse = s.rse := rfl
@[simp] theorem State.setTile_pcm (s : State) (t : Nat) (v : Tile) : (s.setTile t v).pcm = s.pcm := rfl
@[simp] theorem State.setTile_sec (s : State) (t : Nat) (v : Tile) : (s.setTile t v).sec = s.sec := rfl
@[simp] theorem State.setTile_host (s : State) (t : Nat) (v : Tile) : (s.setTile t v).host = s.host := rfl
@[simp] theorem State.setTile_hostBad (s : State) (t : Nat) (v : Tile) : (s.setTile t v).hostBad = s.hostBad := rfl
@[simp] theorem State.setTile_flash (s : State) (t : Nat) (v : Tile) : (s.setTile t v).flash = s.flash := rfl

/-! ### modTile -/

@[simp] theorem State.modTile_pending (s : State) (t : Nat) (f : Tile → Tile) : (s.modTile t f).pending = s.pending := rfl
@[simp] theorem State.modTile_out (s : State) (t : Nat) (f : Tile → Tile) : (s.modTile t f).out = s.out := rfl
@[simp] theorem State.modTile_freeCtr (s : State) (t : Nat) (f : Tile → Tile) : (s.modTile t f).freeCtr = s.freeCtr := rfl
@[simp] theorem State.modTile_sys (s : State) (t : Nat) (f : Tile → Tile) : (s.modTile t f).sys = s.sys := rfl
@[simp] theorem State.modTile_hif (s : State) (t : Nat) (f : Tile → Tile) : (s.modTile t f).hif = s.hif := rfl
@[simp] theorem State.modTile_chans (s : State) (t : Nat) (f : Tile → Tile) : (s.modTile t f).chans = s.chans := rfl
@[simp] theorem State.modTile_num (s : State) (t : Nat) (f : Tile → Tile) : (s.modTile t f).num = s.num := rfl
@[simp] theorem State.modTile_mem (s : State) (t : Nat) (f : Tile → Tile) : (s.modTile t f).mem = s.mem := rfl
@[simp] theorem State.modTile_ptu (s : State) (t : Nat) (f : Tile → Tile) : (s.modTile t f).ptu = s.ptu := rfl
@[simp] theorem State.modTile_leafs (s : State) (t : Nat) (f : Tile → Tile) : (s.modTile t f).leafs = s.leafs := rfl
@[simp] theorem State.modTile_links (s : State) (t : Nat) (f : Tile → Tile) : (s.modTile t f).links = s.links := rfl
@[simp] theorem State.modTile_spine (s : State) (t : Nat) (f : Tile → Tile) : (s.modTile t f).spine = s.spine := rfl
@[simp] theorem State.modTile_cle (s : State) (t : Nat) (f : Tile → Tile) : (s.modTile t f).cle = s.cle := rfl
@[simp] theorem State.modTile_ige (s : State) (t : Nat) (f : Tile → Tile) : (s.modTile t f).ige = s.ige := rfl
@[simp] theorem State.modTile_rse (s : State) (t : Nat) (f : Tile → Tile) : (s.modTile t f).rse = s.rse := rfl
@[simp] theorem State.modTile_pcm (s : State) (t : Nat) (f : Tile → Tile) : (s.modTile t f).pcm = s.pcm := rfl
@[simp] theorem State.modTile_sec (s : State) (t : Nat) (f : Tile → Tile) : (s.modTile t f).sec = s.sec := rfl
@[simp] theorem State.modTile_host (s : State) (t : Nat) (f : Tile → Tile) : (s.modTile t f).host = s.host := rfl
@[simp] theorem State.modTile_hostBad (s : State) (t : Nat) (f : Tile → Tile) : (s.modTile t f).hostBad = s.hostBad := rfl
@[simp] theorem State.modTile_flash (s : State) (t : Nat) (f : Tile → Tile) : (s.modTile t f).flash = s.flash := rfl

/-! ### setChan -/

@[simp] theorem State.setChan_pending (s : State) (c : Nat) (v : Chan) : (s.setChan c v).pending = s.pending := rfl
@[simp] theorem State.setChan_out (s : State) (c : Nat) (v : Chan) : (s.setChan c v).out = s.out := rfl
@[simp] theorem State.setChan_freeCtr (s : State) (c : Nat) (v : Chan) : (s.setChan c v).freeCtr = s.freeCtr := rfl
@[simp] theorem State.setChan_sys (s : State) (c : Nat) (v : Chan) : (s.setChan c v).sys = s.sys := rfl
@[simp] theorem State.setChan_hif (s : State) (c : Nat) (v : Chan) : (s.setChan c v).hif = s.hif := rfl
@[simp] theorem State.setChan_tiles (s : State) (c : Nat) (v : Chan) : (s.setChan c v).tiles = s.tiles := rfl
@[simp] theorem State.setChan_num (s : State) (c : Nat) (v : Chan) : (s.setChan c v).num = s.num := rfl
@[simp] theorem State.setChan_mem (s : State) (c : Nat) (v : Chan) : (s.setChan c v).mem = s.mem := rfl
@[simp] theorem State.setChan_ptu (s : State) (c : Nat) (v : Chan) : (s.setChan c v).ptu = s.ptu := rfl
@[simp] theorem State.setChan_leafs (s : State) (c : Nat) (v : Chan) : (s.setChan c v).leafs = s.leafs := rfl
@[simp] theorem State.setChan_links (s : State) (c : Nat) (v : Chan) : (s.setChan c v).links = s.links := rfl
@[simp] theorem State.setChan_spine (s : State) (c : Nat) (v : Chan) : (s.setChan c v).spine = s.spine := rfl
@[simp] theorem State.setChan_cle (s : State) (c : Nat) (v : Chan) : (s.setChan c v).cle = s.cle := rfl
@[simp] theorem State.setChan_ige (s : State) (c : Nat) (v : Chan) : (s.setChan c v).ige = s.ige := rfl
@[simp] theorem State.setChan_rse (s : State) (c : Nat) (v : Chan) : (s.setChan c v).rse = s.rse := rfl
@[simp] theorem State.setChan_pcm (s : State) (c : Nat) (v : Chan) : (s.setChan c v).pcm = s.pcm := rfl
@[simp] theorem State.setChan_sec (s : State) (c : Nat) (v : Chan) : (s.setChan c v).sec = s.sec := rfl
@[simp] theorem State.setChan_host (s : State) (c : Nat) (v : Chan) : (s.setChan c v).host = s.host := rfl
@[simp] theorem State.setChan_hostBad (s : State) (c : Nat) (v : Chan) : (s.setChan c v).hostBad = s.hostBad := rfl
@[simp] theorem State.setChan_flash (s : State) (c : Nat) (v : Chan) : (s.setChan c v).flash = s.flash := rfl

/-! ### modChan -/

@[simp] theorem State.modChan_pending (s : State) (c : Nat) (f : Chan → Chan) : (s.modChan c f).pending = s.pending := rfl
@[simp] theorem State.modChan_out (s : State) (c : Nat) (f : Chan → Chan) : (s.modChan c f).out = s.out := rfl
@[simp] theorem State.modChan_freeCtr (s : State) (c : Nat) (f : Chan → Chan) : (s.modChan c f).freeCtr = s.freeCtr := rfl
@[simp] theorem State.modChan_sys (s : State) (c : Nat) (f : Chan → Chan) : (s.modChan c f).sys = s.sys := rfl
@[simp] theorem State.modChan_hif (s : State) (c : Nat) (f : Chan → Chan) : (s.modChan c f).hif = s.hif := rfl
@[simp] theorem State.modChan_tiles (s : State) (c : Nat) (f : Chan → Chan) : (s.modChan c f).tiles = s.tiles := rfl
@[simp] theorem State.modChan_num (s : State) (c : Nat) (f : Chan → Chan) : (s.modChan c f).num = s.num := rfl
@[simp] theorem State.modChan_mem (s : State) (c : Nat) (f : Chan → Chan) : (s.modChan c f).mem = s.mem := rfl
@[simp] theorem State.modChan_ptu (s : State) (c : Nat) (f : Chan → Chan) : (s.modChan c f).ptu = s.ptu := rfl
@[simp] theorem State.modChan_leafs (s : State) (c : Nat) (f : Chan → Chan) : (s.modChan c f).leafs = s.leafs := rfl
@[simp] theorem State.modChan_links (s : State) (c : Nat) (f : Chan → Chan) : (s.modChan c f).links = s.links := rfl
@[simp] theorem State.modChan_spine (s : State) (c : Nat) (f : Chan → Chan) : (s.modChan c f).spine = s.spine := rfl
@[simp] theorem State.modChan_cle (s : State) (c : Nat) (f : Chan → Chan) : (s.modChan c f).cle = s.cle := rfl
@[simp] theorem State.modChan_ige (s : State) (c : Nat) (f : Chan → Chan) : (s.modChan c f).ige = s.ige := rfl
@[simp] theorem State.modChan_rse (s : State) (c : Nat) (f : Chan → Chan) : (s.modChan c f).rse = s.rse := rfl
@[simp] theorem State.modChan_pcm (s : State) (c : Nat) (f : Chan → Chan) : (s.modChan c f).pcm = s.pcm := rfl
@[simp] theorem State.modChan_sec (s : State) (c : Nat) (f : Chan → Chan) : (s.modChan c f).sec = s.sec := rfl
@[simp] theorem State.modChan_host (s : State) (c : Nat) (f : Chan → Chan) : (s.modChan c f).host = s.host := rfl
@[simp] theorem State.modChan_hostBad (s : State) (c : Nat) (f : Chan → Chan) : (s.modChan c f).hostBad = s.hostBad := rfl
@[simp] theorem State.modChan_flash (s : State) (c : Nat) (f : Chan → Chan) : (s.modChan c f).flash = s.flash := rfl

/-! ### modLink -/

@[simp] theorem State.modLink_pending (s : State) (l : Nat) (f : Link → Link) : (s.modLink l f).pending = s.pending := rfl
@[simp] theorem State.modLink_out (s : State) (l : Nat) (f : Link → Link) : (s.modLink l f).out = s.out := rfl
@[simp] theorem State.modLink_freeCtr (s : State) (l : Nat) (f : Link → Link) : (s.modLink l f).freeCtr = s.freeCtr := rfl
@[simp] theorem State.modLink_sys (s : State) (l : Nat) (f : Link → Link) : (s.modLink l f).sys = s.sys := rfl
@[simp] theorem State.modLink_hif (s : State) (l : Nat) (f : Link → Link) : (s.modLink l f).hif = s.hif := rfl
@[simp] theorem State.modLink_chans (s : State) (l : Nat) (f : Link → Link) : (s.modLink l f).chans = s.chans := rfl
@[simp] theorem State.modLink_tiles (s : State) (l : Nat) (f : Link → Link) : (s.modLink l f).tiles = s.tiles := rfl
@[simp] theorem State.modLink_num (s : State) (l : Nat) (f : Link → Link) : (s.modLink l f).num = s.num := rfl
@[simp] theorem State.modLink_mem (s : State) (l : Nat) (f : Link → Link) : (s.modLink l f).mem = s.mem := rfl
@[simp] theorem State.modLink_ptu (s : State) (l : Nat) (f : Link → Link) : (s.modLink l f).ptu = s.ptu := rfl
@[simp] theorem State.modLink_leafs (s : State) (l : Nat) (f : Link → Link) : (s.modLink l f).leafs = s.leafs := rfl
@[simp] theorem State.modLink_spine (s : State) (l : Nat) (f : Link → Link) : (s.modLink l f).spine = s.spine := rfl
@[simp] theorem State.modLink_cle (s : State) (l : Nat) (f : Link → Link) : (s.modLink l f).cle = s.cle := rfl
@[simp] theorem State.modLink_ige (s : State) (l : Nat) (f : Link → Link) : (s.modLink l f).ige = s.ige := rfl
@[simp] theorem State.modLink_rse (s : State) (l : Nat) (f : Link → Link) : (s.modLink l f).rse = s.rse := rfl
@[simp] theorem State.modLink_pcm (s : State) (l : Nat) (f : Link → Link) : (s.modLink l f).pcm = s.pcm := rfl
@[simp] theorem State.modLink_sec (s : State) (l : Nat) (f : Link → Link) : (s.modLink l f).sec = s.sec := rfl
@[simp] theorem State.modLink_host (s : State) (l : Nat) (f : Link → Link) : (s.modLink l f).host = s.host := rfl
@[simp] theorem State.modLink_hostBad (s : State) (l : Nat) (f : Link → Link) : (s.modLink l f).hostBad = s.hostBad := rfl
@[simp] theorem State.modLink_flash (s : State) (l : Nat) (f : Link → Link) : (s.modLink l f).flash = s.flash := rfl

/-! ### tileCtr -/

@[simp] theorem State.tileCtr_pending (s : State) (t : Nat) (f : Ctrs → Ctrs) : (s.tileCtr t f).pending = s.pending := rfl
@[simp] theorem State.tileCtr_out (s : State) (t : Nat) (f : Ctrs → Ctrs) : (s.tileCtr t f).out = s.out := rfl
@[simp] theorem State.tileCtr_freeCtr (s : State) (t : Nat) (f : Ctrs → Ctrs) : (s.tileCtr t f).freeCtr = s.freeCtr := rfl
@[simp] theorem State.tileCtr_sys (s : State) (t : Nat) (f : Ctrs → Ctrs) : (s.tileCtr t f).sys = s.sys := rfl
@[simp] theorem State.tileCtr_hif (s : State) (t : Nat) (f : Ctrs → Ctrs) : (s.tileCtr t f).hif = s.hif := rfl
@[simp] theorem State.tileCtr_chans (s : State) (t : Nat) (f : Ctrs → Ctrs) : (s.tileCtr t f).chans = s.chans := rfl
@[simp] theorem State.tileCtr_num (s : State) (t : Nat) (f : Ctrs → Ctrs) : (s.tileCtr t f).num = s.num := rfl
@[simp] theorem State.tileCtr_mem (s : State) (t : Nat) (f : Ctrs → Ctrs) : (s.tileCtr t f).mem = s.mem := rfl
@[simp] theorem State.tileCtr_ptu (s : State) (t : Nat) (f : Ctrs → Ctrs) : (s.tileCtr t f).ptu = s.ptu := rfl
@[simp] theorem State.tileCtr_leafs (s : State) (t : Nat) (f : Ctrs → Ctrs) : (s.tileCtr t f).leafs = s.leafs := rfl
@[simp] theorem State.tileCtr_links (s : State) (t : Nat) (f : Ctrs → Ctrs) : (s.tileCtr t f).links = s.links := rfl
@[simp] theorem State.tileCtr_spine (s : State) (t : Nat) (f : Ctrs → Ctrs) : (s.tileCtr t f).spine = s.spine := rfl
@[simp] theorem State.tileCtr_cle (s : State) (t : Nat) (f : Ctrs → Ctrs) : (s.tileCtr t f).cle = s.cle := rfl
@[simp] theorem State.tileCtr_ige (s : State) (t : Nat) (f : Ctrs → Ctrs) : (s.tileCtr t f).ige = s.ige := rfl
@[simp] theorem State.tileCtr_rse (s : State) (t : Nat) (f : Ctrs → Ctrs) : (s.tileCtr t f).rse = s.rse := rfl
@[simp] theorem State.tileCtr_pcm (s : State) (t : Nat) (f : Ctrs → Ctrs) : (s.tileCtr t f).pcm = s.pcm := rfl
@[simp] theorem State.tileCtr_sec (s : State) (t : Nat) (f : Ctrs → Ctrs) : (s.tileCtr t f).sec = s.sec := rfl
@[simp] theorem State.tileCtr_host (s : State) (t : Nat) (f : Ctrs → Ctrs) : (s.tileCtr t f).host = s.host := rfl
@[simp] theorem State.tileCtr_hostBad (s : State) (t : Nat) (f : Ctrs → Ctrs) : (s.tileCtr t f).hostBad = s.hostBad := rfl
@[simp] theorem State.tileCtr_flash (s : State) (t : Nat) (f : Ctrs → Ctrs) : (s.tileCtr t f).flash = s.flash := rfl

/-! ### tfeCtr -/

@[simp] theorem State.tfeCtr_pending (s : State) (t : Nat) (f : Ctrs → Ctrs) : (s.tfeCtr t f).pending = s.pending := rfl
@[simp] theorem State.tfeCtr_out (s : State) (t : Nat) (f : Ctrs → Ctrs) : (s.tfeCtr t f).out = s.out := rfl
@[simp] theorem State.tfeCtr_freeCtr (s : State) (t : Nat) (f : Ctrs → Ctrs) : (s.tfeCtr t f).freeCtr = s.freeCtr := rfl
@[simp] theorem State.tfeCtr_sys (s : State) (t : Nat) (f : Ctrs → Ctrs) : (s.tfeCtr t f).sys = s.sys := rfl
@[simp] theorem State.tfeCtr_hif (s : State) (t : Nat) (f : Ctrs → Ctrs) : (s.tfeCtr t f).hif = s.hif := rfl
@[simp] theorem State.tfeCtr_chans (s : State) (t : Nat) (f : Ctrs → Ctrs) : (s.tfeCtr t f).chans = s.chans := rfl
@[simp] theorem State.tfeCtr_num (s : State) (t : Nat) (f : Ctrs → Ctrs) : (s.tfeCtr t f).num = s.num := rfl
@[simp] theorem State.tfeCtr_mem (s : State) (t : Nat) (f : Ctrs → Ctrs) : (s.tfeCtr t f).mem = s.mem := rfl
@[simp] theorem State.tfeCtr_ptu (s : State) (t : Nat) (f : Ctrs → Ctrs) : (s.tfeCtr t f).ptu = s.ptu := rfl
@[simp] theorem State.tfeCtr_leafs (s : State) (t : Nat) (f : Ctrs → Ctrs) : (s.tfeCtr t f).leafs = s.leafs := rfl
@[simp] theorem State.tfeCtr_links (s : State) (t : Nat) (f : Ctrs → Ctrs) : (s.tfeCtr t f).links = s.links := rfl
@[simp] theorem State.tfeCtr_spine (s : State) (t : Nat) (f : Ctrs → Ctrs) : (s.tfeCtr t f).spine = s.spine := rfl
@[simp] theorem State.tfeCtr_cle (s : State) (t : Nat) (f : Ctrs → Ctrs) : (s.tfeCtr t f).cle = s.cle := rfl
@[simp] theorem State.tfeCtr_ige (s : State) (t : Nat) (f : Ctrs → Ctrs) : (s.tfeCtr t f).ige = s.ige := rfl
@[simp] theorem State.tfeCtr_rse (s : State) (t : Nat) (f : Ctrs → Ctrs) : (s.tfeCtr t f).rse = s.rse := rfl
@[simp] theorem State.tfeCtr_pcm (s : State) (t : Nat) (f : Ctrs → Ctrs) : (s.tfeCtr t f).pcm = s.pcm := rfl
@[simp] theorem State.tfeCtr_sec (s : State) (t : Nat) (f : Ctrs → Ctrs) : (s.tfeCtr t f).sec = s.sec := rfl
@[simp] theorem State.tfeCtr_host (s : State) (t : Nat) (f : Ctrs → Ctrs) : (s.tfeCtr t f).host = s.host := rfl
@[simp] theorem State.tfeCtr_hostBad (s : State) (t : Nat) (f : Ctrs → Ctrs) : (s.tfeCtr t f).hostBad = s.hostBad := rfl
@[simp] theorem State.tfeCtr_flash (s : State) (t : Nat) (f : Ctrs → Ctrs) : (s.tfeCtr t f).flash = s.flash := rfl

/-! ### linkCtr -/

@[simp] theorem State.linkCtr_pending (s : State) (l : Nat) (f : Ctrs → Ctrs) : (s.linkCtr l f).pending = s.pending := rfl
@[simp] theorem State.linkCtr_out (s : State) (l : Nat) (f : Ctrs → Ctrs) : (s.linkCtr l f).out = s.out := rfl
@[simp] theorem State.linkCtr_freeCtr (s : State) (l : Nat) (f : Ctrs → Ctrs) : (s.linkCtr l f).freeCtr = s.freeCtr := rfl
@[simp] theorem State.linkCtr_sys (s : State) (l : Nat) (f : Ctrs → Ctrs) : (s.linkCtr l f).sys = s.sys := rfl
@[simp] theorem State.linkCtr_hif (s : State) (l : Nat) (f : Ctrs → Ctrs) : (s.linkCtr l f).hif = s.hif := rfl
@[simp] theorem State.linkCtr_chans (s : State) (l : Nat) (f : Ctrs → Ctrs) : (s.linkCtr l f).chans = s.chans := rfl
@[simp] theorem State.linkCtr_tiles (s : State) (l : Nat) (f : Ctrs → Ctrs) : (s.linkCtr l f).tiles = s.tiles := rfl
@[simp] theorem State.linkCtr_num (s : State) (l : Nat) (f : Ctrs → Ctrs) : (s.linkCtr l f).num = s.num := rfl
@[simp] theorem State.linkCtr_mem (s : State) (l : Nat) (f : Ctrs → Ctrs) : (s.linkCtr l f).mem = s.mem := rfl
@[simp] theorem State.linkCtr_ptu (s : State) (l : Nat) (f : Ctrs → Ctrs) : (s.linkCtr l f).ptu = s.ptu := rfl
@[simp] theorem State.linkCtr_leafs (s : State) (l : Nat) (f : Ctrs → Ctrs) : (s.linkCtr l f).leafs = s.leafs := rfl
@[simp] theorem State.linkCtr_spine (s : State) (l : Nat) (f : Ctrs → Ctrs) : (s.linkCtr l f).spine = s.spine := rfl
@[simp] theorem State.linkCtr_cle (s : State) (l : Nat) (f : Ctrs → Ctrs) : (s.linkCtr l f).cle = s.cle := rfl
@[simp] theorem State.linkCtr_ige (s : State) (l : Nat) (f : Ctrs → Ctrs) : (s.linkCtr l f).ige = s.ige := rfl
@[simp] theorem State.linkCtr_rse (s : State) (l : Nat) (f : Ctrs → Ctrs) : (s.linkCtr l f).rse = s.rse := rfl
@[simp] theorem State.linkCtr_pcm (s : State) (l : Nat) (f : Ctrs → Ctrs) : (s.linkCtr l f).pcm = s.pcm := rfl
@[simp] theorem State.linkCtr_sec (s : State) (l : Nat) (f : Ctrs → Ctrs) : (s.linkCtr l f).sec = s.sec := rfl
@[simp] theorem State.linkCtr_host (s : State) (l : Nat) (f : Ctrs → Ctrs) : (s.linkCtr l f).host = s.host := rfl
@[simp] theorem State.linkCtr_hostBad (s : State) (l : Nat) (f : Ctrs → Ctrs) : (s.linkCtr l f).hostBad = s.hostBad := rfl
@[simp] theorem State.linkCtr_flash (s : State) (l : Nat) (f : Ctrs → Ctrs) : (s.linkCtr l f).flash = s.flash := rfl

/-! ### memCtr -/

@[simp] theorem State.memCtr_pending (s : State) (f : Ctrs → Ctrs) : (s.memCtr f).pending = s.pending := rfl
@[simp] theorem State.memCtr_out (s : State) (f : Ctrs → Ctrs) : (s.memCtr f).out = s.out := rfl
@[simp] theorem State.memCtr_freeCtr (s : State) (f : Ctrs → Ctrs) : (s.memCtr f).freeCtr = s.freeCtr := rfl
@[simp] theorem State.memCtr_sys (s : State) (f : Ctrs → Ctrs) : (s.memCtr f).sys = s.sys := rfl
@[simp] theorem State.memCtr_hif (s : State) (f : Ctrs → Ctrs) : (s.memCtr f).hif = s.hif := rfl
@[simp] theorem State.memCtr_chans (s : State) (f : Ctrs → Ctrs) : (s.memCtr f).chans = s.chans := rfl
@[simp] theorem State.memCtr_tiles (s : State) (f : Ctrs → Ctrs) : (s.memCtr f).tiles = s.tiles := rfl
@[simp] theorem State.memCtr_num (s : State) (f : Ctrs → Ctrs) : (s.memCtr f).num = s.num := rfl
@[simp] theorem State.memCtr_ptu (s : State) (f : Ctrs → Ctrs) : (s.memCtr f).ptu = s.ptu := rfl
@[simp] theorem State.memCtr_leafs (s : State) (f : Ctrs → Ctrs) : (s.memCtr f).leafs = s.leafs := rfl
@[simp] theorem State.memCtr_links (s : State) (f : Ctrs → Ctrs) : (s.memCtr f).links = s.links := rfl
@[simp] theorem State.memCtr_spine (s : State) (f : Ctrs → Ctrs) : (s.memCtr f).spine = s.spine := rfl
@[simp] theorem State.memCtr_cle (s : State) (f : Ctrs → Ctrs) : (s.memCtr f).cle = s.cle := rfl
@[simp] theorem State.memCtr_ige (s : State) (f : Ctrs → Ctrs) : (s.memCtr f).ige = s.ige := rfl
@[simp] theorem State.memCtr_rse (s : State) (f : Ctrs → Ctrs) : (s.memCtr f).rse = s.rse := rfl
@[simp] theorem State.memCtr_pcm (s : State) (f : Ctrs → Ctrs) : (s.memCtr f).pcm = s.pcm := rfl
@[simp] theorem State.memCtr_sec (s : State) (f : Ctrs → Ctrs) : (s.memCtr f).sec = s.sec := rfl
@[simp] theorem State.memCtr_host (s : State) (f : Ctrs → Ctrs) : (s.memCtr f).host = s.host := rfl
@[simp] theorem State.memCtr_hostBad (s : State) (f : Ctrs → Ctrs) : (s.memCtr f).hostBad = s.hostBad := rfl
@[simp] theorem State.memCtr_flash (s : State) (f : Ctrs → Ctrs) : (s.memCtr f).flash = s.flash := rfl

/-! ### rseCtr -/

@[simp] theorem State.rseCtr_pending (s : State) (f : Ctrs → Ctrs) : (s.rseCtr f).pending = s.pending := rfl
@[simp] theorem State.rseCtr_out (s : State) (f : Ctrs → Ctrs) : (s.rseCtr f).out = s.out := rfl
@[simp] theorem State.rseCtr_freeCtr (s : State) (f : Ctrs → Ctrs) : (s.rseCtr f).freeCtr = s.freeCtr := rfl
@[simp] theorem State.rseCtr_sys (s : State) (f : Ctrs → Ctrs) : (s.rseCtr f).sys = s.sys := rfl
@[simp] theorem State.rseCtr_hif (s : State) (f : Ctrs → Ctrs) : (s.rseCtr f).hif = s.hif := rfl
@[simp] theorem State.rseCtr_chans (s : State) (f : Ctrs → Ctrs) : (s.rseCtr f).chans = s.chans := rfl
@[simp] theorem State.rseCtr_tiles (s : State) (f : Ctrs → Ctrs) : (s.rseCtr f).tiles = s.tiles := rfl
@[simp] theorem State.rseCtr_num (s : State) (f : Ctrs → Ctrs) : (s.rseCtr f).num = s.num := rfl
@[simp] theorem State.rseCtr_mem (s : State) (f : Ctrs → Ctrs) : (s.rseCtr f).mem = s.mem := rfl
@[simp] theorem State.rseCtr_ptu (s : State) (f : Ctrs → Ctrs) : (s.rseCtr f).ptu = s.ptu := rfl
@[simp] theorem State.rseCtr_leafs (s : State) (f : Ctrs → Ctrs) : (s.rseCtr f).leafs = s.leafs := rfl
@[simp] theorem State.rseCtr_links (s : State) (f : Ctrs → Ctrs) : (s.rseCtr f).links = s.links := rfl
@[simp] theorem State.rseCtr_spine (s : State) (f : Ctrs → Ctrs) : (s.rseCtr f).spine = s.spine := rfl
@[simp] theorem State.rseCtr_cle (s : State) (f : Ctrs → Ctrs) : (s.rseCtr f).cle = s.cle := rfl
@[simp] theorem State.rseCtr_ige (s : State) (f : Ctrs → Ctrs) : (s.rseCtr f).ige = s.ige := rfl
@[simp] theorem State.rseCtr_pcm (s : State) (f : Ctrs → Ctrs) : (s.rseCtr f).pcm = s.pcm := rfl
@[simp] theorem State.rseCtr_sec (s : State) (f : Ctrs → Ctrs) : (s.rseCtr f).sec = s.sec := rfl
@[simp] theorem State.rseCtr_host (s : State) (f : Ctrs → Ctrs) : (s.rseCtr f).host = s.host := rfl
@[simp] theorem State.rseCtr_hostBad (s : State) (f : Ctrs → Ctrs) : (s.rseCtr f).hostBad = s.hostBad := rfl
@[simp] theorem State.rseCtr_flash (s : State) (f : Ctrs → Ctrs) : (s.rseCtr f).flash = s.flash := rfl

/-! ### cleCtr -/

@[simp] theorem State.cleCtr_pending (s : State) (f : Ctrs → Ctrs) : (s.cleCtr f).pending = s.pending := rfl
@[simp] theorem State.cleCtr_out (s : State) (f : Ctrs → Ctrs) : (s.cleCtr f).out = s.out := rfl
@[simp] theorem State.cleCtr_freeCtr (s : State) (f : Ctrs → Ctrs) : (s.cleCtr f).freeCtr = s.freeCtr := rfl
@[simp] theorem State.cleCtr_sys (s : State) (f : Ctrs → Ctrs) : (s.cleCtr f).sys = s.sys := rfl
@[simp] theorem State.cleCtr_hif (s : State) (f : Ctrs → Ctrs) : (s.cleCtr f).hif = s.hif := rfl
@[simp] theorem State.cleCtr_chans (s : State) (f : Ctrs → Ctrs) : (s.cleCtr f).chans = s.chans := rfl
@[simp] theorem State.cleCtr_tiles (s : State) (f : Ctrs → Ctrs) : (s.cleCtr f).tiles = s.tiles := rfl
@[simp] theorem State.cleCtr_num (s : State) (f : Ctrs → Ctrs) : (s.cleCtr f).num = s.num := rfl
@[simp] theorem State.cleCtr_mem (s : State) (f : Ctrs → Ctrs) : (s.cleCtr f).mem = s.mem := rfl
@[simp] theorem State.cleCtr_ptu (s : State) (f : Ctrs → Ctrs) : (s.cleCtr f).ptu = s.ptu := rfl
@[simp] theorem State.cleCtr_leafs (s : State) (f : Ctrs → Ctrs) : (s.cleCtr f).leafs = s.leafs := rfl
@[simp] theorem State.cleCtr_links (s : State) (f : Ctrs → Ctrs) : (s.cleCtr f).links = s.links := rfl
@[simp] theorem State.cleCtr_spine (s : State) (f : Ctrs → Ctrs) : (s.cleCtr f).spine = s.spine := rfl
@[simp] theorem State.cleCtr_ige (s : State) (f : Ctrs → Ctrs) : (s.cleCtr f).ige = s.ige := rfl
@[simp] theorem State.cleCtr_rse (s : State) (f : Ctrs → Ctrs) : (s.cleCtr f).rse = s.rse := rfl
@[simp] theorem State.cleCtr_pcm (s : State) (f : Ctrs → Ctrs) : (s.cleCtr f).pcm = s.pcm := rfl
@[simp] theorem State.cleCtr_sec (s : State) (f : Ctrs → Ctrs) : (s.cleCtr f).sec = s.sec := rfl
@[simp] theorem State.cleCtr_host (s : State) (f : Ctrs → Ctrs) : (s.cleCtr f).host = s.host := rfl
@[simp] theorem State.cleCtr_hostBad (s : State) (f : Ctrs → Ctrs) : (s.cleCtr f).hostBad = s.hostBad := rfl
@[simp] theorem State.cleCtr_flash (s : State) (f : Ctrs → Ctrs) : (s.cleCtr f).flash = s.flash := rfl

/-! ### hifCtr -/

@[simp] theorem State.hifCtr_pending (s : State) (f : Ctrs → Ctrs) : (s.hifCtr f).pending = s.pending := rfl
@[simp] theorem State.hifCtr_out (s : State) (f : Ctrs → Ctrs) : (s.hifCtr f).out = s.out := rfl
@[simp] theorem State.hifCtr_freeCtr (s : State) (f : Ctrs → Ctrs) : (s.hifCtr f).freeCtr = s.freeCtr := rfl
@[simp] theorem State.hifCtr_sys (s : State) (f : Ctrs → Ctrs) : (s.hifCtr f).sys = s.sys := rfl
@[simp] theorem State.hifCtr_chans (s : State) (f : Ctrs → Ctrs) : (s.hifCtr f).chans = s.chans := rfl
@[simp] theorem State.hifCtr_tiles (s : State) (f : Ctrs → Ctrs) : (s.hifCtr f).tiles = s.tiles := rfl
@[simp] theorem State.hifCtr_num (s : State) (f : Ctrs → Ctrs) : (s.hifCtr f).num = s.num := rfl
@[simp] theorem State.hifCtr_mem (s : State) (f : Ctrs → Ctrs) : (s.hifCtr f).mem = s.mem := rfl
@[simp] theorem State.hifCtr_ptu (s : State) (f : Ctrs → Ctrs) : (s.hifCtr f).ptu = s.ptu := rfl
@[simp] theorem State.hifCtr_leafs (s : State) (f : Ctrs → Ctrs) : (s.hifCtr f).leafs = s.leafs := rfl
@[simp] theorem State.hifCtr_links (s : State) (f : Ctrs → Ctrs) : (s.hifCtr f).links = s.links := rfl
@[simp] theorem State.hifCtr_spine (s : State) (f : Ctrs → Ctrs) : (s.hifCtr f).spine = s.spine := rfl
@[simp] theorem State.hifCtr_cle (s : State) (f : Ctrs → Ctrs) : (s.hifCtr f).cle = s.cle := rfl
@[simp] theorem State.hifCtr_ige (s : State) (f : Ctrs → Ctrs) : (s.hifCtr f).ige = s.ige := rfl
@[simp] theorem State.hifCtr_rse (s : State) (f : Ctrs → Ctrs) : (s.hifCtr f).rse = s.rse := rfl
@[simp] theorem State.hifCtr_pcm (s : State) (f : Ctrs → Ctrs) : (s.hifCtr f).pcm = s.pcm := rfl
@[simp] theorem State.hifCtr_sec (s : State) (f : Ctrs → Ctrs) : (s.hifCtr f).sec = s.sec := rfl
@[simp] theorem State.hifCtr_host (s : State) (f : Ctrs → Ctrs) : (s.hifCtr f).host = s.host := rfl
@[simp] theorem State.hifCtr_hostBad (s : State) (f : Ctrs → Ctrs) : (s.hifCtr f).hostBad = s.hostBad := rfl
@[simp] theorem State.hifCtr_flash (s : State) (f : Ctrs → Ctrs) : (s.hifCtr f).flash = s.flash := rfl

/-! ### ptuCtr -/

@[simp] theorem State.ptuCtr_pending (s : State) (f : Ctrs → Ctrs) : (s.ptuCtr f).pending = s.pending := rfl
@[simp] theorem State.ptuCtr_out (s : State) (f : Ctrs → Ctrs) : (s.ptuCtr f).out = s.out := rfl
@[simp] theorem State.ptuCtr_freeCtr (s : State) (f : Ctrs → Ctrs) : (s.ptuCtr f).freeCtr = s.freeCtr := rfl
@[simp] theorem State.ptuCtr_sys (s : State) (f : Ctrs → Ctrs) : (s.ptuCtr f).sys = s.sys := rfl
@[simp] theorem State.ptuCtr_hif (s : State) (f : Ctrs → Ctrs) : (s.ptuCtr f).hif = s.hif := rfl
@[simp] theorem State.ptuCtr_chans (s : State) (f : Ctrs → Ctrs) : (s.ptuCtr f).chans = s.chans := rfl
@[simp] theorem State.ptuCtr_tiles (s : State) (f : Ctrs → Ctrs) : (s.ptuCtr f).tiles = s.tiles := rfl
@[simp] theorem State.ptuCtr_num (s : State) (f : Ctrs → Ctrs) : (s.ptuCtr f).num = s.num := rfl
@[simp] theorem State.ptuCtr_mem (s : State) (f : Ctrs → Ctrs) : (s.ptuCtr f).mem = s.mem := rfl
@[simp] theorem State.ptuCtr_leafs (s : State) (f : Ctrs → Ctrs) : (s.ptuCtr f).leafs = s.leafs := rfl
@[simp] theorem State.ptuCtr_links (s : State) (f : Ctrs → Ctrs) : (s.ptuCtr f).links = s.links := rfl
@[simp] theorem State.ptuCtr_spine (s : State) (f : Ctrs → Ctrs) : (s.ptuCtr f).spine = s.spine := rfl
@[simp] theorem State.ptuCtr_cle (s : State) (f : Ctrs → Ctrs) : (s.ptuCtr f).cle = s.cle := rfl
@[simp] theorem State.ptuCtr_ige (s : State) (f : Ctrs → Ctrs) : (s.ptuCtr f).ige = s.ige := rfl
@[simp] theorem State.ptuCtr_rse (s : State) (f : Ctrs → Ctrs) : (s.ptuCtr f).rse = s.rse := rfl
@[simp] theorem State.ptuCtr_pcm (s : State) (f : Ctrs → Ctrs) : (s.ptuCtr f).pcm = s.pcm := rfl
@[simp] theorem State.ptuCtr_sec (s : State) (f : Ctrs → Ctrs) : (s.ptuCtr f).sec = s.sec := rfl
@[simp] theorem State.ptuCtr_host (s : State) (f : Ctrs → Ctrs) : (s.ptuCtr f).host = s.host := rfl
@[simp] theorem State.ptuCtr_hostBad (s : State) (f : Ctrs → Ctrs) : (s.ptuCtr f).hostBad = s.hostBad := rfl
@[simp] theorem State.ptuCtr_flash (s : State) (f : Ctrs → Ctrs) : (s.ptuCtr f).flash = s.flash := rfl

/-! ### leafCtr -/

@[simp] theorem State.leafCtr_pending (s : State) (f : Ctrs → Ctrs) : (s.leafCtr f).pending = s.pending := rfl
@[simp] theorem State.leafCtr_out (s : State) (f : Ctrs → Ctrs) : (s.leafCtr f).out = s.out := rfl
@[simp] theorem State.leafCtr_freeCtr (s : State) (f : Ctrs → Ctrs) : (s.leafCtr f).freeCtr = s.freeCtr := rfl
@[simp] theorem State.leafCtr_sys (s : State) (f : Ctrs → Ctrs) : (s.leafCtr f).sys = s.sys := rfl
@[simp] theorem State.leafCtr_hif (s : State) (f : Ctrs → Ctrs) : (s.leafCtr f).hif = s.hif := rfl
@[simp] theorem State.leafCtr_chans (s : State) (f : Ctrs → Ctrs) : (s.leafCtr f).chans = s.chans := rfl
@[simp] theorem State.leafCtr_tiles (s : State) (f : Ctrs → Ctrs) : (s.leafCtr f).tiles = s.tiles := rfl
@[simp] theorem State.leafCtr_num (s : State) (f : Ctrs → Ctrs) : (s.leafCtr f).num = s.num := rfl
@[simp] theorem State.leafCtr_mem (s : State) (f : Ctrs → Ctrs) : (s.leafCtr f).mem = s.mem := rfl
@[simp] theorem State.leafCtr_ptu (s : State) (f : Ctrs → Ctrs) : (s.leafCtr f).ptu = s.ptu := rfl
@[simp] theorem State.leafCtr_links (s : State) (f : Ctrs → Ctrs) : (s.leafCtr f).links = s.links := rfl
@[simp] theorem State.leafCtr_spine (s : State) (f : Ctrs → Ctrs) : (s.leafCtr f).spine = s.spine := rfl
@[simp] theorem State.leafCtr_cle (s : State) (f : Ctrs → Ctrs) : (s.leafCtr f).cle = s.cle := rfl
@[simp] theorem State.leafCtr_ige (s : State) (f : Ctrs → Ctrs) : (s.leafCtr f).ige = s.ige := rfl
@[simp] theorem State.leafCtr_rse (s : State) (f : Ctrs → Ctrs) : (s.leafCtr f).rse = s.rse := rfl
@[simp] theorem State.leafCtr_pcm (s : State) (f : Ctrs → Ctrs) : (s.leafCtr f).pcm = s.pcm := rfl
@[simp] theorem State.leafCtr_sec (s : State) (f : Ctrs → Ctrs) : (s.leafCtr f).sec = s.sec := rfl
@[simp] theorem State.leafCtr_host (s : State) (f : Ctrs → Ctrs) : (s.leafCtr f).host = s.host := rfl
@[simp] theorem State.leafCtr_hostBad (s : State) (f : Ctrs → Ctrs) : (s.leafCtr f).hostBad = s.hostBad := rfl
@[simp] theorem State.leafCtr_flash (s : State) (f : Ctrs → Ctrs) : (s.leafCtr f).flash = s.flash := rfl

/-! ### igeCtr -/

@[simp] theorem State.igeCtr_pending (s : State) (f : Ctrs → Ctrs) : (s.igeCtr f).pending = s.pending := rfl
@[simp] theorem State.igeCtr_out (s : State) (f : Ctrs → Ctrs) : (s.igeCtr f).out = s.out := rfl
@[simp] theorem State.igeCtr_freeCtr (s : State) (f : Ctrs → Ctrs) : (s.igeCtr f).freeCtr = s.freeCtr := rfl
@[simp] theorem State.igeCtr_sys (s : State) (f : Ctrs → Ctrs) : (s.igeCtr f).sys = s.sys := rfl
@[simp] theorem State.igeCtr_hif (s : State) (f : Ctrs → Ctrs) : (s.igeCtr f).hif = s.hif := rfl
@[simp] theorem State.igeCtr_chans (s : State) (f : Ctrs → Ctrs) : (s.igeCtr f).chans = s.chans := rfl
@[simp] theorem State.igeCtr_tiles (s : State) (f : Ctrs → Ctrs) : (s.igeCtr f).tiles = s.tiles := rfl
@[simp] theorem State.igeCtr_num (s : State) (f : Ctrs → Ctrs) : (s.igeCtr f).num = s.num := rfl
@[simp] theorem State.igeCtr_mem (s : State) (f : Ctrs → Ctrs) : (s.igeCtr f).mem = s.mem := rfl
@[simp] theorem State.igeCtr_ptu (s : State) (f : Ctrs → Ctrs) : (s.igeCtr f).ptu = s.ptu := rfl
@[simp] theorem State.igeCtr_leafs (s : State) (f : Ctrs → Ctrs) : (s.igeCtr f).leafs = s.leafs := rfl
@[simp] theorem State.igeCtr_links (s : State) (f : Ctrs → Ctrs) : (s.igeCtr f).links = s.links := rfl
@[simp] theorem State.igeCtr_spine (s : State) (f : Ctrs → Ctrs) : (s.igeCtr f).spine = s.spine := rfl
@[simp] theorem State.igeCtr_cle (s : State) (f : Ctrs → Ctrs) : (s.igeCtr f).cle = s.cle := rfl
@[simp] theorem State.igeCtr_rse (s : State) (f : Ctrs → Ctrs) : (s.igeCtr f).rse = s.rse := rfl
@[simp] theorem State.igeCtr_pcm (s : State) (f : Ctrs → Ctrs) : (s.igeCtr f).pcm = s.pcm := rfl
@[simp] theorem State.igeCtr_sec (s : State) (f : Ctrs → Ctrs) : (s.igeCtr f).sec = s.sec := rfl
@[simp] theorem State.igeCtr_host (s : State) (f : Ctrs → Ctrs) : (s.igeCtr f).host = s.host := rfl
@[simp] theorem State.igeCtr_hostBad (s : State) (f : Ctrs → Ctrs) : (s.igeCtr f).hostBad = s.hostBad := rfl
@[simp] theorem State.igeCtr_flash (s : State) (f : Ctrs → Ctrs) : (s.igeCtr f).flash = s.flash := rfl

/-! ### numCtr -/

@[simp] theorem State.numCtr_pending (s : State) (f : Ctrs → Ctrs) : (s.numCtr f).pending = s.pending := rfl
@[simp] theorem State.numCtr_out (s : State) (f : Ctrs → Ctrs) : (s.numCtr f).out = s.out := rfl
@[simp] theorem State.numCtr_freeCtr (s : State) (f : Ctrs → Ctrs) : (s.numCtr f).freeCtr = s.freeCtr := rfl
@[simp] theorem State.numCtr_sys (s : State) (f : Ctrs → Ctrs) : (s.numCtr f).sys = s.sys := rfl
@[simp] theorem State.numCtr_hif (s : State) (f : Ctrs → Ctrs) : (s.numCtr f).hif = s.hif := rfl
@[simp] theorem State.numCtr_chans (s : State) (f : Ctrs → Ctrs) : (s.numCtr f).chans = s.chans := rfl
@[simp] theorem State.numCtr_tiles (s : State) (f : Ctrs → Ctrs) : (s.numCtr f).tiles = s.tiles := rfl
@[simp] theorem State.numCtr_mem (s : State) (f : Ctrs → Ctrs) : (s.numCtr f).mem = s.mem := rfl
@[simp] theorem State.numCtr_ptu (s : State) (f : Ctrs → Ctrs) : (s.numCtr f).ptu = s.ptu := rfl
@[simp] theorem State.numCtr_leafs (s : State) (f : Ctrs → Ctrs) : (s.numCtr f).leafs = s.leafs := rfl
@[simp] theorem State.numCtr_links (s : State) (f : Ctrs → Ctrs) : (s.numCtr f).links = s.links := rfl
@[simp] theorem State.numCtr_spine (s : State) (f : Ctrs → Ctrs) : (s.numCtr f).spine = s.spine := rfl
@[simp] theorem State.numCtr_cle (s : State) (f : Ctrs → Ctrs) : (s.numCtr f).cle = s.cle := rfl
@[simp] theorem State.numCtr_ige (s : State) (f : Ctrs → Ctrs) : (s.numCtr f).ige = s.ige := rfl
@[simp] theorem State.numCtr_rse (s : State) (f : Ctrs → Ctrs) : (s.numCtr f).rse = s.rse := rfl
@[simp] theorem State.numCtr_pcm (s : State) (f : Ctrs → Ctrs) : (s.numCtr f).pcm = s.pcm := rfl
@[simp] theorem State.numCtr_sec (s : State) (f : Ctrs → Ctrs) : (s.numCtr f).sec = s.sec := rfl
@[simp] theorem State.numCtr_host (s : State) (f : Ctrs → Ctrs) : (s.numCtr f).host = s.host := rfl
@[simp] theorem State.numCtr_hostBad (s : State) (f : Ctrs → Ctrs) : (s.numCtr f).hostBad = s.hostBad := rfl
@[simp] theorem State.numCtr_flash (s : State) (f : Ctrs → Ctrs) : (s.numCtr f).flash = s.flash := rfl

/-! ### wgbCtr -/

@[simp] theorem State.wgbCtr_pending (s : State) (f : Ctrs → Ctrs) : (s.wgbCtr f).pending = s.pending := rfl
@[simp] theorem State.wgbCtr_out (s : State) (f : Ctrs → Ctrs) : (s.wgbCtr f).out = s.out := rfl
@[simp] theorem State.wgbCtr_freeCtr (s : State) (f : Ctrs → Ctrs) : (s.wgbCtr f).freeCtr = s.freeCtr := rfl
@[simp] theorem State.wgbCtr_sys (s : State) (f : Ctrs → Ctrs) : (s.wgbCtr f).sys = s.sys := rfl
@[simp] theorem State.wgbCtr_hif (s : State) (f : Ctrs → Ctrs) : (s.wgbCtr f).hif = s.hif := rfl
@[simp] theorem State.wgbCtr_chans (s : State) (f : Ctrs → Ctrs) : (s.wgbCtr f).chans = s.chans := rfl
@[simp] theorem State.wgbCtr_tiles (s : State) (f : Ctrs → Ctrs) : (s.wgbCtr f).tiles = s.tiles := rfl
@[simp] theorem State.wgbCtr_mem (s : State) (f : Ctrs → Ctrs) : (s.wgbCtr f).mem = s.mem := rfl
@[simp] theorem State.wgbCtr_ptu (s : State) (f : Ctrs → Ctrs) : (s.wgbCtr f).ptu = s.ptu := rfl
@[simp] theorem State.wgbCtr_leafs (s : State) (f : Ctrs → Ctrs) : (s.wgbCtr f).leafs = s.leafs := rfl
@[simp] theorem State.wgbCtr_links (s : State) (f : Ctrs → Ctrs) : (s.wgbCtr f).links = s.links := rfl
@[simp] theorem State.wgbCtr_spine (s : State) (f : Ctrs → Ctrs) : (s.wgbCtr f).spine = s.spine := rfl
@[simp] theorem State.wgbCtr_cle (s : State) (f : Ctrs → Ctrs) : (s.wgbCtr f).cle = s.cle := rfl
@[simp] theorem State.wgbCtr_ige (s : State) (f : Ctrs → Ctrs) : (s.wgbCtr f).ige = s.ige := rfl
@[simp] theorem State.wgbCtr_rse (s : State) (f : Ctrs → Ctrs) : (s.wgbCtr f).rse = s.rse := rfl
@[simp] theorem State.wgbCtr_pcm (s : State) (f : Ctrs → Ctrs) : (s.wgbCtr f).pcm = s.pcm := rfl
@[simp] theorem State.wgbCtr_sec (s : State) (f : Ctrs → Ctrs) : (s.wgbCtr f).sec = s.sec := rfl
@[simp] theorem State.wgbCtr_host (s : State) (f : Ctrs → Ctrs) : (s.wgbCtr f).host = s.host := rfl
@[simp] theorem State.wgbCtr_hostBad (s : State) (f : Ctrs → Ctrs) : (s.wgbCtr f).hostBad = s.hostBad := rfl
@[simp] theorem State.wgbCtr_flash (s : State) (f : Ctrs → Ctrs) : (s.wgbCtr f).flash = s.flash := rfl

/-! ### pcmCtr -/

@[simp] theorem State.pcmCtr_pending (s : State) (f : Ctrs → Ctrs) : (s.pcmCtr f).pending = s.pending := rfl
@[simp] theorem State.pcmCtr_out (s : State) (f : Ctrs → Ctrs) : (s.pcmCtr f).out = s.out := rfl
@[simp] theorem State.pcmCtr_freeCtr (s : State) (f : Ctrs → Ctrs) : (s.pcmCtr f).freeCtr = s.freeCtr := rfl
@[simp] theorem State.pcmCtr_sys (s : State) (f : Ctrs → Ctrs) : (s.pcmCtr f).sys = s.sys := rfl
@[simp] theorem State.pcmCtr_hif (s : State) (f : Ctrs → Ctrs) : (s.pcmCtr f).hif = s.hif := rfl
@[simp] theorem State.pcmCtr_chans (s : State) (f : Ctrs → Ctrs) : (s.pcmCtr f).chans = s.chans := rfl
@[simp] theorem State.pcmCtr_tiles (s : State) (f : Ctrs → Ctrs) : (s.pcmCtr f).tiles = s.tiles := rfl
@[simp] theorem State.pcmCtr_num (s : State) (f : Ctrs → Ctrs) : (s.pcmCtr f).num = s.num := rfl
@[simp] theorem State.pcmCtr_mem (s : State) (f : Ctrs → Ctrs) : (s.pcmCtr f).mem = s.mem := rfl
@[simp] theorem State.pcmCtr_ptu (s : State) (f : Ctrs → Ctrs) : (s.pcmCtr f).ptu = s.ptu := rfl
@[simp] theorem State.pcmCtr_leafs (s : State) (f : Ctrs → Ctrs) : (s.pcmCtr f).leafs = s.leafs := rfl
@[simp] theorem State.pcmCtr_links (s : State) (f : Ctrs → Ctrs) : (s.pcmCtr f).links = s.links := rfl
@[simp] theorem State.pcmCtr_spine (s : State) (f : Ctrs → Ctrs) : (s.pcmCtr f).spine = s.spine := rfl
@[simp] theorem State.pcmCtr_cle (s : State) (f : Ctrs → Ctrs) : (s.pcmCtr f).cle = s.cle := rfl
@[simp] theorem State.pcmCtr_ige (s : State) (f : Ctrs → Ctrs) : (s.pcmCtr f).ige = s.ige := rfl
@[simp] theorem State.pcmCtr_rse (s : State) (f : Ctrs → Ctrs) : (s.pcmCtr f).rse = s.rse := rfl
@[simp] theorem State.pcmCtr_sec (s : State) (f : Ctrs → Ctrs) : (s.pcmCtr f).sec = s.sec := rfl
@[simp] theorem State.pcmCtr_host (s : State) (f : Ctrs → Ctrs) : (s.pcmCtr f).host = s.host := rfl
@[simp] theorem State.pcmCtr_hostBad (s : State) (f : Ctrs → Ctrs) : (s.pcmCtr f).hostBad = s.hostBad := rfl
@[simp] theorem State.pcmCtr_flash (s : State) (f : Ctrs → Ctrs) : (s.pcmCtr f).flash = s.flash := rfl

/-! ### What a part reads as after its update -/

theorem State.tile_modTile (s : State) (t q : Nat) (f : Tile → Tile) :
    (s.modTile t f).tile q = if q = t then f (s.tile t) else s.tile q := by
  unfold State.modTile State.setTile State.tile
  split
  · next h => rw [h, SMap.getD_setD_self]
  · next h => exact SMap.getD_setD_ne _ _ _ h

@[simp] theorem State.tile_modTile_self (s : State) (t : Nat) (f : Tile → Tile) : (s.modTile t f).tile t = f (s.tile t) := by
  rw [State.tile_modTile, if_pos rfl]

theorem Tile.thread_modThread (x : Tile) (n q : Nat) (f : Thread → Thread) :
    (x.modThread n f).thread q = if q = n then f (x.thread n) else x.thread q := by
  unfold Tile.modThread Tile.thread
  split
  · next h => rw [h, SMap.getD_updD_self]
  · next h => exact SMap.getD_updD_ne _ _ _ h

@[simp] theorem Tile.thread_modThread_self (x : Tile) (n : Nat) (f : Thread → Thread) :
    (x.modThread n f).thread n = f (x.thread n) := by
  rw [Tile.thread_modThread, if_pos rfl]

theorem State.link_modLink (s : State) (l q : Nat) (f : Link → Link) :
    (s.modLink l f).link q = if q = l then f (s.link l) else s.link q := by
  unfold State.modLink State.link
  split
  · next h => rw [h]; exact SMap.getD_updD_self ..
  · next h => exact SMap.getD_updD_ne _ _ _ h

theorem State.chan_setChan (s : State) (c q : Nat) (v : Chan) :
    (s.setChan c v).chan q = if q = c then some v else s.chan q := by
  unfold State.setChan State.chan
  split
  · next h => rw [h]; exact SMap.lookup_put_self ..
  · next h => exact SMap.lookup_put_ne _ _ h

theorem State.chan_modChan (s : State) (c q : Nat) (f : Chan → Chan) :
    (s.modChan c f).chan q = if q = c then (s.chan c).map f else s.chan q := by
  unfold State.modChan State.chan
  split
  · next h => rw [h]; exact SMap.lookup_upd_self ..
  · next h => exact SMap.lookup_upd_ne _ _ h

/-- G0 reads 0 whatever is written to it (R94). -/
@[simp] theorem Thread.reg_zero (h : Thread) : h.reg 0 = 0 := rfl

theorem Thread.reg_setReg (h : Thread) (r q : Nat) (v : BitVec 64) :
    (h.setReg r v).reg q = if q = r ∧ r ≠ 0 then v else h.reg q := by
  unfold Thread.setReg Thread.reg
  by_cases hr : r = 0
  · simp [hr]
  · by_cases hq : q = r
    · simp [hq, hr]
    · by_cases h0 : q = 0
      · simp [h0]; intro h; exact absurd h.symm hr
      · simp [h0, hr, hq, SMap.getD_setD_ne _ _ _ hq]

theorem Thread.setReg_pc (h : Thread) (r : Nat) (v : BitVec 64) (p : BitVec 32) :
    ({ h with pc := p } : Thread).setReg r v = { h.setReg r v with pc := p } := by
  unfold Thread.setReg
  split <;> rfl

end Sys2Proof.Machine
end

