-- ==== Sys2Proof/Laws/Tiles.lean ====
section
/-! SUPPORT. What issuing an instruction does: the lemmas that a proof about a tile's instruction cites. -/

namespace Sys2Proof.Machine

open Sys2Proof.Safety

/-- Issue moves the thread on and counts the instruction, and does nothing else. -/
theorem advanced_goOn (s : State) (t th : Nat) (next : Int) :
    Advanced s (goOn t th next s) t th { (s.tile t).thread th with pc := pcAt next } := by
  unfold goOn
  refine ⟨?_, fun q hq => ?_, ?_, fun q hq => ?_, rfl⟩
  · rw [State.tile_modTile_self]
    simp only [Tile.thread, Tile.modThread]
    rw [SMap.getD_updD_self]
  · rw [State.tile_modTile_self]
    simp only [Tile.thread, Tile.modThread]
    rw [SMap.getD_updD_ne _ _ _ hq]
  · rw [State.tile_modTile_self]
    rfl
  · rw [State.tile_modTile, if_neg hq]

/-- A later change of the same thread is added to what the instruction left. -/
theorem advanced_modTh {s u : State} {t th : Nat} {h : Thread} (a : Advanced s u t th h) (f : Thread → Thread) :
    Advanced s (modTh t th f u) t th (f h) := by
  unfold modTh
  refine ⟨?_, fun q hq => ?_, ?_, fun q hq => ?_, a.frame⟩
  · rw [State.tile_modTile_self, Tile.thread_modThread_self, a.thread]
  · rw [State.tile_modTile_self, Tile.thread_modThread, if_neg hq, a.others q hq]
  · rw [State.tile_modTile_self]
    exact a.rest
  · rw [State.tile_modTile, if_neg hq, a.tiles q hq]

/-- A sequencer instruction that may issue does so, and then has its effect. -/
theorem issueSeq_of {s : State} {t th : Nat} {w : BitVec 128} {op : Nat} {next : Int} (h : Issues s t th w op next)
    (act : State → State) : issueSeq op t th w 0 next act s = act (goOn t th next s) := by
  obtain ⟨a, b, c, d, -⟩ := h
  simp [issueSeq, a, b, issueAt, c, d]

/-- An instruction for a unit that may issue does so, and then has its effect. -/
theorem issueUnit_of {s : State} {t th : Nat} {w : BitVec 128} {op u : Nat} {rd wr : List Nat}
    (h : IssuesTo s t th w op u rd wr) (act : State → State) :
    issueUnit op t th w u rd wr 0 act s = act (goOn t th (s.nextPc t th) s) := by
  obtain ⟨⟨a, b, c, d, -⟩, e, f⟩ := h
  simp [issueUnit, a, b, issueAt, c, d, e, f]

/-- An outcome whose state reports no fault that was not reported before. -/
theorem done_of_spine {s u : State} (h : Calm s) (hs : u.spine = s.spine) : done u = .next u :=
  done_calm (calm_of_spine h hs)

theorem pcAt_toNat (p : BitVec 32) : pcAt (p.toNat : Int) = p := by simp [pcAt]

end Sys2Proof.Machine
end

