-- ==== Sys2Proof/Tests/Slice0.lean ====
section
/-! SUPPORT. Tests: an ill-formed term for each check of WellFormed, worked examples of the spec, and for each statement of
Obligations.lean states that meet what its clauses assume. -/

namespace Sys2Proof.Tests

set_option Elab.async false
set_option linter.unusedVariables false

open Sys2Proof Sys2Proof.Machine Sys2Proof.Safety

/-! ### Small states -/

/-- A mailbox that holds an accepted command with its argument words. -/
def mbox (code : Nat) (args : List Nat) : Mailbox :=
  ⟨BitVec.ofNat 32 (2 ^ 31 + code), 0,
    ((List.range args.length).zip args).foldl (fun (m : SMap (BitVec 64)) p => SMap.setD m 0 p.1 (BitVec.ofNat 64 p.2)) [], [], 0⟩

/-- A state in which MB0 holds a command. -/
def held (code : Nat) (args : List Nat) (s : State) : State := { s with hif := { s.hif with mbs := [(0, mbox code args)] } }

/-- Reset with READY set. -/
def up : State := { State.reset with sys := { Sys.reset with ready := true, bootStep := 8 } }

/-- A pointer to a bus address. -/
abbrev hostPtr (a : Nat) : Nat := 2 ^ 63 + a

theorem hostPtr_of {a : Nat} (ha : a < 2 ^ 62) : ptrOf (hostPtr a) = some (.host a) := by
  have h1 : bits (hostPtr a) 62 2 = 2 := by simp only [bits, hostPtr]; omega
  have h2 : hostPtr a % 2 ^ 62 = a := by simp only [hostPtr]; omega
  simp only [ptrOf, h1, h2]

/-- A report to host memory meets ReportAt. -/
theorem reportHost (s : State) (w a : Nat) (data : List Byte) (hw : w = hostPtr a) (ha : a < 2 ^ 62 ∧ a % 64 = 0) (hc : Calm s) :
    ReportAt s (hostWrite a data s) w data := by
  subst hw
  refine ⟨?_, ?_, hc⟩
  · simp [ptrErr, hostPtr_of ha.1, Ptr.addr, ha.2, Ptr.names, Ptr.onDevice]
  · simp [ptrWrite, hostPtr_of ha.1]

/-- A record in good host memory meets RecordAt. -/
theorem recordHost (s : State) (w a n al : Nat) (hw : w = hostPtr a) (ha : a < 2 ^ 62 ∧ a % al = 0) (hb : s.hostBad = [])
    (hc : Calm s) : RecordAt s s w n al (Mem.readN s.host a n) := by
  subst hw
  refine ⟨?_, ?_, hc⟩
  · simp [ptrErr, hostPtr_of ha.1, Ptr.addr, ha.2, Ptr.names, Ptr.onDevice]
  · simp [ptrRead, hostPtr_of ha.1, State.hostRead, hb]

/-- Host memory that begins with some bytes. -/
def withHost (bs : List Byte) (s : State) : State := { s with host := Mem.writeN [] 0 bs }

/-- A page of 64 KiB of partition 0 in tier 1. -/
def page (frame : Nat) : Page := ⟨false, 1, true, false, false, false, false, 0, false, frame, 0, none, false⟩

/-- A page of partition 0 at VA 0, at the base of device memory, in trained memory that begins with some bytes. -/
def withPage (bs : List Byte) (s : State) : State :=
  { s with ptu := { s.ptu with pages := [(0, page 0)] }, mem := { s.mem with trained := true, bytes := Mem.writeN [] 0 bs, written := [0, 1, 2] } }

/-- A channel on tile 0 with a program. -/
def chan0 (run : Nat) : Chan :=
  { Chan.blank with tiles := 1, header := some ⟨false, 1, 64, 16, List.replicate 8 0⟩, runState := run }

/-- Channel 0 as given, in a state. -/
def withChan (x : Chan) (s : State) : State := { s with chans := { s.chans with table := [(0, x)] } }

/-- Device memory has been released. -/
def memOn (s : State) : State := { s with mem := { s.mem with trained := true } }

/-- A program header with one thread and one instruction. -/
def progHead : List Byte := natLe 4 0x47504B52 ++ natLe 2 1 ++ natLe 1 0 ++ natLe 1 1 ++ natLe 4 64 ++ natLe 4 16

/-- What a command reads at a VA whose pages can be accessed. -/
def vaGet (part va n : Nat) (s : State) : List Byte × Bool × State := vaRead part va n (vaReady none part va n false s).2

/-- A record in mapped, good device memory meets RecordAt. -/
theorem recordVa (s : State) (w n al part va : Nat) (hp : ptrOf w = some (.va part va)) (he : ptrErr w n al false s = none)
    (hw : (vaReady none part va n false s).1.isNone = true) (hb : (vaGet part va n s).2.1 = false)
    (hc : (vaGet part va n s).2.2.spine.faults = []) :
    RecordAt s (vaGet part va n s).2.2 w n al (vaGet part va n s).1 := by
  refine ⟨he, ?_, .inr hc⟩
  have hn : (vaReady none part va n false s).1.isSome = false := by rw [Option.isNone_iff_eq_none.1 hw]; rfl
  unfold vaGet at hb ⊢
  unfold ptrRead
  rw [hp]
  simp only [hn, hb, Bool.false_eq_true, if_false]

/-- Trained memory with a table area of 4 MiB at its base, and some pages. -/
def withArea (ps : SMap Page) (s : State) : State :=
  { s with ptu := { s.ptu with area := some (0, 0x400000), pages := ps }, mem := { s.mem with trained := true } }

/-- A leaf pool's descriptor, and a slot's. -/
def poolRec : List Byte := [0, 0, 5, 0] ++ natLe 4 64 ++ natLe 8 0 ++ natLe 8 0x200000 ++ natLe 8 0x10000

def slotRec : List Byte := [0, 0, 1, 0, 1, 0, 0, 0] ++ natLe 4 16 ++ natLe 20 0

/-- Pool 0 and slot 0. -/
def pool0 : LeafPool := LeafPool.of (padTo 64 poolRec)

def slot0 : Slot := Slot.of (padTo 128 slotRec)

def withSlot (s : State) : State := { s with leafs := { s.leafs with pools := [(0, pool0)], slots := [(0, slot0)] } }

/-- A schedule image with no entries. -/
def schedRec : List Byte := natLe 4 0x53484453 ++ natLe 2 1 ++ natLe 6 0 ++ natLe 4 1

/-- A record at the start of a host memory that begins with some bytes meets RecordAt. -/
theorem recordLong (bs : List Byte) (s : State) (w n al : Nat) (hw : w = hostPtr 0) (hn : n ≤ bs.length) (hb : s.hostBad = [])
    (hc : Calm s) : RecordAt (withHost bs s) (withHost bs s) w n al (bs.take n) := by
  have e : Mem.readN (withHost bs s).host 0 n = bs.take n := by
    have h : Mem.readN (withHost bs s).host 0 n = (Mem.readN (Mem.writeN [] 0 bs) 0 bs.length).take n := by
      simp [withHost, Mem.readN, ← List.map_take, List.take_range, Nat.min_eq_left hn]
    rw [h, Mem.readN_writeN]
  rw [← e]
  exact recordHost _ _ 0 n al hw ⟨by decide, Nat.zero_mod _⟩ hb hc

/-- All of such a memory meets RecordAt. -/
theorem recordAll (bs : List Byte) (s : State) (w n al : Nat) (hw : w = hostPtr 0) (hn : bs.length = n) (hb : s.hostBad = [])
    (hc : Calm s) : RecordAt (withHost bs s) (withHost bs s) w n al bs := by
  have h := recordLong bs s w bs.length al hw (Nat.le_refl _) hb hc
  rw [List.take_length] at h
  rwa [hn] at h

/-- A tile of channel 0 whose thread 0 is as given, with an instruction at offset 0 of the code. -/
def tile0 (h : Thread) (w : BitVec 128) : Tile := { Tile.reset with chan := some 0, threads := [(0, h)], icache := [(0, w)] }

/-- Channel 0 runs on tile 0, which is as given. -/
def run0 : Chan := { chan0 3 with started := true, bounds := [(0, 2 ^ 40)], header := some ⟨false, 1, 64, 64, List.replicate 8 0⟩ }

def running (y : Tile) : State := { withChan run0 up with tiles := [(0, y)] }

/-- A thread that is ready. -/
def ready0 : Thread := { Thread.reset with st := .ready }

/-- Thread 0 of tile 0 stands at an instruction. -/
def atWord (w : BitVec 128) : State := running (tile0 ready0 w)

/-- An instruction in a unit's queue. -/
def queued0 (w : BitVec 128) (ran : Bool) : QInstr := ⟨0, 0, 0, w, 0, 0, [], [], 0, 0, ran, []⟩

/-- A read of good data, after which nothing waits to be answered. -/
def isGood : Fetched → Bool
  | .data _ bad s => !bad && s.spine.faults.isEmpty
  | _ => false

theorem good_data {f : Fetched} (h : isGood f = true) : ∃ b s', f = .data b false s' ∧ Calm s' := by
  cases f with
  | data b bad s =>
    simp only [isGood, Bool.and_eq_true, Bool.not_eq_true', List.isEmpty_iff] at h
    exact ⟨b, s, by rw [h.1], .inr h.2⟩
  | _ => cases h

/-- A descriptor of a kind: one row of 64 bytes at address 0 on both sides. -/
def descRaw (kind : Nat) : List Byte := padTo 64 (natLe 8 kind ++ natLe 4 64)

/-- The fetch context of thread 0 holds a list of one descriptor. -/
def listTile (kind : Nat) (checked opened : Bool) : Tile :=
  { tile0 ready0 0 with ctxs := [(0, [⟨0, 0, 0, 0x1000, 1, 1, [⟨0, descRaw kind, checked, 0, 0, false, opened, none⟩], false⟩])] }

/-- Device memory in which nothing is wrong anywhere. -/
theorem healthy_of (s : State) (pa n : Nat) (h : s.rse.inj = [] ∧ s.mem.poison = [] ∧ s.mem.damage = [] ∧ s.mem.shc = [] ∧ ∀ a, s.mem.shareBad a = false) :
    Healthy s pa n := by
  obtain ⟨h1, h2, h3, h4, h5⟩ := h
  refine ⟨h1, fun k _ _ => ?_, fun l _ _ => ?_, fun a _ _ => h5 a⟩
  · rw [h2, h3]
    exact ⟨List.not_mem_nil, rfl⟩
  · rw [h4]
    rfl

/-- A position table of a herd of two: this device is position 0, and link 0 goes to position 1. -/
def table2 : PosTable := PosTable.of (padTo 576 (natLe 6 1 ++ natLe 10 2 ++ List.replicate 16 0xFF ++ natLe 32 0 ++ natLe 16 (1 + 2 ^ 24)))

/-- Link 0 is active and has joined the set of position 1. -/
def link0 : Link := { Link.reset with st := 3, joined := true }

def links2 : Links := { Links.reset with table := some table2, links := [(0, link0)] }

def herd2 (s : State) : State := { s with links := links2 }

/-- No streamer holds an instruction when no tile has changed since reset. -/
theorem quiet_of (s : State) (h : s.tiles = []) : Quiet s := by
  intro p hp
  rw [h] at hp
  cases hp

theorem no_requests (s : State) (h : s.tiles = []) : NoRequests s := by
  intro p hp
  rw [h] at hp
  cases hp

/-- A Spine packet from position 1 to this device, by its SKIND and its data. -/
def spinePkt (skind : Nat) (data : List Byte) : Packet := ⟨1, 0, 1, 0, natLe 8 skind, padTo 32 data⟩

/-- A member of the herd of two, with its Spine unit. -/
def member (x : Spine) : State := { herd2 up with spine := x }

def spine0 : Spine := { Spine.reset with running := true, parent := some 1 }

theorem arrives0 (x : Spine) (k : Nat) (d : List Byte) : ArrivesOn (member x) 0 (spinePkt k d) 1 := by
  refine ⟨rfl, ?_, rfl⟩
  unfold State.misrouted
  rfl

/-- SHA3-256 of no bytes. -/
def emptySha : List Byte := [0xA7, 0xFF, 0xC6, 0xF8, 0xBF, 0x1E, 0xD7, 0x66, 0x51, 0xC1, 0x47, 0x56, 0xA0, 0x61, 0xD6, 0x62,
  0xF5, 0x80, 0xFF, 0x4D, 0xE4, 0x3B, 0x49, 0xFA, 0x82, 0xD8, 0x0A, 0x4B, 0x80, 0xF8, 0x43, 0x4A]

theorem sha3_nil : sha3 [] = emptySha := by decide +kernel

/-- A configuration record whose PMBus entry names one rail group for every regulator. -/
def railEntry (c : Byte) : List Byte := (natLe 2 4 ++ natLe 2 256) ++ (List.replicate 256 c ++ natLe 4 0)

def railRecord (c : Byte) : List Byte := (natLe 28 0 ++ natLe 4 4316 ++ List.replicate 1600 0) ++ (railEntry c ++ List.replicate 2420 0)

def railSec : Sec := { Sec.reset with record := railRecord (Config.railCode 0) }

theorem railEntry_length (c : Byte) : (railEntry c).length = 264 := by
  simp only [railEntry, List.length_append, List.length_replicate]
  rfl

theorem rail_entry (c : Byte) : recordEntry (railRecord c) 4 = List.replicate 256 c := by
  have hn : recordLength (railRecord c) = 4316 := rfl
  have hp : (natLe 28 0 ++ natLe 4 4316 ++ List.replicate 1600 (0 : Byte)).length = 1632 := by
    simp only [List.length_append, List.length_replicate]
    rfl
  have hd : ((railRecord c).drop 1632).take (4316 - 2420 - 1632) = railEntry c := by
    rw [railRecord, List.drop_left' hp, List.take_left' (railEntry_length c)]
  have ht : typedEntries 8192 (railEntry c) = some [(4, List.replicate 256 c)] := by
    have h0 : ∃ b bs, railEntry c = b :: bs := ⟨_, _, rfl⟩
    obtain ⟨b, bs, h0⟩ := h0
    have hl := railEntry_length c
    have h1 : fieldAt (railEntry c) 2 2 = 256 := rfl
    have h2 : fieldAt (railEntry c) 0 2 = 4 := rfl
    have h3 : ((railEntry c).drop 4).take 256 = List.replicate 256 c := by
      rw [railEntry, List.drop_left' (i := 4) rfl, List.take_left' List.length_replicate]
    have h4 : (railEntry c).drop 264 = [] := by rw [← hl, List.drop_length]
    rw [h0] at hl h1 h2 h3 h4 ⊢
    rw [show 8192 = 8191 + 1 from rfl, typedEntries]
    · simp only [h1, h2, h3, show roundUp (4 + 256) 8 = 264 from by decide, hl, h4, Nat.lt_irrefl, if_false]
      rfl
    · exact fun h => by cases h
  rw [recordEntry, recordEntries, hn, hd, ht]
  rfl

theorem rail_group (s : State) (h : s.sec = railSec) (r : Nat) : s.groupOf r = some 0 := by
  have p : (Config.railPlace r).val < 256 := (Config.railPlace r).isLt
  have e : (List.replicate 256 (Config.railCode 0))[(Config.railPlace r).val]? = some (Config.railCode 0) := by
    rw [List.getElem?_replicate, if_pos p]
  simp only [State.groupOf, h, railSec, rail_entry, e]
  rw [List.range_succ_eq_map, List.find?_cons]
  simp only [beq_self_eq_true]

/-- A firmware image with an empty body. -/
def image0 : List Byte := natLe 4 0x4D494644 ++ natLe 28 1 ++ emptySha ++ List.replicate 4032 0

theorem image0_length : image0.length = 4096 := by decide +kernel

theorem image0_body : bodyLength image0 = 0 := by decide +kernel

theorem image0_fault : imageFault (image0.take 4096) (image0.drop 4096) [] true = none := by
  have e : image0.take 4096 = image0 := by rw [← image0_length, List.take_length]
  have d : image0.drop 4096 = [] := by rw [← image0_length, List.drop_length]
  have h : headerForm image0 = true := by
    unfold headerForm
    rw [Bool.and_eq_true]
    refine ⟨by decide +kernel, decide_eq_true ?_⟩
    rw [image0_body]
    unfold imageRegion
    split <;> decide
  have h2 : (headerFault image0 [] true) = none := by
    unfold headerFault
    rw [h]
    decide +kernel
  rw [e, d, imageFault, h2, sha3_nil]
  decide +kernel

/-- A configuration record for a DEVICE_ID, with an entry of each type, and what follows it. -/
def recordHead (id : Nat) : List Byte :=
  natLe 4 0x47464344 ++ natLe 2 1 ++ [2, 0] ++ natLe 8 id ++ natLe 12 0 ++ natLe 4 4108 ++ natLe 32 0 ++ List.replicate 1568 0

def sevenEntries : List Byte := (List.range 7).flatMap fun i => natLe 8 (i + 1)

def goodRecord (id : Nat) (tail : List Byte) : List Byte := recordHead id ++ (sevenEntries ++ (List.replicate 2420 0 ++ tail))

theorem recordHead_length (id : Nat) : (recordHead id).length = 1632 := by
  simp only [recordHead, List.length_append, List.length_replicate]
  rfl

theorem leNat_bound : ∀ l : List Byte, leNat l < 256 ^ l.length
  | [] => by decide
  | b :: bs => by
    have := leNat_bound bs
    have hb := b.isLt
    simp only [leNat, List.length_cons, Nat.pow_succ]
    omega

theorem leNat_of_natLe : ∀ (n x : Nat), x < 256 ^ n → leNat (natLe n x) = x
  | 0, x, h => by simp at h; simp [natLe, leNat, h]
  | n + 1, x, h => by
    have h1 : x / 256 < 256 ^ n := by rw [Nat.pow_succ] at h; omega
    simp only [natLe, leNat, leNat_of_natLe n _ h1, BitVec.toNat_ofNat]
    omega

theorem goodRecord_length (id : Nat) (tail : List Byte) : (goodRecord id tail).length = 4108 + tail.length := by
  simp only [goodRecord, List.length_append, recordHead_length, List.length_replicate, show sevenEntries.length = 56 from by decide]
  omega

theorem goodRecord_entries (id : Nat) (tail : List Byte) :
    recordEntries (goodRecord id tail) = some ((List.range 7).map fun i => (i + 1, [])) := by
  have hn : recordLength (goodRecord id tail) = 4108 := leNat_of_natLe 4 4108 (by decide)
  have hd : ((goodRecord id tail).drop 1632).take (4108 - 2420 - 1632) = sevenEntries := by
    rw [goodRecord, List.drop_left' (recordHead_length id), List.take_left' (by decide)]
  rw [recordEntries, hn, hd]
  decide +kernel

theorem goodRecord_form (id : Nat) (tail : List Byte) : recordForm (goodRecord id tail) = true := by
  have hn : recordLength (goodRecord id tail) = 4108 := leNat_of_natLe 4 4108 (by decide)
  have h0 : fieldAt (goodRecord id tail) 0 4 = 0x47464344 := leNat_of_natLe 4 0x47464344 (by decide)
  have h4 : fieldAt (goodRecord id tail) 4 2 = 1 := leNat_of_natLe 2 1 (by decide)
  have h6 : byteAt (goodRecord id tail) 6 = 2 := rfl
  have h7 : zeroAt (goodRecord id tail) 7 1 = true := rfl
  have h25 : zeroAt (goodRecord id tail) 25 3 = true := rfl
  have h36 : byteAt (goodRecord id tail) 36 = 0 := rfl
  have h37 : byteAt (goodRecord id tail) 37 = 0 := rfl
  have h39 : zeroAt (goodRecord id tail) 39 25 = true := rfl
  simp only [recordForm, hn, h0, h4, h6, h7, h25, h36, h37, h39, goodRecord_entries]
  decide +kernel

theorem goodRecord_id (id : Nat) (tail : List Byte) (h : id < 2 ^ 64) : fieldAt (goodRecord id tail) 8 8 = id := leNat_of_natLe 8 id h

/-! ### Ill-formed commands -/

/-- A packet whose data are no whole number of slots. -/
def badPacket : Packet := ⟨1, 0, 1, 0, natLe 8 0, [0]⟩

def goodPacket : Packet := ⟨1, 0, 1, 0, natLe 8 0, natLe 16 0⟩

/-- Each check of a packet's fields refuses a packet. -/
theorem test_wf_packets : Packet.ok goodPacket = true ∧ [badPacket, { goodPacket with cls := 16 }, { goodPacket with vc := 4 },
    { goodPacket with srcPos := 1024 }, { goodPacket with dstPos := 1024 }, { goodPacket with cword := [] }].all (fun p => !p.ok) = true := by decide

/-- No command that carries a packet takes an ill-formed one. -/
theorem test_wf_packet_commands : [Instr.sync, .status, .commit, .fault, .rewind, .stop, .rebind, .credit, .upData, .downData,
    .pipelineTransfer, .sealSummary, .seal, .abortEntry, .stateTransferPacket].all
      (fun c => !(c 0 badPacket).wf && (c 0 goodPacket).wf) = true := by decide

/-- Messages and flits of a wrong length. -/
theorem test_wf_links : [Instr.hello 0 [], .dataFlitReceive 0 [], .idleFlitReceive 0 [], .linkTestEnd 0 [] (List.replicate 8 0),
    .linkTestEnd 0 (List.replicate 8 0) [], .ping ⟨0, []⟩, .pong ⟨0, []⟩ 0, .hold ⟨0, []⟩, .positionChange 0 []].all
      (fun c => !c.wf) = true := by decide

theorem wf_hello (l : List Byte) : (Instr.hello 0 l).wf = (l.length == 448) := rfl

theorem test_wf_flit : (Instr.hello 0 (List.replicate 448 0)).wf = true := by
  rw [wf_hello, List.length_replicate]
  rfl

/-- Positions, windows, pages and lengths beyond what their fields hold. -/
theorem test_wf_memory : [Instr.reclaimNotice 1024 0, .reclaimNotice 0 65536, .reclaimBlockPlace 1024 0 [] false,
    .reclaimBoundExpiry 0 65536, .reclaimDone 0 65536, .farRequest 0 false 65536 0 0 [] false, .farRequest 0 true 0 0 1 [] false,
    .farData 0 0 (2 ^ 36) 0 [] false, .hostTierCompletion 0 (2 ^ 36) [] false false, .migrationComplete 0 (2 ^ 36),
    .requestComplete 0 512, .writeOrRead false 0 0 [] ⟨false, .good⟩, .writeOrRead false 0 257 [] ⟨false, .good⟩, .writeOrRead true 0 4 [] ⟨false, .good⟩,
    .iadd32 0 [1], .iadd64 0 [1], .fmax32 0 [], .fadd32 0 0 [1], .faddbf16 0 0 [1], .hotBankEpisode 0 (2 ^ 48) 0 0,
    .ecsResultRead []].all (fun c => !c.wf) = true
    ∧ [Instr.reclaimNotice 1023 65535, .migrationComplete 0 (2 ^ 36 - 1), .requestComplete 0 511, .writeOrRead false 0 256 [] ⟨false, .good⟩,
        .faddbf16 0 0 [1, 2], .iadd64 0 (natLe 8 1)].all (·.wf) = true := by decide

/-- Data that are too long for a page or a piece of one. -/
theorem wf_farData (l : List Byte) : (Instr.farData 0 0 0 0 l false).wf = (decide ((0 : Nat) < 2 ^ 36) && decide (l.length ≤ 4096)) := rfl

theorem wf_hostTier (l : List Byte) :
    (Instr.hostTierCompletion 0 0 l false false).wf = (decide ((0 : Nat) < 2 ^ 36) && decide (l.length ≤ 65536)) := rfl

theorem test_wf_long_data (l : List Byte) : (4096 < l.length → (Instr.farData 0 0 0 0 l false).wf = false)
    ∧ (65536 < l.length → (Instr.hostTierCompletion 0 0 l false false).wf = false) := by
  constructor
  · intro h
    rw [wf_farData, decide_eq_false (Nat.not_le.2 h)]
    rfl
  · intro h
    rw [wf_hostTier, decide_eq_false (Nat.not_le.2 h)]
    rfl

/-- Entries, quires, leaves and repaired blocks. -/
theorem test_wf_engines : [Instr.collectiveEntryStart 4096, .chunkComplete 4096 0, .quireArrival 0 [] [], .leafReturn 0 0 0 0 [] false,
    .retainedRepair false 0 [] false].all (fun c => !c.wf) = true
    ∧ [Instr.collectiveEntryStart 4095, .chunkComplete 4095 0, .quireArrival 0 (natLe 64 0) []].all (·.wf) = true := by decide

/-- A stack's identification at a data rate. -/
def stackAt (rate : Nat) : StackId := ⟨32, 4, 4, 4, 48, rate⟩

/-- Readings of a wrong number. -/
theorem test_wf_power : [Instr.hbmTraining [] 0 0, .hbmTraining (List.replicate 20 (stackAt 5)) 0 0, .energyModelSample [],
    .thermalSample [] (List.replicate 20 0) (List.replicate 4 0), .pcieLinkUp 0 8, .pcieLinkUp 1 3].all (fun c => !c.wf) = true
    ∧ (Instr.hbmTraining (List.replicate 20 (stackAt 4)) 0 0).wf = true ∧ (Instr.pcieLinkUp 1 8).wf = true := by decide

/-- Accesses and messages of a wrong length. -/
theorem test_wf_host : [Instr.bar0AccessError false 0 0, .bar2Access false 0 0 [] false, .bar2Access true 0 4 [] false,
    .bar4Access false 0 2 0, .registerWrite 0 2 0].all (fun c => !c.wf) = true
    ∧ [Instr.spdmGetVersion false, .spdmGetCapabilities false, .spdmNegotiateAlgorithms false, .spdmGetDigests false,
        .spdmGetCertificate false, .spdmChallenge false, .spdmGetMeasurements false, .spdmUnsupported false].all
        (fun c => !(c [0, 0, 0]).wf && (c [0, 0, 0, 0]).wf) = true
    ∧ (Instr.bar4Access false 0 8 0).wf = true := by decide

/-! ### Worked examples of the spec and known answers -/

/-- The address of the example after R268. -/
theorem test_interleave_example : hbmMap 0x123456780 = ⟨18, 3, 17, 1, 42, 58, 8, 0⟩ := by decide

/-- The DF4S block of the example after R59: its first sixteen values in FP32. -/
def df4sExample : List Machine.Num :=
  ([0x40A00000, 0xC039999A, 0x3F19999A, 0, 0x3F99999A, 0xBE851EB8, 0x40600000, 0x3F666666,
    0x3D4CCCCD, 0xBCFDF3B6, 0x3C449BA6, 0x3D408312, 0xBCA3D70A, 0, 0x3C03126F, 0x3CD4FDF4] ++ List.replicate 48 0).map
    fun (w : Nat) => decodeFp fp32 w

theorem test_df4s_example : (blockEncode 11 (fun _ => .rne) df4sExample).1 = 0x7F00000070
    ∧ (packElems 4 (blockEncode 11 (fun _ => .rne) df4sExample).2.1).take 9 = [0xD6, 0x01, 0x92, 0x26, 0xE7, 0x73, 0x0D, 0x52, 0] := by
  decide +kernel

/-- The three contributions of the example after R77, in both orders. -/
theorem test_fixed_point_example : fxAdd (fxAdd (fxWord 25 (decodeFp fp32 0x4B800000)).1 (fxWord 25 (decodeFp fp32 0x3F800000)).1)
      (fxWord 25 (decodeFp fp32 0xCB800000)).1 = 0x8000000
    ∧ fxAdd (fxAdd (fxWord 25 (decodeFp fp32 0xCB800000)).1 (fxWord 25 (decodeFp fp32 0x4B800000)).1)
      (fxWord 25 (decodeFp fp32 0x3F800000)).1 = 0x8000000
    ∧ fxFinal true 25 0x8000000 = (natLe 4 0x3F800000, false) := by decide +kernel

/-- The word over four micro-batches of the example after R242, and the reverse order. -/
theorem test_gradient_order_example :
    ([0x3F800000, 0x33800000, 0x33800000, 0x34000000].foldl (fun (a : BitVec 32) x => (add32 a x).1) 0) = 0x3F800001
    ∧ ([0x34000000, 0x33800000, 0x33800000, 0x3F800000].foldl (fun (a : BitVec 32) x => (add32 a x).1) 0) = 0x3F800002 := by
  decide +kernel

/-- The tree of the example after R446: a group of 8 with radix 3, for the shard of rank 5. -/
theorem test_tree_example : (List.range 8).map (relRank 8 5) = [3, 4, 5, 6, 7, 0, 1, 2]
    ∧ [0, 1, 2, 3].map (treeKids 3 8) = [[1, 2, 3], [4, 5, 6], [7], []] ∧ [1, 2, 3].map (rankAt 8 5) = [6, 7, 0] := by decide

/-- The dictionary of the example after R483, and its sample. -/
def ingestDict : List (List Byte) :=
  (List.range 256).map (fun i => [BitVec.ofNat 8 i])
    ++ [[0x74, 0x68], [0x74, 0x68, 0x65], [0x74, 0x68, 0x65, 0x6E], [0x20, 0x74, 0x68, 0x65], [0x65, 0x6E]]

def ingestText : List Byte := [0x74, 0x68, 0x65, 0x6E, 0x20, 0x74, 0x68, 0x65, 0x20, 0x65, 0x6E, 0x64]

theorem test_ingest_example : decodeSample IgeLimits.reset ingestDict (natLe 8 0 ++ natLe 4 12 ++ natLe 4 0) ingestText 12
    = .accept [258, 259, 32, 260, 100] := by decide +kernel

/-- The check value of CRC-32C over the digits 1 to 9. -/
theorem test_crc32c_check : crc32c [0x31, 0x32, 0x33, 0x34, 0x35, 0x36, 0x37, 0x38, 0x39] = 0xE3069283 := by decide +kernel

/-- XXH64 of no bytes with seed 0. -/
theorem test_xxh64_empty : xxh64 [] = 0xEF46DB3751D8E999 := by decide +kernel

/-- A Zstandard frame with one raw block of three bytes (RFC 8878): the window is 1 KiB, and there is no checksum. -/
theorem test_zstd_raw_block :
    zstdDecode 23 3 ([0x28, 0xB5, 0x2F, 0xFD, 0x20, 3] ++ [0x19, 0, 0] ++ [1, 2, 3]) = .good [1, 2, 3] := by decide +kernel

/-- No word spells a command, so nothing is put in front (log entry 8). -/
theorem test_no_word_decodes : decodeTableWord 32 0 = none ∧ (State.reset.withFetchWord 32 0).pending = [] := ⟨rfl, rfl⟩

/-- An echo answers with its argument words, ends with STATUS 0, and raises MB_DONE (R547, R567). -/
theorem test_echo_answers : (match exec (.mbEcho 0) (held 2 [7, 8] up) with
    | .next t => (SMap.lookup (t.mailbox 0).res 1, (t.mailbox 0).word0.getLsbD 31, t.hif.mbDone)
    | _ => (none, true, 0)) = (some 8, false, 1) := by decide +kernel

/-- Five lands that the text and the tables of the land pattern name (R649, R650). -/
theorem test_lands : land 1 75 = .lane (.link 10) 5 true true ∧ land 60 4 = .vss ∧ land 7 40 = .rail .pcie
    ∧ land 97 70 = .rail .serdes ∧ land 30 41 = .rail (.core 0) := by decide +kernel

/-! ### What the statements assume can be met -/

namespace W01

/-- What the clauses of HostAccessesReachTheDevice assume can be met. -/
theorem witness_HostAccessesReachTheDevice :
    (∃ (s : State) (off : BitVec 12) (d : BitVec 32), s.configOpen = true) ∧
    (∃ (s : State) (off : BitVec 12) (d : BitVec 32), s.configOpen = true ∧ off.toNat / 4 ≠ Config.cfgDevCtl) ∧
    (∃ (s : State) (w : Bool) (off : BitVec 12) (d : BitVec 32), s.configOpen = false) ∧
    (∃ (s : State) (rates : BitVec 7) (width : Nat), s.sys.pwrGood = true ∧ s.sys.perstN = true ∧ rates ≠ 0 ∧ 1 ≤ width) ∧
    (∃ (s : State) (write : Bool) (off : BitVec 21) (width : Nat), s.decodes = true ∧
        bar0Bad write off.toNat width = true) ∧
    (∃ (s s' : State) (m : Hbm) (dmg : BitVec 64) (off : BitVec 40) (data : List Byte) (bad : Bool) (len pa : Nat),
        s.decodes = true ∧ data ≠ [] ∧ off.toNat + data.length ≤ s.hif.bar2Size ∧ pa = s.hif.windowBase + off.toNat ∧
        s.bar2Drops true pa data.length = false ∧ chargeHost s.hif.windowPart pa data.length s.mem = (true, m) ∧
        fabricCross (fabricPath 0 (stackDie pa) pa) { s with mem := m } = (none, dmg, s') ∧
        Calm (taintPa pa data.length (hbmWrite pa (xorHead data dmg) bad s'))) ∧
    (∃ (s s' t : State) (m : Hbm) (dmg : BitVec 64) (off : BitVec 40) (data got : List Byte) (marks : List Nat) (bad : Bool)
      (len pa : Nat), s.decodes = true ∧ 0 < len ∧ off.toNat + len ≤ s.hif.bar2Size ∧ pa = s.hif.windowBase + off.toNat ∧ s.bar2Drops false pa len = false ∧ s.inDump pa len = none ∧ chargeHost s.hif.windowPart pa len s.mem = (true, m) ∧ fabricCross (fabricPath 0 (stackDie pa) pa) { s with mem := m } = (none, dmg, s') ∧ hbmRead pa len s' = (got, marks, t) ∧ Calm t) ∧
    (∃ (s : State) (m : Hbm) (write : Bool) (off : BitVec 40) (data : List Byte) (bad : Bool) (len n pa : Nat),
        s.decodes = true ∧ n = (if write then data.length else len) ∧ 0 < n ∧ off.toNat + n ≤ s.hif.bar2Size ∧
        pa = s.hif.windowBase + off.toNat ∧ s.bar2Drops write pa n = false ∧ s.inDump pa n = none ∧
        chargeHost s.hif.windowPart pa n s.mem = (false, m)) ∧
    (∃ (s : State) (write : Bool) (off : BitVec 24) (width : Nat) (d : BitVec 64), s.decodes = true ∧ s.sec.debug = 0) ∧
    (∃ (s : State) (off : BitVec 24) (width : Nat) (d : BitVec 64), s.decodes = true ∧ s.sec.debug ≠ 0) ∧
    (∃ (s : State) (off : BitVec 24) (d : BitVec 64), s.decodes = true ∧ s.sec.debug ≠ 0) := by
  refine ⟨?_, ?_, ?_, ?_, ?_, ?_, ?_, ?_, ?_, ?_, ?_⟩
  · exact ⟨up, 0, 0, by decide⟩
  · exact by
      by_cases h : (0 : Nat) = Config.cfgDevCtl
      · exact ⟨up, 4, 0, by decide, by rw [← h]; decide⟩
      · exact ⟨up, 0, 0, by decide, h⟩
  · exact ⟨State.reset, true, 0, 0, by decide⟩
  · exact ⟨State.reset, 1, 1, by decide, by decide, by decide, by decide⟩
  · exact ⟨up, true, 2, 4, by decide, by decide⟩
  · exact by
      refine ⟨up, (fabricCross (fabricPath 0 (stackDie 0) 0) { up with mem := (chargeHost 4 0 1 up.mem).2 }).2.2,
          (chargeHost 4 0 1 up.mem).2,
          (fabricCross (fabricPath 0 (stackDie 0) 0) { up with mem := (chargeHost 4 0 1 up.mem).2 }).2.1, 0, [1],
          false, 1, 0, ?_, ?_, ?_, ?_, ?_, ?_, ?_, .inr (by decide +kernel)⟩ <;>
        decide +kernel
  · exact by
      refine ⟨up, (fabricCross (fabricPath 0 (stackDie 0) 0) { up with mem := (chargeHost 4 0 1 up.mem).2 }).2.2,
          (hbmRead 0 1 (fabricCross (fabricPath 0 (stackDie 0) 0) { up with mem := (chargeHost 4 0 1 up.mem).2 }).2.2).2.2,
          (chargeHost 4 0 1 up.mem).2,
          (fabricCross (fabricPath 0 (stackDie 0) 0) { up with mem := (chargeHost 4 0 1 up.mem).2 }).2.1, 0, [],
          (hbmRead 0 1 (fabricCross (fabricPath 0 (stackDie 0) 0) { up with mem := (chargeHost 4 0 1 up.mem).2 }).2.2).1,
          (hbmRead 0 1 (fabricCross (fabricPath 0 (stackDie 0) 0) { up with mem := (chargeHost 4 0 1 up.mem).2 }).2.2).2.1,
          false, 1, 0, ?_, ?_, ?_, ?_, ?_, ?_, ?_, ?_, ?_, .inr (by decide +kernel)⟩ <;>
        decide +kernel
  · exact by
      refine ⟨{ up with hif := { up.hif with windowPart := 0 }, mem := { up.mem with regs := [(0, ⟨0, 1, 64, false⟩)] } },
          (chargeHost 0 0 1 { up.mem with regs := [(0, ⟨0, 1, 64, false⟩)] }).2, true, 0, [1], false, 1, 1, 0, ?_,
          ?_, ?_, ?_, ?_, ?_, ?_, ?_⟩ <;>
        decide +kernel
  · exact ⟨up, true, 0, 4, 0, by decide, by decide⟩
  · exact ⟨{ up with sec := { up.sec with debug := 1 } }, 0, 4, 0, by decide, by decide⟩
  · exact ⟨{ up with sec := { up.sec with debug := 1 } }, 0, 0, by decide, by decide⟩

/-- What the clauses of RegisterWritesTakeEffect assume can be met. -/
theorem witness_RegisterWritesTakeEffect :
    (∃ (s : State) (mb : Fin 16) (word : BitVec 32), s.decodes = true ∧ s.mailboxOpen mb = true ∧
        (s.mailbox mb).own = false ∧ word.getLsbD 31 = true) ∧
    (∃ (s : State) (mb : Fin 16) (off : BitVec 8), s.decodes = true ∧ s.mailboxOpen mb = true ∧ (s.mailbox mb).own = true) ∧
    (∃ (s : State) (v : BitVec 64), s.decodes = true) ∧
    (∃ (s : State) (v : BitVec 64), s.decodes = true) ∧
    (∃ (s : State) (v : BitVec 64), s.decodes = true) ∧
    (∃ (s : State) (v : BitVec 64), s.decodes = true ∧ s.hif.held = []) ∧
    (∃ (s : State) (v : BitVec 64), s.decodes = true) ∧
    (∃ (s : State) (mb : Fin 16) (i : Fin 15) (v : BitVec 64), s.decodes = true ∧ s.mailboxOpen mb = true ∧
        (s.mailbox mb).own = false) := by
  refine ⟨?_, ?_, ?_, ?_, ?_, ?_, ?_, ?_⟩
  · exact ⟨up, 0, 0x80000001, by decide, by decide, by decide, by decide⟩
  · exact ⟨held 1 [] up, 0, 0, by decide, by decide, by decide⟩
  · exact ⟨up, 0, by decide⟩
  · exact ⟨up, 0, by decide⟩
  · exact ⟨up, 0, by decide⟩
  · exact ⟨up, 0, by decide, rfl⟩
  · exact ⟨up, 0, by decide⟩
  · exact ⟨up, 0, 0, 0, by decide, by decide, by decide⟩

end W01

namespace W02

/-- What the clauses of GeneralCommandsTakeEffect assume can be met. -/
theorem witness_GeneralCommandsTakeEffect :
    (∃ (s : State) (mb : Fin 16), (s.mailbox mb).own = true ∧ cmdKind (s.mailbox mb).code = none) ∧
    (∃ (s : State) (mb : Fin 16), Holds s mb 0x0001 0 ∧ s.sec.recovery = false) ∧
    (∃ (s : State) (mb : Fin 16), Holds s mb 0x0002 15) ∧
    (∃ (s s' : State) (mb : Fin 16), Holds s mb 0x0003 1 ∧
        ReportAt s s' (argOf s mb 0) ((List.range 16).flatMap fun n => (s.mailbox n).record)) ∧
    (∃ (s : State) (mb : Fin 16), Holds s mb 0x0004 0 ∧ s.spine.running = false) ∧
    (∃ (s : State) (mb : Fin 16), Holds s mb 0x0005 2 ∧ argOf s mb 0 % s.hif.bar2Size = 0 ∧ argOf s mb 0 < 2 ^ 30 * 960 ∧
        argOf s mb 1 ≤ 4) ∧
    (∃ (s : State) (mb : Fin 16), Holds s mb 0x0006 2 ∧ argOf s mb 0 ≤ 14 ∧ argOf s mb 1 ≤ 63) ∧
    (∃ (s : State) (mb : Fin 16) (k : Nat), Holds s mb 0x0007 2 ∧ k ≤ 10 ∧ argOf s mb 0 % 4096 = 0 ∧
        argOf s mb 0 / 2 ^ 62 = 2 ∧ argOf s mb 1 = 64 * 2 ^ k ∧
        (s.chans.table.any fun c => c.2.running && c.2.cplRecord) = false) ∧
    (∃ (s : State) (mb : Fin 16), Holds s mb 0x0007 2 ∧ argOf s mb 0 = 0 ∧ argOf s mb 1 = 0 ∧
        (s.chans.table.any fun c => c.2.running && c.2.cplRecord) = false) ∧
    (∃ (s s' : State) (mb : Fin 16), Holds s mb 0x0008 1 ∧ ReportAt s s' (argOf s mb 0) (Ctrs.bytes s.hif.ctrs 6)) ∧
    (∃ (s : State) (mb : Fin 16), Holds s mb 0x0009 1 ∧ argOf s mb 0 < 64) := by
  refine ⟨?_, ?_, ?_, ?_, ?_, ?_, ?_, ?_, ?_, ?_, ?_⟩
  · exact ⟨held 0xFFFF [] up, 0, by decide, by decide⟩
  · exact ⟨held 0x0001 [] up, 0, ⟨by decide, by decide, .inr rfl⟩, by decide⟩
  · exact ⟨held 0x0002 [1, 2] up, 0, ⟨by decide, by decide, .inr rfl⟩⟩
  · exact ⟨held 0x0003 [hostPtr 64] up, _, 0, ⟨by decide, by decide, .inr rfl⟩, reportHost _ _ 64 _ (by decide) (by decide) (.inr rfl)⟩
  · exact ⟨held 0x0004 [] up, 0, ⟨by decide, by decide, .inr rfl⟩, by decide⟩
  · exact ⟨held 0x0005 [up.hif.bar2Size - up.hif.bar2Size, 4] up, 0, ⟨by decide, by decide, .inr rfl⟩, by decide, by decide, by decide⟩
  · exact ⟨held 0x0006 [14, 63] up, 0, ⟨by decide, by decide, .inr rfl⟩, by decide, by decide⟩
  · exact by
      refine ⟨held 0x0007 [hostPtr 4096, 65536] up, 0, 10, ⟨by decide, by decide, .inr rfl⟩, ?_, ?_, ?_, ?_, ?_⟩ <;>
        decide +kernel
  · exact ⟨held 0x0007 [] up, 0, ⟨by decide, by decide, .inr rfl⟩, by decide, by decide, by decide⟩
  · exact ⟨held 0x0008 [hostPtr 0] up, _, 0, ⟨by decide, by decide, .inr rfl⟩, reportHost _ _ 0 _ (by decide) (by decide) (.inr rfl)⟩
  · exact ⟨held 0x0009 [63] up, 0, ⟨by decide, by decide, .inr rfl⟩, by decide⟩

end W02

namespace W03

def progState : State := withPage progHead (withChan (chan0 1) (held 0x0104 [0] up))

/-- What the clauses of ChannelCommandsTakeEffect assume can be met. -/
theorem witness_ChannelCommandsTakeEffect :
    (∃ (s s' : State) (mb : Fin 16) (r : List Byte), Holds s mb 0x0101 2 ∧ argOf s mb 0 ≤ 4095 ∧
        RecordAt s s' (argOf s mb 1) 128 128 r ∧ imageOk r = true ∧ s'.chan (argOf s mb 0) = none) ∧
    (∃ (s : State) (mb : Fin 16), Holds s mb 0x0102 1 ∧ argOf s mb 0 ≤ 4095 ∧ s.stopped (argOf s mb 0) = true) ∧
    (∃ (s : State) (mb : Fin 16), Holds s mb 0x0103 2 ∧ argOf s mb 0 ≤ 4095 ∧ argOf s mb 1 ≤ 1 ∧
        s.stopped (argOf s mb 0) = true) ∧
    (∃ (s s' : State) (mb : Fin 16) (r : List Byte), Holds s mb 0x0105 2 ∧ argOf s mb 0 ≤ 4095 ∧
        RecordAt s s' (argOf s mb 1) 128 128 r ∧ imageOk r = true ∧ s'.stopped (argOf s mb 0) = true) ∧
    (∃ (s s' s'' : State) (mb : Fin 16) (x : Chan) (r code : List Byte), Holds s mb 0x0104 2 ∧ argOf s mb 0 ≤ 4095 ∧
        argOf s mb 1 < 2 ^ 52 ∧ argOf s mb 1 % 4096 = 0 ∧ s.chan (argOf s mb 0) = some x ∧ x.running = false ∧
        RecordAt s s' (argOf s mb 1 + x.part * 2 ^ 52) 64 4096 r ∧ headerOk r = true ∧
        RecordAt s' s'' (argOf s mb 1 + x.part * 2 ^ 52 + (Header.of r).codeOffset) (Header.of r).codeLength 16 code) ∧
    (∃ (s : State) (mb : Fin 16) (x : Chan), Holds s mb 0x0106 2 ∧ argOf s mb 0 ≤ 4095 ∧ s.memOff = false ∧
        s.chan (argOf s mb 0) = some x ∧ x.running = false ∧ x.header.isSome = true ∧
        s.tilesTaken (argOf s mb 0) = false ∧
        ((s.spine.running = true → argOf s mb 1 = 0 ∨ s.spine.step < argOf s mb 1))) ∧
    (∃ (s : State) (mb : Fin 16) (x : Chan), Holds s mb 0x0107 2 ∧ argOf s mb 0 ≤ 4095 ∧ argOf s mb 1 = 0 ∧
        s.spine.running = true ∧ s.chan (argOf s mb 0) = some x ∧ x.running = true) ∧
    (∃ (s : State) (mb : Fin 16) (x : Chan), Holds s mb 0x0107 2 ∧ argOf s mb 0 ≤ 4095 ∧ argOf s mb 1 ≤ 1 ∧
        s.spine.running = false ∧ s.chan (argOf s mb 0) = some x ∧ x.running = true ∧ Calm (stopChan (argOf s mb 0) 6 s)) := by
  refine ⟨?_, ?_, ?_, ?_, ?_, ?_, ?_, ?_⟩
  · exact ⟨withHost (List.replicate 16 0 ++ [1]) (held 0x0101 [4095, hostPtr 0] up), _, 0, _, ⟨by decide, by decide, .inr rfl⟩, by decide,
        recordHost _ _ 0 128 128 (by decide) (by decide) rfl (.inr rfl), by decide, rfl⟩
  · exact ⟨withChan (chan0 1) (held 0x0102 [0] up), 0, ⟨by decide, by decide, .inr rfl⟩, by decide, by decide⟩
  · exact ⟨withChan (chan0 1) (held 0x0103 [0, 1] up), 0, ⟨by decide, by decide, .inr rfl⟩, by decide, by decide, by decide⟩
  · exact ⟨withHost (List.replicate 16 0 ++ [1]) (withChan (chan0 1) (held 0x0105 [0, hostPtr 0] up)), _, 0, _, ⟨by decide, by decide, .inr rfl⟩, by decide,
        recordHost _ _ 0 128 128 (by decide) (by decide) rfl (.inr rfl), by decide, by decide⟩
  · exact by
      have e : argOf progState 0 1 + (chan0 1).part * 2 ^ 52 = 0 := by decide
      refine ⟨progState, (vaGet 0 0 64 progState).2.2, (vaGet 0 64 16 (vaGet 0 0 64 progState).2.2).2.2, 0, chan0 1,
        (vaGet 0 0 64 progState).1, (vaGet 0 64 16 (vaGet 0 0 64 progState).2.2).1, ⟨by decide, by decide, .inr rfl⟩, by decide, by decide, by decide, rfl, by decide,
        by rw [e]; exact recordVa _ _ _ _ 0 0 rfl (by decide +kernel) (by decide +kernel) (by decide +kernel) (by decide +kernel), by decide +kernel, ?_⟩
      rw [e, show (Header.of (vaGet 0 0 64 progState).1).codeOffset = 64 from by decide +kernel,
        show (Header.of (vaGet 0 0 64 progState).1).codeLength = 16 from by decide +kernel]
      exact recordVa _ _ _ _ 0 64 rfl (by decide +kernel) (by decide +kernel) (by decide +kernel) (by decide +kernel)
  · exact by
      refine ⟨memOn (withChan (chan0 1) (held 0x0106 [0] up)), 0, chan0 1, ⟨by decide, by decide, .inr rfl⟩, ?_, ?_, rfl,
          ?_, ?_, ?_, ?_⟩ <;>
        decide +kernel
  · exact ⟨{ withChan (chan0 4) (held 0x0107 [0] up) with spine := { Spine.reset with running := true } }, 0, chan0 4, ⟨by decide, by decide, .inr rfl⟩,
        by decide, by decide, rfl, rfl, by decide⟩
  · exact ⟨withChan (chan0 4) (held 0x0107 [0, 1] up), 0, chan0 4, ⟨by decide, by decide, .inr rfl⟩, by decide, by decide, rfl, rfl, by decide, .inr rfl⟩

/-- What the clauses of TileCommandsTakeEffect assume can be met. -/
theorem witness_TileCommandsTakeEffect :
    (∃ (s : State) (mb : Fin 16), Holds s mb 0x0108 1 ∧ argOf s mb 0 ≤ 4095) ∧
    (∃ (s : State) (mb : Fin 16), Holds s mb 0x0109 1 ∧ argOf s mb 0 ≤ 255) ∧
    (∃ (s : State) (mb : Fin 16), Holds s mb 0x010A 1 ∧ argOf s mb 0 ≤ 255 ∧
        (s.chans.table.any fun p => p.2.running && p.2.tiles.getLsbD (argOf s mb 0)) = false) ∧
    (∃ (s s' : State) (mb : Fin 16), Holds s mb 0x010B 3 ∧ argOf s mb 0 + argOf s mb 1 ≤ 256 ∧ ReportAt s s' (argOf s mb 2)
      ((List.range (argOf s mb 1)).flatMap fun i => Ctrs.bytes (s.tile (argOf s mb 0 + i)).ctrs 7)) ∧
    (∃ (s : State) (mb : Fin 16), Holds s mb 0x010C 3 ∧ argOf s mb 0 + argOf s mb 1 ≤ 256 ∧ argOf s mb 2 < 2 ^ 7) ∧
    (∃ (s s' : State) (mb : Fin 16), Holds s mb 0x010D 3 ∧ argOf s mb 0 + argOf s mb 1 ≤ 256 ∧ ReportAt s s' (argOf s mb 2)
      ((List.range (argOf s mb 1)).flatMap fun i => Ctrs.bytes (s.tile (argOf s mb 0 + i)).tfeCtrs 6)) ∧
    (∃ (s : State) (mb : Fin 16), Holds s mb 0x010E 3 ∧ argOf s mb 0 + argOf s mb 1 ≤ 256 ∧ argOf s mb 2 < 2 ^ 6) := by
  refine ⟨?_, ?_, ?_, ?_, ?_, ?_, ?_⟩
  · exact ⟨held 0x0108 [4095] up, 0, ⟨by decide, by decide, .inr rfl⟩, by decide⟩
  · exact ⟨held 0x0109 [255] up, 0, ⟨by decide, by decide, .inr rfl⟩, by decide⟩
  · exact ⟨held 0x010A [255] up, 0, ⟨by decide, by decide, .inr rfl⟩, by decide, by decide⟩
  · exact ⟨held 0x010B [254, 2, hostPtr 0] up, _, 0, ⟨by decide, by decide, .inr rfl⟩, by decide, reportHost _ _ 0 _ (by decide) (by decide) (.inr rfl)⟩
  · exact ⟨held 0x010C [254, 2, 127] up, 0, ⟨by decide, by decide, .inr rfl⟩, by decide, by decide⟩
  · exact ⟨held 0x010D [254, 2, hostPtr 0] up, _, 0, ⟨by decide, by decide, .inr rfl⟩, by decide, reportHost _ _ 0 _ (by decide) (by decide) (.inr rfl)⟩
  · exact ⟨held 0x010E [254, 2, 63] up, 0, ⟨by decide, by decide, .inr rfl⟩, by decide, by decide⟩

end W03

namespace W04

def haltState : State :=
  withHost [1] { held 0x0233 [hostPtr 0] up with mem := { Hbm.reset with tgcRes := [(0, ⟨0, 0, 0, 0, 0, 0, 0, 1, []⟩)] } }

/-- What the clauses of MemoryCommandsTakeEffect assume can be met. -/
theorem witness_MemoryCommandsTakeEffect :
    (∃ (s : State) (mb : Fin 16), Holds s mb 0x0201 0) ∧
    (∃ (s : State) (mb : Fin 16), Holds s mb 0x0203 1 ∧ argOf s mb 0 < 0xF000000000) ∧
    (∃ (s : State) (mb : Fin 16), Holds s mb 0x0202 2 ∧ argOf s mb 0 % 2 ^ 16 = 0 ∧ argOf s mb 1 % 2 ^ 16 = 0 ∧
        argOf s mb 0 + argOf s mb 1 ≤ 0xEFF0000000 ∧ s.memOff = false ∧ s.paHeld (argOf s mb 0) (argOf s mb 1) = false ∧
        s.generators = false) ∧
    (∃ (s t : State) (mb : Fin 16), Holds s mb 0x0206 1 ∧ argOf s mb 0 < 16 ∧ (s.chans.table.any fun c => c.2.running && (argOf s mb 0).testBit c.2.part) = false ∧ s.generators = false ∧ t = ((s.mem.shc.filter fun l => decide (l.2.part < 4) && (argOf s mb 0).testBit l.2.part).foldl
      (fun s l => shcEvict l.1 s) s) ∧ Calm t) ∧
    (∃ (s : State) (mb : Fin 16) (frames : List Nat), Holds s mb 0x0220 3 ∧ argOf s mb 0 ≤ 15 ∧ argOf s mb 1 < 2 ^ 54 ∧ argOf s mb 1 % 2 ^ 16 = 0 ∧ 0 < argOf s mb 2 ∧ argOf s mb 2 ≤ 65536 ∧ argOf s mb 1 % 2 ^ 52 + argOf s mb 2 * 2 ^ 16 ≤ 2 ^ 52 ∧ s.memOff = false ∧ s.generators = false ∧ SMap.lookup s.mem.fx (argOf s mb 0) = none ∧ (s.mem.fx.map fun r => r.2.frames.length).foldl (· + ·) 0 + argOf s mb 2 ≤ 65536 ∧ ((∀ r ∈ s.mem.fx, r.2.part = argOf s mb 1 / 2 ^ 52 % 4 →
      argOf s mb 1 % 2 ^ 52 + argOf s mb 2 * 2 ^ 16 ≤ r.2.base
        ∨ r.2.base + r.2.frames.length * 2 ^ 16 ≤ argOf s mb 1 % 2 ^ 52)) ∧ s.boundsHit (argOf s mb 1 / 2 ^ 52 % 4) (argOf s mb 1 % 2 ^ 52) (argOf s mb 2 * 2 ^ 16) = false ∧ ((List.range (argOf s mb 2)).map fun i =>
      s.pinnable (argOf s mb 1 / 2 ^ 52 % 4) (argOf s mb 1 % 2 ^ 52 + i * 2 ^ 16)) = frames.map some) ∧
    (∃ (s : State) (mb : Fin 16) (r : FxRegion), Holds s mb 0x0221 1 ∧ argOf s mb 0 ≤ 15 ∧
        SMap.lookup s.mem.fx (argOf s mb 0) = some r ∧ s.boundsHit r.part r.base (r.frames.length * 2 ^ 16) = false) := by
  refine ⟨?_, ?_, ?_, ?_, ?_, ?_⟩
  · exact ⟨held 0x0201 [] up, 0, ⟨by decide, by decide, .inr rfl⟩⟩
  · exact ⟨held 0x0203 [0xEFFFFFFFFF] up, 0, ⟨by decide, by decide, .inr rfl⟩, by decide⟩
  · exact by
      refine ⟨memOn (held 0x0202 [0xEFEFFF0000, 0x10000] up), 0, ⟨by decide, by decide, .inr rfl⟩, ?_, ?_, ?_, ?_, ?_, ?_⟩ <;>
        decide +kernel
  · exact ⟨held 0x0206 [15] up, _, 0, ⟨by decide, by decide, .inr rfl⟩, by decide, by decide, by decide, rfl, .inr rfl⟩
  · exact by
      refine ⟨withPage [] (held 0x0220 [15, 0, 1] up), 0, [0], ⟨by decide, by decide, .inr rfl⟩, ?_, ?_, ?_, ?_, ?_, ?_,
          ?_, ?_, ?_, ?_, ?_, ?_, ?_⟩ <;>
        decide +kernel
  · exact ⟨{ held 0x0221 [15] up with mem := { Hbm.reset with fx := [(15, ⟨0, 0, [0], []⟩)] } }, 0, ⟨0, 0, [0], []⟩, ⟨by decide, by decide, .inr rfl⟩, by decide, by decide, by decide⟩

/-- What the clauses of RegulatorAndGeneratorCommandsTakeEffect assume can be met. -/
theorem witness_RegulatorAndGeneratorCommandsTakeEffect :
    (∃ (s s' : State) (mb : Fin 16) (r : List Byte), Holds s mb 0x0210 2 ∧ argOf s mb 0 ≤ 3 ∧
        RecordAt s s' (argOf s mb 1) 16 64 r ∧ fieldAt r 6 1 < 2 ∧ zeroAt r 7 9 = true ∧
        ((fieldAt r 2 2 = 0 ∨ fieldAt r 0 2 ≤ fieldAt r 2 2)) ∧ 4 ≤ fieldAt r 4 2 ∧ fieldAt r 4 2 ≤ 1024 ∧
        100 * s'.floorSum (argOf s mb 0) (fieldAt r 0 2) ≤ 9 * rateGBs s'.mem.rate) ∧
    (∃ (s s' : State) (mb : Fin 16), Holds s mb 0x0211 1 ∧
        ReportAt s s' (argOf s mb 0) ((List.range 4).flatMap s.prgBytes)) ∧
    (∃ (s s' : State) (mb : Fin 16), Holds s mb 0x0212 1 ∧
        ReportAt s s' (argOf s mb 0) ((List.range 20).flatMap s.hotBytes)) ∧
    (∃ (s s' s'' : State) (mb : Fin 16) (m r : List Byte), Holds s mb 0x0230 2 ∧ s.generators = false ∧
        RecordAt s s' (argOf s mb 0) 80 64 m ∧ RecordAt s' s'' (argOf s mb 1) 64 64 r ∧ tgcRecOk r = true ∧
        Tg.rowFirst r ≤ Tg.rowLast r ∧ Tg.rowLast r ≤ 12287) ∧
    (∃ (s s' : State) (mb : Fin 16) (m : List Byte), Holds s mb 0x0231 1 ∧ s.generators = false ∧ s.memOff = false ∧
        s.runningChans = [] ∧ s.mem.fx = [] ∧ s.rse.window = 0 ∧ RecordAt s s' (argOf s mb 0) 80 64 m) ∧
    (∃ (s s' s'' : State) (mb : Fin 16) (m : List Byte), Holds s mb 0x0232 2 ∧ RecordAt s s' (argOf s mb 0) 80 64 m ∧ ReportAt s' s'' (argOf s mb 1) ((bitsOf 640 (leNat m)).flatMap fun n =>
      (SMap.getD s'.mem.tgcRes n TgcRes.reset).bytes)) ∧
    (∃ (s s' t : State) (mb : Fin 16) (m : List Byte) (run : List Nat), Holds s mb 0x0233 1 ∧
        RecordAt s s' (argOf s mb 0) 80 64 m ∧ run = (bitsOf 640 (leNat m)).filter (fun n => s'.tgcActive.contains n) ∧
        run ≠ [] ∧ t = tgcSettle (run.foldl (fun s n => tgcHalt n s) s') ∧ Calm t) ∧
    (∃ (s : State), s.tgcRunning = true) := by
  refine ⟨?_, ?_, ?_, ?_, ?_, ?_, ?_, ?_⟩
  · exact by
      refine ⟨withHost [1, 0, 0, 0, 4] (held 0x0210 [3, hostPtr 0] up), _, 0, _, ⟨by decide, by decide, .inr rfl⟩, ?_,
          recordHost _ _ 0 16 64 (by decide) (by decide) rfl (.inr rfl), ?_, ?_, ?_, ?_, ?_, ?_⟩ <;>
        decide +kernel
  · exact ⟨held 0x0211 [hostPtr 0] up, _, 0, ⟨by decide, by decide, .inr rfl⟩, reportHost _ _ 0 _ (by decide) (by decide) (.inr rfl)⟩
  · exact ⟨held 0x0212 [hostPtr 0] up, _, 0, ⟨by decide, by decide, .inr rfl⟩, reportHost _ _ 0 _ (by decide) (by decide) (.inr rfl)⟩
  · exact ⟨{ held 0x0230 [hostPtr 128, hostPtr 0] up with host := Mem.writeN [] 3 [1, 0, 0, 0, 0, 0xFF, 0x2F, 0, 0, 0, 0, 0, 0, 1] }, _, _, 0, _, _, ⟨by decide, by decide, .inr rfl⟩, by decide,
        recordHost _ _ 128 80 64 (by decide) (by decide) rfl (.inr rfl), recordHost _ _ 0 64 64 (by decide) (by decide) rfl (.inr rfl), by decide, by decide, by decide⟩
  · exact ⟨memOn (held 0x0231 [hostPtr 0] up), _, 0, _, ⟨by decide, by decide, .inr rfl⟩, by decide, by decide, by decide, rfl, by decide,
        recordHost _ _ 0 80 64 (by decide) (by decide) rfl (.inr rfl)⟩
  · exact ⟨withHost [5] (held 0x0232 [hostPtr 0, hostPtr 128] up), _, _, 0, _, ⟨by decide, by decide, .inr rfl⟩,
        recordHost _ _ 0 80 64 (by decide) (by decide) rfl (.inr rfl), reportHost _ _ 128 _ (by decide) (by decide) (.inr rfl)⟩
  · exact by
      have e : tgcHalt 0 haltState = tgRun 0 0 0 haltState.draw.2 := by
        unfold tgcHalt
        simp only [show tgCount (haltState.mem.tgcRec 0) = 0 from by decide, Nat.zero_add, Nat.mod_one]
      refine ⟨haltState, _, _, 0, _, [0], ⟨by decide, by decide, .inr rfl⟩, recordHost _ _ 0 80 64 (by decide) (by decide) rfl (.inr rfl),
        by decide +kernel, by decide, rfl, .inr ?_⟩
      show (tgcSettle (tgcHalt 0 haltState)).spine.faults = []
      rw [e]
      decide +kernel
  · exact ⟨{ State.reset with mem := { Hbm.reset with tgcRes := [(0, ⟨0, 0, 0, 0, 0, 0, 0, 1, []⟩)] } }, by decide⟩

end W04

namespace W05

/-- What the clauses of CounterReadsReportEveryCounter assume can be met. -/
theorem witness_CounterReadsReportEveryCounter :
    (∃ (s s' : State) (mb : Fin 16), Holds s mb 0x0204 1 ∧
        ReportAt s s' (argOf s mb 0) ((List.range 16).flatMap fun i => natLe 8 (Ctrs.get s.mem.ctrs i))) ∧
    (∃ (s s' : State) (mb : Fin 16), Holds s mb 0x0A0A 1 ∧
        ReportAt s s' (argOf s mb 0) ((List.range 5).flatMap fun i => natLe 8 (Ctrs.get s.num.wgbCtrs i))) ∧
    (∃ (s s' : State) (mb : Fin 16), Holds s mb 0x0320 1 ∧
        ReportAt s s' (argOf s mb 0) ((List.range 19).flatMap fun i => natLe 8 (Ctrs.get s.ptu.ctrs i))) ∧
    (∃ (s s' : State) (mb : Fin 16), Holds s mb 0x0349 1 ∧
        ReportAt s s' (argOf s mb 0) ((List.range 13).flatMap fun i => natLe 8 (Ctrs.get s.leafs.ctrs i))) ∧
    (∃ (s s' : State) (mb : Fin 16), Holds s mb 0x050B 1 ∧
        ReportAt s s' (argOf s mb 0) ((List.range 10).flatMap fun i => natLe 8 (Ctrs.get s.cle.ctrs i))) ∧
    (∃ (s s' : State) (mb : Fin 16), Holds s mb 0x0608 1 ∧
        ReportAt s s' (argOf s mb 0) ((List.range 11).flatMap fun i => natLe 8 (Ctrs.get s.ige.ctrs i))) ∧
    (∃ (s s' : State) (mb : Fin 16), Holds s mb 0x0730 1 ∧
        ReportAt s s' (argOf s mb 0) ((List.range 12).flatMap fun i => natLe 8 (Ctrs.get s.rse.ctrs i))) ∧
    (∃ (s s' : State) (mb : Fin 16), Holds s mb 0x080A 1 ∧
        ReportAt s s' (argOf s mb 0) ((List.range 13).flatMap fun i => natLe 8 (Ctrs.get s.pcm.ctrs i))) ∧
    (∃ (s s' : State) (mb : Fin 16), Holds s mb 0x0409 1 ∧ ReportAt s s' (argOf s mb 0)
      ((List.range 32).flatMap fun l => (List.range 11).flatMap fun i => natLe 8 (Ctrs.get (s.link l).ctrs i))) := by
  refine ⟨?_, ?_, ?_, ?_, ?_, ?_, ?_, ?_, ?_⟩
  · exact ⟨held 0x0204 [hostPtr 0] up, _, 0, ⟨by decide, by decide, .inr rfl⟩, reportHost _ _ 0 _ (by decide) (by decide) (.inr rfl)⟩
  · exact ⟨held 0x0A0A [hostPtr 0] up, _, 0, ⟨by decide, by decide, .inr rfl⟩, reportHost _ _ 0 _ (by decide) (by decide) (.inr rfl)⟩
  · exact ⟨held 0x0320 [hostPtr 0] up, _, 0, ⟨by decide, by decide, .inr rfl⟩, reportHost _ _ 0 _ (by decide) (by decide) (.inr rfl)⟩
  · exact ⟨held 0x0349 [hostPtr 0] up, _, 0, ⟨by decide, by decide, .inr rfl⟩, reportHost _ _ 0 _ (by decide) (by decide) (.inr rfl)⟩
  · exact ⟨held 0x050B [hostPtr 0] up, _, 0, ⟨by decide, by decide, .inr rfl⟩, reportHost _ _ 0 _ (by decide) (by decide) (.inr rfl)⟩
  · exact ⟨held 0x0608 [hostPtr 0] up, _, 0, ⟨by decide, by decide, .inr rfl⟩, reportHost _ _ 0 _ (by decide) (by decide) (.inr rfl)⟩
  · exact ⟨held 0x0730 [hostPtr 0] up, _, 0, ⟨by decide, by decide, .inr rfl⟩, reportHost _ _ 0 _ (by decide) (by decide) (.inr rfl)⟩
  · exact ⟨held 0x080A [hostPtr 0] up, _, 0, ⟨by decide, by decide, .inr rfl⟩, reportHost _ _ 0 _ (by decide) (by decide) (.inr rfl)⟩
  · exact ⟨held 0x0409 [hostPtr 0] up, _, 0, ⟨by decide, by decide, .inr rfl⟩, reportHost _ _ 0 _ (by decide) (by decide) (.inr rfl)⟩

/-- What the clauses of CounterClearsClearTheMask assume can be met. -/
theorem witness_CounterClearsClearTheMask :
    (∃ (s : State) (mb : Fin 16), Holds s mb 0x0A09 1 ∧ argOf s mb 0 < 2 ^ 5) ∧
    (∃ (s : State) (mb : Fin 16), Holds s mb 0x0A0B 1 ∧ argOf s mb 0 < 2 ^ 5) ∧
    (∃ (s : State) (mb : Fin 16), Holds s mb 0x0321 1 ∧ argOf s mb 0 < 2 ^ 19) ∧
    (∃ (s : State) (mb : Fin 16), Holds s mb 0x034A 1 ∧ argOf s mb 0 < 2 ^ 13) ∧
    (∃ (s : State) (mb : Fin 16), Holds s mb 0x0609 1 ∧ argOf s mb 0 < 2 ^ 11) ∧
    (∃ (s : State) (mb : Fin 16), Holds s mb 0x0731 1 ∧ argOf s mb 0 < 2 ^ 12) ∧
    (∃ (s : State) (mb : Fin 16), Holds s mb 0x080B 1 ∧ argOf s mb 0 < 2 ^ 13) ∧
    (∃ (s : State) (mb : Fin 16), Holds s mb 0x0205 1 ∧ argOf s mb 0 < 2 ^ 16) ∧
    (∃ (s : State) (mb : Fin 16), Holds s mb 0x040A 2 ∧ argOf s mb 0 < 2 ^ 32 ∧ argOf s mb 1 < 2 ^ 11) ∧
    (∃ (s : State) (mb : Fin 16), Holds s mb 0x050A 1 ∧ argOf s mb 0 < 2 ^ 10) := by
  refine ⟨?_, ?_, ?_, ?_, ?_, ?_, ?_, ?_, ?_, ?_⟩
  · exact ⟨held 0x0A09 [2 ^ 5 - 1] up, 0, ⟨by decide, by decide, .inr rfl⟩, by decide⟩
  · exact ⟨held 0x0A0B [2 ^ 5 - 1] up, 0, ⟨by decide, by decide, .inr rfl⟩, by decide⟩
  · exact ⟨held 0x0321 [2 ^ 19 - 1] up, 0, ⟨by decide, by decide, .inr rfl⟩, by decide⟩
  · exact ⟨held 0x034A [2 ^ 13 - 1] up, 0, ⟨by decide, by decide, .inr rfl⟩, by decide⟩
  · exact ⟨held 0x0609 [2 ^ 11 - 1] up, 0, ⟨by decide, by decide, .inr rfl⟩, by decide⟩
  · exact ⟨held 0x0731 [2 ^ 12 - 1] up, 0, ⟨by decide, by decide, .inr rfl⟩, by decide⟩
  · exact ⟨held 0x080B [2 ^ 13 - 1] up, 0, ⟨by decide, by decide, .inr rfl⟩, by decide⟩
  · exact ⟨held 0x0205 [2 ^ 16 - 1] up, 0, ⟨by decide, by decide, .inr rfl⟩, by decide⟩
  · exact ⟨held 0x040A [2 ^ 32 - 1, 2 ^ 11 - 1] up, 0, ⟨by decide, by decide, .inr rfl⟩, by decide, by decide⟩
  · exact ⟨held 0x050A [2 ^ 10 - 1] up, 0, ⟨by decide, by decide, .inr rfl⟩, by decide⟩

end W05

namespace W06

/-- What the clauses of NumericsCommandsTakeEffect assume can be met. -/
theorem witness_NumericsCommandsTakeEffect :
    (∃ (s : State) (mb : Fin 16), Holds s mb 0x0A01 0) ∧
    (∃ (s : State) (mb : Fin 16), Holds s mb 0x0A02 1 ∧ s.num.seedPend = none) ∧
    (∃ (s s' : State) (mb : Fin 16) (r : List Byte), Holds s mb 0x0A03 1 ∧ RecordAt s s' (argOf s mb 0) 64 64 r ∧
        govReserved r = false ∧ govInRange r = true ∧ s'.num.govPend = none) ∧
    (∃ (s s' : State) (mb : Fin 16), Holds s mb 0x0A04 1 ∧ ReportAt s s' (argOf s mb 0) s.num.gov.bytes) ∧
    (∃ (s : State) (mb : Fin 16), Holds s mb 0x0A05 3 ∧ argOf s mb 0 ≤ 4095 ∧ argOf s mb 2 < 256 ∧
        ((isGovFormat (argOf s mb 1) = true ∨ argOf s mb 1 = 15)) ∧
        ((argOf s mb 2 = 0 ∨ argOf s mb 1 = 3 ∨ argOf s mb 1 = 4))) ∧
    (∃ (s : State) (mb : Fin 16), Holds s mb 0x0A06 1 ∧ argOf s mb 0 ≤ 4095) ∧
    (∃ (s s' : State) (mb : Fin 16), Holds s mb 0x0A07 2 ∧ argOf s mb 0 ≤ 4095 ∧ ReportAt s s' (argOf s mb 1) (match SMap.lookup s.num.tensors (argOf s mb 0) with
      | some r => r.bytes (argOf s mb 0)
      | none => List.replicate 768 0)) ∧
    (∃ (s : State) (mb : Fin 16), Holds s mb 0x0A08 3 ∧ argOf s mb 0 < 2 ^ 54 ∧ argOf s mb 0 % 2 ^ 16 = 0 ∧
        0 < argOf s mb 1 ∧ argOf s mb 1 ≤ 65536 ∧ argOf s mb 2 < 256 ∧ argOf s mb 2 ≠ 129 ∧ argOf s mb 2 ≠ 128 ∧
        ((∀ k, k < argOf s mb 1 → (s.fxAt (argOf s mb 0 / 2 ^ 52 % 4) (argOf s mb 0 % 2 ^ 52 + k * 2 ^ 16)).isSome = true))) ∧
    (∃ (s s1 : State), s.spine.running = true ∧ s.spine.started = true ∧ s.rse.window = 0 ∧ s.num.govDone = false ∧ s.statsReduced = true ∧ s1 = (if s.spine.fTick + (s.spine.sched.map (·.commitOffset)).getD 0 < s.spine.tick then
      s.wgbCtr fun c => Ctrs.sat c 4 1 else s) ∧ Calm (sendOwnerState (decideAll s1))) := by
  refine ⟨?_, ?_, ?_, ?_, ?_, ?_, ?_, ?_, ?_⟩
  · exact ⟨held 0x0A01 [] up, 0, ⟨by decide, by decide, .inr rfl⟩⟩
  · exact ⟨held 0x0A02 [7] up, 0, ⟨by decide, by decide, .inr rfl⟩, by decide⟩
  · exact ⟨withHost Numerics.reset.gov.bytes (held 0x0A03 [hostPtr 0] up), _, 0, _, ⟨by decide, by decide, .inr rfl⟩,
        recordHost _ _ 0 64 64 (by decide) (by decide) rfl (.inr rfl), by decide, by decide, rfl⟩
  · exact ⟨held 0x0A04 [hostPtr 0] up, _, 0, ⟨by decide, by decide, .inr rfl⟩, reportHost _ _ 0 _ (by decide) (by decide) (.inr rfl)⟩
  · exact ⟨held 0x0A05 [4095, 4, 255] up, 0, ⟨by decide, by decide, .inr rfl⟩, by decide, by decide, by decide, by decide⟩
  · exact ⟨held 0x0A06 [4095] up, 0, ⟨by decide, by decide, .inr rfl⟩, by decide⟩
  · exact ⟨held 0x0A07 [4095, hostPtr 0] up, _, 0, ⟨by decide, by decide, .inr rfl⟩, by decide, reportHost _ _ 0 _ (by decide) (by decide) (.inr rfl)⟩
  · exact by
      refine ⟨{ held 0x0A08 [0x10000, 1, 255] up with mem := { Hbm.reset with fx := [(15, ⟨0, 0, [4, 5], []⟩)] } }, 0,
          ⟨by decide, by decide, .inr rfl⟩, ?_, ?_, ?_, ?_, ?_, ?_, ?_,
          fun k hk => by
          have : k = 0 := by have h1 : argOf (held 0x0A08 [0x10000, 1, 255] up) 0 1 = 1 := by decide
                             exact Nat.lt_one_iff.1 (h1 ▸ hk)
          subst this; decide⟩ <;>
        decide +kernel
  · exact ⟨{ State.reset with spine := { Spine.reset with running := true, started := true } }, _, rfl, rfl, rfl, rfl, by decide, rfl, .inr (by decide +kernel)⟩

end W06

namespace W07

def mapState : State := withArea [] (held 0x0304 [0, 0x10000, 0x10000, 0, 0, 1, 0, 0, 0, 0, 0, 2 ^ 64 - 1] up)

def moveState : State := withArea [(1, page 64)] (held 0x0306 [0, 0x10000, 0x10000, 1] up)

def lendState : State := withArea [] (held 0x0310 [0x200000, 0] up)

def lendBase : State := { lendState with ptu := { lendState.ptu with lent := SMap.put lendState.ptu.lent 0 ⟨argOf lendState 0 0, argOf lendState 0 1, [], [], false, []⟩ } }

theorem mapE : (mapPages (MapReq.of (argOf mapState 0)) 0 (MapReq.of (argOf mapState 0)).keys mapState).isSome = true := by decide +kernel

theorem moveE : (beginMoves (argOf moveState 0 3) (argOf moveState 0 1) (argOf moveState 0 2)
    (moveState.pagesIn (argOf moveState 0 0) (argOf moveState 0 1) (argOf moveState 0 2)) moveState).isSome = true := by decide +kernel

def lent (o : Option State) : Option State := o.map fun u => (((SMap.lookup u.ptu.lent 0).map (·.frames)).getD []).foldl (fun s f => markUnwritten f 1 s) u

theorem lendC : (lent (lendFrames 0 (argOf lendState 0 1) (argOf lendState 0 0 / 2 ^ 16) lendBase)).map (·.spine.faults.isEmpty) = some true := by decide +kernel

theorem lend_some {o : Option State} (h : (lent o).map (·.spine.faults.isEmpty) = some true) : ∃ u, o = some u
    ∧ ((((SMap.lookup u.ptu.lent 0).map (·.frames)).getD []).foldl (fun s f => markUnwritten f 1 s) u).spine.faults = [] := by
  cases o with
  | none => cases h
  | some u => exact ⟨u, rfl, List.isEmpty_iff.1 (Option.some.inj h)⟩

/-- What the clauses of PagingCommandsTakeEffect assume can be met. -/
theorem witness_PagingCommandsTakeEffect :
    (∃ (s : State) (mb : Fin 16), Holds s mb 0x0301 2 ∧ argOf s mb 0 % 2 ^ 21 = 0 ∧ argOf s mb 1 % 2 ^ 21 = 0 ∧
        2 ^ 22 ≤ argOf s mb 1 ∧ argOf s mb 0 + argOf s mb 1 ≤ 0xEFF0000000 ∧ s.memOff = false ∧ s.ptu.pages = [] ∧
        s.leafs.pools = [] ∧ s.ptu.lent = []) ∧
    (∃ (s : State) (mb : Fin 16), Holds s mb 0x0302 2 ∧ argOf s mb 0 ≤ 3 ∧ argOf s mb 1 ≤ 1 ∧
        (∀ p ∈ s.ptu.pages, keyPart p.1 ≠ argOf s mb 0) ∧ (∀ p ∈ s.leafs.pools, p.2.part ≠ argOf s mb 0)) ∧
    (∃ (s s' : State) (mb : Fin 16) (r : List Byte), Holds s mb 0x0303 2 ∧ argOf s mb 0 ≤ 3 ∧ RecordAt s s' (argOf s mb 1) 40 64 r ∧ ((∀ i, i < 4 → fieldAt r (8 * i) 8 % 2 ^ 16 = 0)) ∧ fieldAt r 32 1 < 2 ∧ zeroAt r 33 7 = true ∧ ((fieldAt r 8 8 = 0 ∨ fieldAt r 0 8 ≤ fieldAt r 8 8)) ∧ ((List.range 4).map fun p => if p = argOf s mb 0 then fieldAt r 0 8 else (s'.quotaOf p).localMin).foldl (· + ·) 0
      ≤ s'.poolFrames * 2 ^ 16 ∧ ((fieldAt r 8 8 = 0 ∨ s'.localUse (argOf s mb 0) * 2 ^ 16 ≤ fieldAt r 8 8)) ∧ ((fieldAt r 16 8 = 0 ∨ s'.tierUse false (argOf s mb 0) ≤ fieldAt r 16 8)) ∧ ((fieldAt r 24 8 = 0 ∨ s'.tierUse true (argOf s mb 0) ≤ fieldAt r 24 8))) ∧
    (∃ (s t : State) (mb : Fin 16) (q : MapReq), Holds s mb 0x0304 12 ∧ q = MapReq.of (argOf s mb) ∧ q.va % q.size = 0 ∧
        q.len % q.size = 0 ∧ q.off % q.size = 0 ∧ ((q.base.isSome = true → argOf s mb 11 % q.size = 0)) ∧ q.part ≤ 3 ∧
        q.slot ≤ 15 ∧ 0 < q.len ∧ q.va + q.len ≤ 2 ^ 52 ∧
        ((q.tier = 3 → q.off + q.len ≤ regionSize ((SMap.lookup s.ptu.regions q.region).getD []))) ∧
        mapBad (argOf s mb) (SMap.getD s.ptu.view q.part 0) = false ∧ s.memOff = false ∧
        s.pagesIn q.part q.va q.len = [] ∧
        ((∀ b, q.base = some b → s.frameFree b (q.len / 2 ^ 16) = true ∧ s.frameRoom q.part (q.len / 2 ^ 16) = true)) ∧
        s.tableRoom q.keys q.big = true ∧ s.generators = false ∧ mapPages q 0 q.keys s = some t ∧ Calm t) ∧
    (∃ (s t : State) (mb : Fin 16), Holds s mb 0x0305 3 ∧ argOf s mb 0 ≤ 3 ∧ argOf s mb 1 % 2 ^ 16 = 0 ∧
        argOf s mb 2 % 2 ^ 16 = 0 ∧ 0 < argOf s mb 2 ∧ argOf s mb 1 + argOf s mb 2 ≤ 2 ^ 52 ∧
        s.cutsBig (argOf s mb 0) (argOf s mb 1) (argOf s mb 2) = false ∧
        s.rangeHeld (argOf s mb 0) (argOf s mb 1) (argOf s mb 2) = false ∧ s.generators = false ∧
        t = (s.pagesIn (argOf s mb 0) (argOf s mb 1) (argOf s mb 2)).foldl (fun s p => unmapPage p.1 p.2 s) s ∧ Calm t) ∧
    (∃ (s t : State) (mb : Fin 16), Holds s mb 0x0306 4 ∧ SMap.lookup s.ptu.moves (argOf s mb 0) = none ∧ argOf s mb 0 ≤ 3 ∧ argOf s mb 1 % 2 ^ 16 = 0 ∧ argOf s mb 2 % 2 ^ 16 = 0 ∧ 0 < argOf s mb 2 ∧ argOf s mb 1 + argOf s mb 2 ≤ 2 ^ 52 ∧ s.cutsBig (argOf s mb 0) (argOf s mb 1) (argOf s mb 2) = false ∧ s.mapped (argOf s mb 0) (argOf s mb 1) (argOf s mb 2) = true ∧ 1 ≤ argOf s mb 3 ∧ argOf s mb 3 ≤ 3 ∧ ((∀ p ∈ s.pagesIn (argOf s mb 0) (argOf s mb 1) (argOf s mb 2),
      (p.2.tier = argOf s mb 3
        ∨ (s.mustStay p.1 p.2 = false ∧ (p.2.big = false ∨ SMap.getD s.ptu.view (argOf s mb 0) 0 ≠ 0)))
      ∧ s.pageBusy p.1 p.2 = false
      ∧ (s.hif.pcieWidth = 0 → p.2.tier = argOf s mb 3 ∨ argOf s mb 3 ≠ 3 ∧ p.2.tier ≠ 3))) ∧ s.memOff = false ∧ s.generators = false ∧ beginMoves (argOf s mb 3) (argOf s mb 1) (argOf s mb 2) (s.pagesIn (argOf s mb 0) (argOf s mb 1) (argOf s mb 2)) s
      = some t ∧ (∀ p ∈ s.pagesIn (argOf s mb 0) (argOf s mb 1) (argOf s mb 2), t.pageXfers p.1 p.2 = []) ∧ Calm t) ∧
    (∃ (s : State) (mb : Fin 16), Holds s mb 0x0307 4 ∧ argOf s mb 0 ≤ 3 ∧ argOf s mb 1 % 2 ^ 16 = 0 ∧
        argOf s mb 2 % 2 ^ 16 = 0 ∧ 0 < argOf s mb 2 ∧ argOf s mb 1 + argOf s mb 2 ≤ 2 ^ 52 ∧
        s.cutsBig (argOf s mb 0) (argOf s mb 1) (argOf s mb 2) = false ∧ argOf s mb 3 ≤ 1 ∧
        s.rangeHeld (argOf s mb 0) (argOf s mb 1) (argOf s mb 2) = false ∧
        ((∀ p ∈ s.pagesIn (argOf s mb 0) (argOf s mb 1) (argOf s mb 2), argOf s mb 3 = 1 → s.leaving p.1 = false))) ∧
    (∃ (s : State) (mb : Fin 16) (k : Nat) (p : Page), Holds s mb 0x0307 4 ∧ argOf s mb 0 ≤ 3 ∧
        argOf s mb 1 % 2 ^ 16 = 0 ∧ argOf s mb 2 % 2 ^ 16 = 0 ∧ 0 < argOf s mb 2 ∧
        argOf s mb 1 + argOf s mb 2 ≤ 2 ^ 52 ∧ s.cutsBig (argOf s mb 0) (argOf s mb 1) (argOf s mb 2) = false ∧
        argOf s mb 3 = 1 ∧ s.rangeHeld (argOf s mb 0) (argOf s mb 1) (argOf s mb 2) = false ∧
        s.pagesIn (argOf s mb 0) (argOf s mb 1) (argOf s mb 2) = [(k, p)] ∧ p.big = false ∧ p.pin = false ∧
        s.leaving k = true) := by
  refine ⟨?_, ?_, ?_, ?_, ?_, ?_, ?_, ?_⟩
  · exact by
      refine ⟨memOn (held 0x0301 [0, 2 ^ 22] up), 0, ⟨by decide, by decide, .inr rfl⟩, ?_, ?_, ?_, ?_, ?_, rfl, rfl, rfl⟩ <;>
        decide +kernel
  · exact ⟨held 0x0302 [3, 1] up, 0, ⟨by decide, by decide, .inr rfl⟩, by decide, by decide, by decide, by decide⟩
  · exact by
      refine ⟨held 0x0303 [3, hostPtr 0] up, _, 0, _, ⟨by decide, by decide, .inr rfl⟩, ?_,
          recordHost _ _ 0 40 64 (by decide) (by decide) rfl (.inr rfl), ?_, ?_, ?_, ?_, ?_, ?_, ?_, ?_⟩ <;>
        decide +kernel
  · exact by
      refine ⟨mapState, (mapPages (MapReq.of (argOf mapState 0)) 0 (MapReq.of (argOf mapState 0)).keys mapState).get mapE, 0, MapReq.of (argOf mapState 0), ⟨by decide, by decide, .inr rfl⟩, rfl, ?_, ?_, ?_, ?_,
        ?_, ?_, ?_, ?_, ?_, ?_, ?_,
        ?_, ?_, ?_, ?_, (Option.some_get mapE).symm, .inr (by decide +kernel)⟩
      any_goals decide +kernel
  · exact by
      refine ⟨withArea [(1, page 64)] (held 0x0305 [0, 0x10000, 0x10000] up), _, 0, ⟨by decide, by decide, .inr rfl⟩, ?_,
          ?_, ?_, ?_, ?_, ?_, ?_, ?_, rfl, .inr (by decide +kernel)⟩ <;>
        decide +kernel
  · exact by
      refine ⟨moveState, _, 0, ⟨by decide, by decide, .inr rfl⟩, by decide, by decide, by decide, by decide, by decide, by decide, by decide, by decide,
        by decide, by decide, by decide +kernel, by decide, by decide, (Option.some_get moveE).symm, by decide +kernel, .inr (by decide +kernel)⟩
  · exact by
      refine ⟨withArea [(1, page 64)] (held 0x0307 [0, 0x10000, 0x10000, 1] up), 0, ⟨by decide, by decide, .inr rfl⟩, ?_,
          ?_, ?_, ?_, ?_, ?_, ?_, ?_⟩ <;>
        decide +kernel
  · exact by
      refine ⟨
          { withArea [(1, { page 64 with motion := true })] (held 0x0307 [0, 0x10000, 0x10000, 1] up) with
          ptu := { Ptu.reset with pages := [(1, { page 64 with motion := true })], xfers := [(1, ⟨.evict, 64, false, ⟨true, 0, 0, 0⟩, [], [], [], none⟩)] } },
          0, 1, { page 64 with motion := true }, ⟨by decide, by decide, .inr rfl⟩, ?_, ?_, ?_, ?_, ?_, ?_, ?_, ?_,
          ?_, rfl, rfl, ?_⟩ <;>
        decide +kernel

/-- What the clauses of TierCommandsTakeEffect assume can be met. -/
theorem witness_TierCommandsTakeEffect :
    (∃ (s : State) (mb : Fin 16), Holds s mb 0x0308 2 ∧ argOf s mb 0 ≤ 3 ∧ argOf s mb 1 < 2 ^ 52) ∧
    (∃ (s s' : State) (mb : Fin 16), Holds s mb 0x0309 1 ∧ ReportAt s s' (argOf s mb 0) (s.poolReport.flatMap (natLe 8))) ∧
    (∃ (s u t : State) (mb : Fin 16) (w : Nat), Holds s mb 0x0310 2 ∧ 0 < argOf s mb 0 ∧ argOf s mb 0 % 2 ^ 21 = 0 ∧ argOf s mb 1 ≤ 3 ∧ argOf s mb 0 ≤ 0xEFF0000000 ∧ s.memOff = false ∧ s.generators = false ∧ w = firstFree (s.ptu.lent.map (·.1)) 0 ∧ lendFrames w (argOf s mb 1) (argOf s mb 0 / 2 ^ 16)
      { s with ptu := { s.ptu with lent := SMap.put s.ptu.lent w ⟨argOf s mb 0, argOf s mb 1, [], [], false, []⟩ } } = some u ∧ t = (((SMap.lookup u.ptu.lent w).map (·.frames)).getD []).foldl (fun s f => markUnwritten f 1 s) u ∧ Calm t) ∧
    (∃ (s : State) (mb : Fin 16) (w : Lent), Holds s mb 0x0311 1 ∧ SMap.lookup s.ptu.lent (argOf s mb 0) = some w ∧
        w.reclaim = false ∧ Calm (returnWindow (argOf s mb 0) (startReclaim (argOf s mb 0) s))) ∧
    (∃ (s s' : State) (mb : Fin 16) (r : List Byte), Holds s mb 0x0312 2 ∧ argOf s mb 0 ≤ 3 ∧ RecordAt s s' (argOf s mb 1) 1024 64 r ∧ (∀ w ∈ windowList r, w.size % 2 ^ 21 = 0 ∧ w.pos ≤ 1023) ∧ ((∀ i, i < 64 → zeroAt r (16 * i + 4) 4 = true)) ∧ distinctWins (windowList r) = true ∧ ((∀ c ∈ s'.copies, c.2.2 = argOf s mb 0 → c.1.host = false →
      ∃ w ∈ windowList r, w.pos = c.1.who ∧ w.window = c.1.window ∧ c.1.off + c.2.1 ≤ w.size))) ∧
    (∃ (s : State) (mb : Fin 16), Holds s mb 0x0313 1 ∧ 100 ≤ argOf s mb 0 ∧ argOf s mb 0 ≤ 10000) ∧
    (∃ (s s' : State) (mb : Fin 16) (r : List Byte), Holds s mb 0x0318 2 ∧ argOf s mb 0 ≤ 1023 ∧
        RecordAt s s' (argOf s mb 1) 1024 64 r ∧ rangeList r ≠ [] ∧
        (∀ x ∈ rangeList r, x.1 % 2 ^ 16 = 0 ∧ x.2 % 2 ^ 16 = 0 ∧ x.1 + x.2 ≤ 2 ^ 62) ∧
        regionSize (rangeList r) ≤ 2 ^ 48 ∧ SMap.lookup s'.ptu.regions (argOf s mb 0) = none) ∧
    (∃ (s : State) (mb : Fin 16) (l : List (Nat × Nat)), Holds s mb 0x0319 1 ∧ argOf s mb 0 ≤ 1023 ∧
        SMap.lookup s.ptu.regions (argOf s mb 0) = some l ∧
        ((∀ c ∈ s.copies, c.1.host = false ∨ c.1.who ≠ argOf s mb 0))) := by
  refine ⟨?_, ?_, ?_, ?_, ?_, ?_, ?_, ?_⟩
  · exact ⟨held 0x0308 [3, 2 ^ 52 - 1] up, 0, ⟨by decide, by decide, .inr rfl⟩, by decide, by decide⟩
  · exact ⟨held 0x0309 [hostPtr 0] up, _, 0, ⟨by decide, by decide, .inr rfl⟩, reportHost _ _ 0 _ (by decide) (by decide) (.inr rfl)⟩
  · exact by
      obtain ⟨u, hu, hf⟩ := lend_some lendC
      exact ⟨lendState, u, _, 0, 0, ⟨by decide, by decide, .inr rfl⟩, by decide, by decide, by decide, by decide, by decide, by decide, by decide,
        hu, rfl, .inr hf⟩
  · exact ⟨{ held 0x0311 [7] up with ptu := { Ptu.reset with lent := [(7, ⟨0x200000, 0, [], [], false, []⟩)] } }, 0, ⟨0x200000, 0, [], [], false, []⟩,
        ⟨by decide, by decide, .inr rfl⟩, by decide, by decide, .inr (by decide +kernel)⟩
  · exact by
      refine ⟨withHost (natLe 4 (1 * 2 ^ 0) ++ natLe 4 0 ++ natLe 8 0x200000) (held 0x0312 [3, hostPtr 0] up), _, 0, _,
          ⟨by decide, by decide, .inr rfl⟩, ?_, recordHost _ _ 0 1024 64 (by decide) (by decide) rfl (.inr rfl), ?_,
          ?_, ?_, ?_⟩ <;>
        decide +kernel
  · exact ⟨held 0x0313 [10000] up, 0, ⟨by decide, by decide, .inr rfl⟩, by decide, by decide⟩
  · exact by
      refine ⟨withHost (natLe 8 0x10000 ++ natLe 8 0x20000) (held 0x0318 [1023, hostPtr 0] up), _, 0, _,
          ⟨by decide, by decide, .inr rfl⟩, ?_, recordHost _ _ 0 1024 64 (by decide) (by decide) rfl (.inr rfl), ?_,
          ?_, ?_, ?_⟩ <;>
        decide +kernel
  · exact ⟨{ held 0x0319 [1023] up with ptu := { Ptu.reset with regions := [(1023, [(0, 0x10000)])] } }, 0, [(0, 0x10000)], ⟨by decide, by decide, .inr rfl⟩, by decide, by decide, by decide⟩

end W07

namespace W08

def poolState : State := withHost poolRec (withArea [] (held 0x0340 [7, hostPtr 0] up))

theorem poolE : (mapPool (LeafPool.of (Mem.readN poolState.host 0 64)).keys poolState).isSome = true := by decide +kernel

def slotState : State := withHost slotRec (withPage [] { held 0x0342 [15, hostPtr 0] up with leafs := { Leafs.reset with pools := [(0, pool0)] } })

def slotMoving : State := { slotState with ptu := { slotState.ptu with pages := [(0, { page 0 with motion := true })] } }

theorem ready_pair {x : Option (Nat × Nat) × State} {c : Option (Nat × Nat)} (h : x.1 = c) : x = (c, x.2) := by rw [← h]

theorem slotReady : vaReady none pool0.part (Slot.of (Mem.readN slotState.host 0 128)).leafTable
    ((Slot.of (Mem.readN slotState.host 0 128)).layers * (Slot.of (Mem.readN slotState.host 0 128)).heads * (Slot.of (Mem.readN slotState.host 0 128)).maxTokens)
    true slotState = (none, (vaReady none pool0.part (Slot.of (Mem.readN slotState.host 0 128)).leafTable
    ((Slot.of (Mem.readN slotState.host 0 128)).layers * (Slot.of (Mem.readN slotState.host 0 128)).heads * (Slot.of (Mem.readN slotState.host 0 128)).maxTokens)
    true slotState).2) := ready_pair (by decide +kernel)

theorem slotWaits : vaReady none pool0.part (Slot.of (Mem.readN slotMoving.host 0 128)).leafTable
    ((Slot.of (Mem.readN slotMoving.host 0 128)).layers * (Slot.of (Mem.readN slotMoving.host 0 128)).heads * (Slot.of (Mem.readN slotMoving.host 0 128)).maxTokens)
    true slotMoving = (some (Stall.motion, 0), (vaReady none pool0.part (Slot.of (Mem.readN slotMoving.host 0 128)).leafTable
    ((Slot.of (Mem.readN slotMoving.host 0 128)).layers * (Slot.of (Mem.readN slotMoving.host 0 128)).heads * (Slot.of (Mem.readN slotMoving.host 0 128)).maxTokens)
    true slotMoving).2) := ready_pair (by decide +kernel)

/-- What the clauses of LeafCommandsTakeEffect assume can be met. -/
theorem witness_LeafCommandsTakeEffect :
    (∃ (s s' u : State) (mb : Fin 16) (r : List Byte) (p : LeafPool), Holds s mb 0x0340 2 ∧ argOf s mb 0 ≤ 7 ∧
        RecordAt s s' (argOf s mb 1) 64 64 r ∧ p = LeafPool.of r ∧ poolOk r = true ∧ p.elemBase % 2 ^ 21 = 0 ∧
        p.scaleBase % 2 ^ 16 = 0 ∧ 64 ≤ p.frames ∧ p.frames ≤ 2 ^ 30 ∧ (∀ x ∈ p.spans, x.1 + x.2 ≤ 2 ^ 52) ∧
        p.selfMeets = false ∧ s'.memOff = false ∧ SMap.lookup s'.leafs.pools (argOf s mb 0) = none ∧
        (∀ x ∈ p.spans, s'.pagesIn p.part x.1 x.2 = [] ∧ s'.rangeFixed p.part x.1 x.2 = false) ∧
        s'.tableRoom p.keys false = true ∧ s'.generators = false ∧ mapPool p.keys s' = some u ∧ Calm u) ∧
    (∃ (s u t : State) (mb : Fin 16) (p : LeafPool), Holds s mb 0x0341 1 ∧
        SMap.lookup s.leafs.pools (argOf s mb 0) = some p ∧ (∀ q ∈ s.leafs.slots, q.2.pool ≠ argOf s mb 0) ∧
        s.generators = false ∧ u = { s with leafs := { s.leafs with pools := SMap.del s.leafs.pools (argOf s mb 0) } } ∧
        t = (p.spans.flatMap fun x => u.pagesIn p.part x.1 x.2).foldl (fun s g => unmapPage g.1 g.2 s) u ∧ Calm t) ∧
    (∃ (s s' u t : State) (mb : Fin 16) (r : List Byte) (x : Slot) (p : LeafPool) (n : Nat), Holds s mb 0x0342 2 ∧ argOf s mb 0 ≤ 15 ∧ n = x.layers * x.heads * x.maxTokens ∧ RecordAt s s' (argOf s mb 1) 128 64 r ∧ x = Slot.of r ∧ slotOk r = true ∧ x.leafTable % 4096 = 0 ∧ x.ropeTable % 64 = 0 ∧ 1 ≤ x.layers ∧ x.layers ≤ 512 ∧ 1 ≤ x.heads ∧ x.heads ≤ 64 ∧ x.maxTokens % 16 = 0 ∧ 1 ≤ x.maxTokens ∧ x.maxTokens ≤ 2 ^ 22 ∧ s'.memOff = false ∧ s'.slot (argOf s mb 0) = none ∧ SMap.lookup s'.leafs.pools x.pool = some p ∧ s'.poolUsed x.pool = false ∧ x.rotDims ≤ p.hd ∧ (Ptr.va p.part x.leafTable).names n true s' = true ∧ ((x.rotDims = 0 ∨ (Ptr.va p.part x.ropeTable).names (4 * x.rotDims) false s' = true)) ∧ s'.generators = false ∧ vaReady none p.part x.leafTable n true s' = (none, u) ∧ t = zeroVa p.part x.leafTable n
      { u with leafs := { u.leafs with slots := SMap.put u.leafs.slots (argOf s mb 0) x } } ∧ Calm t) ∧
    (∃ (s s' u : State) (mb : Fin 16) (r : List Byte) (x : Slot) (p : LeafPool) (n : Nat) (c : Nat × Nat),
        Holds s mb 0x0342 2 ∧ argOf s mb 0 ≤ 15 ∧ n = x.layers * x.heads * x.maxTokens ∧
        RecordAt s s' (argOf s mb 1) 128 64 r ∧ x = Slot.of r ∧ slotOk r = true ∧ x.leafTable % 4096 = 0 ∧
        x.ropeTable % 64 = 0 ∧ 1 ≤ x.layers ∧ x.layers ≤ 512 ∧ 1 ≤ x.heads ∧ x.heads ≤ 64 ∧ x.maxTokens % 16 = 0 ∧
        1 ≤ x.maxTokens ∧ x.maxTokens ≤ 2 ^ 22 ∧ s'.memOff = false ∧ s'.slot (argOf s mb 0) = none ∧
        SMap.lookup s'.leafs.pools x.pool = some p ∧ s'.poolUsed x.pool = false ∧ x.rotDims ≤ p.hd ∧
        (Ptr.va p.part x.leafTable).names n true s' = true ∧
        ((x.rotDims = 0 ∨ (Ptr.va p.part x.ropeTable).names (4 * x.rotDims) false s' = true)) ∧ s'.generators = false ∧
        vaReady none p.part x.leafTable n true s' = (some c, u)) ∧
    (∃ (s t : State) (mb : Fin 16) (x : Slot), Holds s mb 0x0343 1 ∧ argOf s mb 0 ≤ 15 ∧ s.slot (argOf s mb 0) = some x ∧
        s.slotUsed (argOf s mb 0) = false ∧ t = clearSlot (argOf s mb 0) s ∧ Calm t) ∧
    (∃ (s t : State) (mb : Fin 16) (x : Slot), Holds s mb 0x0344 1 ∧ argOf s mb 0 ≤ 15 ∧ s.slot (argOf s mb 0) = some x ∧
        s.slotUsed (argOf s mb 0) = false ∧ t = clearSlot (argOf s mb 0) s ∧ Calm t) ∧
    (∃ (s s' : State) (mb : Fin 16) (r : List Byte) (g : Ring) (x : Slot) (p : LeafPool), Holds s mb 0x0345 2 ∧
        argOf s mb 0 ≤ 15 ∧ RecordAt s s' (argOf s mb 1) 64 64 r ∧ g = Ring.of r ∧ g.lbSize % 2 ^ 16 = 0 ∧
        g.lb0 % 2 ^ 16 = 0 ∧ g.lb1 % 2 ^ 16 = 0 ∧ g.ob % 2 ^ 16 = 0 ∧ zeroAt r 40 24 = true ∧ g.arriveEc ≤ 31 ∧
        g.pos < g.nr ∧ g.nr ≤ 1024 ∧ g.next ≤ 1023 ∧ g.prev ≤ 1023 ∧ s'.slot (argOf s mb 0) = some x ∧
        s'.poolOf x = some p ∧ s'.slotUsed (argOf s mb 0) = false ∧ x.ringPend = none ∧
        ((g.lbSize = 0 ∨ ∀ b, (b = g.lb0 ∨ b = g.lb1 ∨ b = g.ob) → (Ptr.va p.part b).names g.lbSize true s' = true))) := by
  refine ⟨?_, ?_, ?_, ?_, ?_, ?_, ?_⟩
  · exact by
      refine ⟨poolState, _, (mapPool (LeafPool.of (Mem.readN poolState.host 0 64)).keys poolState).get poolE, 0, _, _,
          ⟨by decide, by decide, .inr rfl⟩, ?_, recordHost _ _ 0 64 64 (by decide) (by decide) rfl (.inr rfl), rfl,
          ?_, ?_, ?_, ?_, ?_, ?_, ?_, ?_, ?_, ?_, ?_, ?_, (Option.some_get poolE).symm, .inr (by decide +kernel)⟩ <;>
        decide +kernel
  · exact ⟨{ held 0x0341 [0] up with leafs := { Leafs.reset with pools := [(0, pool0)] } }, _, _, 0, pool0, ⟨by decide, by decide, .inr rfl⟩, rfl, by decide, by decide, rfl, rfl, .inr (by decide +kernel)⟩
  · exact by
      refine ⟨slotState, _, _, _, 0, _, _, pool0, _, ⟨by decide, by decide, .inr rfl⟩, ?_, rfl,
          recordHost _ _ 0 128 64 (by decide) (by decide) rfl (.inr rfl), rfl, ?_, ?_, ?_, ?_, ?_, ?_, ?_, ?_, ?_,
          ?_, ?_, ?_, ?_, ?_, ?_, ?_, ?_, ?_, slotReady, rfl, .inr (by decide +kernel)⟩ <;>
        decide +kernel
  · exact by
      refine ⟨slotMoving, _, _, 0, _, _, pool0, _, (Stall.motion, 0), ⟨by decide, by decide, .inr rfl⟩, ?_, rfl,
          recordHost _ _ 0 128 64 (by decide) (by decide) rfl (.inr rfl), rfl, ?_, ?_, ?_, ?_, ?_, ?_, ?_, ?_, ?_,
          ?_, ?_, ?_, ?_, ?_, ?_, ?_, ?_, ?_, slotWaits⟩ <;>
        decide +kernel
  · exact ⟨withSlot (held 0x0343 [0] up), _, 0, slot0, ⟨by decide, by decide, .inr rfl⟩, by decide, rfl, by decide +kernel, rfl, .inr (by decide +kernel)⟩
  · exact ⟨withSlot (held 0x0344 [0] up), _, 0, slot0, ⟨by decide, by decide, .inr rfl⟩, by decide, rfl, by decide +kernel, rfl, .inr (by decide +kernel)⟩
  · exact by
      refine ⟨withHost [0, 0, 1] (withSlot (held 0x0345 [0, hostPtr 0] up)), _, 0, _, _, slot0, pool0,
          ⟨by decide, by decide, .inr rfl⟩, ?_, recordHost _ _ 0 64 64 (by decide) (by decide) rfl (.inr rfl), rfl,
          ?_, ?_, ?_, ?_, ?_, ?_, ?_, ?_, ?_, ?_, rfl, ?_, ?_, ?_, .inl (by decide +kernel)⟩ <;>
        decide +kernel

/-- What the clauses of LeafReportsAndPinsTakeEffect assume can be met. -/
theorem witness_LeafReportsAndPinsTakeEffect :
    (∃ (s s' : State) (mb : Fin 16) (x : Slot), Holds s mb 0x0346 2 ∧ argOf s mb 0 ≤ 15 ∧
        s.slot (argOf s mb 0) = some x ∧ ReportAt s s' (argOf s mb 1) x.report) ∧
    (∃ (s : State) (mb : Fin 16) (x : Slot), Holds s mb 0x0347 6 ∧ argOf s mb 0 ≤ 15 ∧ s.slot (argOf s mb 0) = some x ∧
        argOf s mb 1 < x.layers ∧ argOf s mb 2 < x.heads ∧ argOf s mb 3 + argOf s mb 4 ≤ x.perTrack ∧ argOf s mb 5 ≤ 1 ∧
        s.slotUsed (argOf s mb 0) = false ∧ (∀ e ∈ s.leafs.evicting, e.1 ≠ argOf s mb 0)) ∧
    (∃ (s : State) (mb : Fin 16) (x : Slot) (i : Nat), Holds s mb 0x0347 6 ∧ argOf s mb 0 ≤ 15 ∧
        s.slot (argOf s mb 0) = some x ∧ argOf s mb 1 < x.layers ∧ argOf s mb 2 < x.heads ∧ argOf s mb 3 < x.perTrack ∧
        argOf s mb 4 = 1 ∧ argOf s mb 5 = 1 ∧ s.slotUsed (argOf s mb 0) = false ∧
        i = x.leafIdx (argOf s mb 1) (argOf s mb 2) (argOf s mb 3) ∧ (x.leaf i).state ≠ 0 ∧ (x.leaf i).pin = false) ∧
    (∃ (s : State) (mb : Fin 16), Holds s mb 0x0348 1 ∧ 100 ≤ argOf s mb 0 ∧ argOf s mb 0 ≤ 1000000) ∧
    (∃ (s : State) (mb : Fin 16) (x : Slot), Holds s mb 0x034B 4 ∧ argOf s mb 0 ≤ 15 ∧ s.slot (argOf s mb 0) = some x ∧
        argOf s mb 1 < x.layers ∧ argOf s mb 2 < x.heads ∧ argOf s mb 3 < x.perTrack) := by
  refine ⟨?_, ?_, ?_, ?_, ?_⟩
  · exact ⟨withSlot (held 0x0346 [0, hostPtr 0] up), _, 0, slot0, ⟨by decide, by decide, .inr rfl⟩, by decide, rfl, reportHost _ _ 0 _ (by decide) (by decide) (.inr rfl)⟩
  · exact by
      refine ⟨withSlot (held 0x0347 [0, 0, 0, 0, 1, 1] up), 0, slot0, ⟨by decide, by decide, .inr rfl⟩, ?_, rfl, ?_, ?_,
          ?_, ?_, ?_, ?_⟩ <;>
        decide +kernel
  · exact by
      refine ⟨
          { withSlot (held 0x0347 [0, 0, 0, 0, 1, 1] up) with leafs := { Leafs.reset with pools := [(0, pool0)], slots := [(0, { slot0 with leaves := [(0, { Leaf.free with state := 1 })] })] } },
          0, { slot0 with leaves := [(0, { Leaf.free with state := 1 })] }, 0, ⟨by decide, by decide, .inr rfl⟩, ?_,
          rfl, ?_, ?_, ?_, ?_, ?_, ?_, ?_, ?_, ?_⟩ <;>
        decide +kernel
  · exact ⟨held 0x0348 [1000000] up, 0, ⟨by decide, by decide, .inr rfl⟩, by decide, by decide⟩
  · exact ⟨withSlot (held 0x034B [0, 0, 0, 0] up), 0, slot0, ⟨by decide, by decide, .inr rfl⟩, by decide, rfl, by decide +kernel, by decide +kernel, by decide +kernel⟩

/-- What the clauses of LinkCommandsTakeEffect assume can be met. -/
theorem witness_LinkCommandsTakeEffect :
    (∃ (s s' : State) (mb : Fin 16), Holds s mb 0x0401 1 ∧
        ReportAt s s' (argOf s mb 0) ((List.range 32).flatMap s.linkRecord)) ∧
    (∃ (s s' : State) (mb : Fin 16) (r : List Byte), Holds s mb 0x0402 1 ∧ RecordAt s s' (argOf s mb 0) 576 64 r ∧
        tableOk r = true ∧ (PosTable.of r).inRange = true ∧ s'.links.tablePend = none ∧
        ((∀ o, s'.links.table = some o → o.gen < (PosTable.of r).gen))) ∧
    (∃ (s s' : State) (mb : Fin 16), Holds s mb 0x0403 1 ∧
        ReportAt s s' (argOf s mb 0) ((s.links.table.map PosTable.bytes).getD (List.replicate 576 0))) ∧
    (∃ (s : State) (mb : Fin 16), Holds s mb 0x0404 2 ∧ argOf s mb 0 < 2 ^ 32 ∧ argOf s mb 1 ≤ 1 ∧
        ((s.spine.running = true → ∀ l, l < 32 → (argOf s mb 0).testBit l = true → s.inSet l = false))) ∧
    (∃ (s : State) (mb : Fin 16), Holds s mb 0x0405 1 ∧ argOf s mb 0 ≤ 31 ∧ s.spine.running = false ∧
        ((s.link (argOf s mb 0)).st ≠ 0 ∧ (s.link (argOf s mb 0)).st ≠ 5 ∧ (s.link (argOf s mb 0)).st ≠ 7) ∧
        Calm (leaveActive (argOf s mb 0) false s)) ∧
    (∃ (s : State) (mb : Fin 16), Holds s mb 0x0406 3 ∧ argOf s mb 0 < 2 ^ 32 ∧ argOf s mb 1 ≤ 1 ∧ 1 ≤ argOf s mb 2 ∧
        argOf s mb 2 ≤ 60000 ∧ s.spine.running = false ∧
        ((∀ l, l < 32 → (argOf s mb 0).testBit l = true → (s.link l).st ≠ 2 ∧ (s.link l).st ≠ 3))) ∧
    (∃ (s s' : State) (mb : Fin 16), Holds s mb 0x0407 2 ∧ argOf s mb 0 ≤ 31 ∧ ReportAt s s' (argOf s mb 1) ((List.range 8).flatMap fun i =>
      natLe 8 ((s.link (argOf s mb 0)).testBits.getD i 0) ++ natLe 8 ((s.link (argOf s mb 0)).testErrs.getD i 0))) ∧
    (∃ (s : State) (mb : Fin 16), Holds s mb 0x0408 1 ∧ 10 ≤ argOf s mb 0 ∧ argOf s mb 0 ≤ 1000) ∧
    (∃ (s s' : State) (mb : Fin 16), Holds s mb 0x040B 1 ∧
        ReportAt s s' (argOf s mb 0) (padTo 2048 (s.links.events.flatMap LinkEvent.bytes))) := by
  refine ⟨?_, ?_, ?_, ?_, ?_, ?_, ?_, ?_, ?_⟩
  · exact ⟨held 0x0401 [hostPtr 0] up, _, 0, ⟨by decide, by decide, .inr rfl⟩, reportHost _ _ 0 _ (by decide) (by decide) (.inr rfl)⟩
  · exact ⟨withHost [1, 0, 0, 0, 0, 0, 1] (held 0x0402 [hostPtr 0] up), _, 0, _, ⟨by decide, by decide, .inr rfl⟩, recordHost _ _ 0 576 64 (by decide) (by decide) rfl (.inr rfl),
        by decide +kernel, by decide +kernel, rfl, fun o h => by cases h⟩
  · exact ⟨held 0x0403 [hostPtr 0] up, _, 0, ⟨by decide, by decide, .inr rfl⟩, reportHost _ _ 0 _ (by decide) (by decide) (.inr rfl)⟩
  · exact ⟨held 0x0404 [2 ^ 32 - 1, 1] up, 0, ⟨by decide, by decide, .inr rfl⟩, by decide, by decide, fun h => by cases h⟩
  · exact ⟨{ held 0x0405 [31] up with links := { Links.reset with links := [(31, Link.reset.fresh 3)] } }, 0, ⟨by decide, by decide, .inr rfl⟩, by decide, by decide, by decide, .inr (by decide +kernel)⟩
  · exact by
      refine ⟨held 0x0406 [2 ^ 32 - 1, 1, 60000] up, 0, ⟨by decide, by decide, .inr rfl⟩, ?_, ?_, ?_, ?_, ?_, ?_⟩ <;>
        decide +kernel
  · exact ⟨held 0x0407 [31, hostPtr 0] up, _, 0, ⟨by decide, by decide, .inr rfl⟩, by decide, reportHost _ _ 0 _ (by decide) (by decide) (.inr rfl)⟩
  · exact ⟨held 0x0408 [1000] up, 0, ⟨by decide, by decide, .inr rfl⟩, by decide, by decide⟩
  · exact ⟨held 0x040B [hostPtr 0] up, _, 0, ⟨by decide, by decide, .inr rfl⟩, reportHost _ _ 0 _ (by decide) (by decide) (.inr rfl)⟩

end W08

namespace W09

def linked : Links := { Links.reset with table := some (PosTable.of (padTo 576 [1,0,0,0,0,0,1])) }

def startState : State :=
  memOn { held 0x0506 [0, 0] up with links := linked, spine := { Spine.reset with stag := true, sched := some ⟨1, 0, [], []⟩ } }

def advState : State := withHost (schedRec ++ natLe 4 1) (held 0x0508 [1, hostPtr 0, hostPtr 128] up)

theorem advRec (a n al : Nat) (h : a < 2 ^ 62 ∧ a % al = 0) : RecordAt advState advState (hostPtr a) n al (Mem.readN advState.host a n) :=
  recordHost _ _ a n al rfl h rfl (.inr rfl)

theorem advSched (f : List Byte → State → Reply) : withSched (argOf advState 0 1) advState f = f (Mem.readN advState.host 0 64) advState := by
  have e : argOf advState 0 1 = hostPtr 0 := by decide
  unfold withSched
  rw [e, withRecord_ok (advRec 0 64 64 (by decide)), if_pos (by decide +kernel), show schedLen (Mem.readN advState.host 0 64) = 64 from by decide +kernel,
    withRecord_ok (advRec 0 64 64 (by decide))]

theorem advList (f : SMap Group → State → Reply) : withGroupList (argOf advState 0 2) (argOf advState 0 0) advState f = f [] advState := by
  have e : argOf advState 0 2 = hostPtr 128 := by decide
  unfold withGroupList
  rw [e, withRecord_ok (advRec 128 64 64 (by decide))]
  simp only [show fieldAt (Mem.readN advState.host 128 64) 0 4 = 0 from by decide +kernel, show zeroAt (Mem.readN advState.host 128 64) 4 60 = true from by decide +kernel]
  rw [if_neg (by decide), show 64 + 16 * 0 = 64 from rfl, withRecord_ok (advRec 128 64 64 (by decide))]
  rfl

/-- What the clauses of HerdCommandsTakeEffect assume can be met. -/
theorem witness_HerdCommandsTakeEffect :
    (∃ (s : State) (mb : Fin 16), Holds s mb 0x0501 4 ∧ ((∀ i, i < 3 → argOf s mb i ≤ 1023 ∨ argOf s mb i = 0xFFFF)) ∧
        1024 ≤ argOf s mb 3 ∧ argOf s mb 3 ≤ 65536) ∧
    (∃ (s : State) (mb : Fin 16), Holds s mb 0x0502 0) ∧
    (∃ (s : State) (mb : Fin 16) (ptm : BitVec 64), Holds s mb 0x050C 0) ∧
    (∃ (s s1 s2 : State) (mb : Fin 16) (h r : List Byte), Holds s mb 0x0503 2 ∧ argOf s mb 0 ≤ 4095 ∧
        RecordAt s s1 (argOf s mb 1) 16 64 h ∧ groupHeadOk h = true ∧
        RecordAt s1 s2 (argOf s mb 1) (16 + 2 * fieldAt h 0 2) 64 r ∧ s2.groupOk (Group.of r) = true ∧
        ((∀ o, s2.group (argOf s mb 0) = some o → o.epoch ≠ s2.cle.epoch))) ∧
    (∃ (s : State) (mb : Fin 16) (o : Group), Holds s mb 0x0504 1 ∧ argOf s mb 0 ≤ 4095 ∧
        s.group (argOf s mb 0) = some o ∧ s.groupNamed (argOf s mb 0) = false) ∧
    (∃ (s s' : State) (mb : Fin 16), Holds s mb 0x0509 1 ∧ ReportAt s s' (argOf s mb 0) (latenessBytes s.spine)) ∧
    (∃ (s s' : State) (mb : Fin 16), Holds s mb 0x050E 1 ∧ ReportAt s s' (argOf s mb 0) (abortBytes s.cle.abort)) ∧
    (∃ (s s' : State) (mb : Fin 16), Holds s mb 0x050F 1 ∧ ReportAt s s' (argOf s mb 0) (placementBytes s)) := by
  refine ⟨?_, ?_, ?_, ?_, ?_, ?_, ?_, ?_⟩
  · exact ⟨held 0x0501 [1023, 0xFFFF, 0xFFFF, 65536] up, 0, ⟨by decide, by decide, .inr rfl⟩, by decide +kernel, by decide, by decide⟩
  · exact ⟨held 0x0502 [] up, 0, ⟨by decide, by decide, .inr rfl⟩⟩
  · exact ⟨held 0x050C [] up, 0, 7, ⟨by decide, by decide, .inr rfl⟩⟩
  · exact ⟨withHost [1] { held 0x0503 [4095, hostPtr 0] up with links := linked }, _, _, 0, _, _, ⟨by decide, by decide, .inr rfl⟩, by decide,
        recordHost _ _ 0 16 64 (by decide) (by decide) rfl (.inr rfl), by decide +kernel, recordHost _ _ 0 _ 64 (by decide) (by decide) rfl (.inr rfl),
        by decide +kernel, fun o h => by cases h⟩
  · exact ⟨{ held 0x0504 [4095] up with cle := { Cle.reset with groups := [(4095, ⟨0, 0, [0]⟩)] } }, 0, ⟨0, 0, [0]⟩, ⟨by decide, by decide, .inr rfl⟩, by decide, rfl, by decide⟩
  · exact ⟨held 0x0509 [hostPtr 0] up, _, 0, ⟨by decide, by decide, .inr rfl⟩, reportHost _ _ 0 _ (by decide) (by decide) (.inr rfl)⟩
  · exact ⟨held 0x050E [hostPtr 0] up, _, 0, ⟨by decide, by decide, .inr rfl⟩, reportHost _ _ 0 _ (by decide) (by decide) (.inr rfl)⟩
  · exact ⟨held 0x050F [hostPtr 0] up, _, 0, ⟨by decide, by decide, .inr rfl⟩, reportHost _ _ 0 _ (by decide) (by decide) (.inr rfl)⟩

/-- What the clauses of ScheduleCommandsTakeEffect assume can be met. -/
theorem witness_ScheduleCommandsTakeEffect :
    (∃ (s s1 s2 : State) (mb : Fin 16) (h r : List Byte), Holds s mb 0x0505 1 ∧ RecordAt s s1 (argOf s mb 0) 64 64 h ∧
        schedHeadOk h = true ∧ RecordAt s1 s2 (argOf s mb 0) (schedLen h) 64 r ∧ s2.schedErr r = none ∧
        ((s2.spine.running = true → (Sched.of r).epoch = s2.cle.epoch)) ∧
        (∀ e ∈ (Sched.of r).entries, s2.tooLarge e = false) ∧ s2.spine.schedPend = none) ∧
    (∃ (s : State) (mb : Fin 16) (f : Nat), Holds s mb 0x0506 2 ∧ s.spine.running = false ∧
        ((s.spine.sched ≠ none ∨ s.cle.pend ≠ none)) ∧ s.spine.stag = true ∧ s.memOff = false ∧ 0 ∉ s.sys.refBad ∧
        s.aggregate.count = s.herdSize ∧ argOf s mb 1 < 2 ^ 48 ∧
        f = max (s.spine.tick + s.spine.spineRound) (argOf s mb 1) % 2 ^ 48 ∧ Calm (orderStart (argOf s mb 0) f s)) ∧
    (∃ (s : State) (mb : Fin 16), Holds s mb 0x0507 0 ∧ s.spine.running = true ∧ s.spine.stag = true ∧ s.rse.window ≠ 1 ∧
        s.rse.window ≠ 2) ∧
    (∃ (s t : State) (mb : Fin 16), Holds s mb 0x0507 0 ∧ s.spine.running = true ∧ s.spine.stag = true ∧
        ((s.rse.window = 1 ∨ s.rse.window = 2)) ∧
        t = orderStop (s.rse.winFault.getD ⟨s.myPos, 0, 0, s.spine.tick, 0xFFFF⟩) none s ∧ Calm t) ∧
    (∃ (s : State) (mb : Fin 16), Holds s mb 0x0508 3 ∧ argOf s mb 0 = 0) ∧
    (∃ (s s1 s2 t : State) (mb : Fin 16) (r : List Byte) (gs : SMap Group), Holds s mb 0x0508 3 ∧
        s.cle.epoch < argOf s mb 0 ∧ argOf s mb 0 < 2 ^ 32 ∧ s.cle.pend = none ∧
        (∀ f, withSched (argOf s mb 1) s f = f r s1) ∧
        (∀ f, withGroupList (argOf s mb 2) (argOf s mb 0) s1 f = f gs s2) ∧
        t = { s2 with cle := { s2.cle with groups := gs } } ∧ t.schedErr r = none ∧ (Sched.of r).epoch = argOf s mb 0 ∧
        (∀ e ∈ (Sched.of r).entries, t.tooLarge e = false) ∧ Calm s2) := by
  refine ⟨?_, ?_, ?_, ?_, ?_, ?_⟩
  · exact ⟨withHost schedRec (held 0x0505 [hostPtr 0] up), _, _, 0, _, _, ⟨by decide, by decide, .inr rfl⟩,
        recordHost _ _ 0 64 64 (by decide) (by decide) rfl (.inr rfl), by decide +kernel, recordHost _ _ 0 _ 64 (by decide) (by decide) rfl (.inr rfl),
        by decide +kernel, (fun h => by cases h), by decide +kernel, rfl⟩
  · exact by
      refine ⟨startState, 0, _, ⟨by decide, by decide, .inr rfl⟩, ?_, .inl (by decide), ?_, ?_, ?_, ?_, ?_, rfl,
          .inr (by decide +kernel)⟩ <;>
        decide +kernel
  · exact ⟨{ held 0x0507 [] up with spine := { Spine.reset with stag := true, running := true } }, 0, ⟨by decide, by decide, .inr rfl⟩, by decide, by decide, by decide, by decide⟩
  · exact ⟨{ held 0x0507 [] up with spine := { Spine.reset with stag := true, running := true }, rse := { Rse.reset with window := 1 } }, _, 0, ⟨by decide, by decide, .inr rfl⟩, by decide, by decide, .inl rfl, rfl, .inr (by decide +kernel)⟩
  · exact ⟨held 0x0508 [0] up, 0, ⟨by decide, by decide, .inr rfl⟩, by decide⟩
  · exact by
      refine ⟨advState, advState, advState, _, 0, _, [], ⟨by decide, by decide, .inr rfl⟩, ?_, ?_, ?_, advSched, advList,
          rfl, ?_, ?_, ?_, .inr rfl⟩ <;>
        decide +kernel

end W09

namespace W10

def setupRec : List Byte :=
  natLe 2 0 ++ natLe 2 2 ++ natLe 4 128 ++ natLe 2 0 ++ natLe 2 1 ++ natLe 4 1 ++ natLe 8 0 ++ natLe 8 0 ++ natLe 8 1 ++ natLe 40 0 ++ natLe 8 (2 ^ 31)

def dictRec : List Byte :=
  natLe 4 0x54444749 ++ natLe 4 1 ++ natLe 4 256 ++ natLe 4 256 ++ natLe 48 0
    ++ ((List.range 256).flatMap fun i => natLe 4 i ++ natLe 4 1) ++ (List.range 256).map (BitVec.ofNat 8)

def ige0 : Ige := { Ige.reset with setup := some (IgeSetup.of (padTo 128 setupRec)), dict := [[0]] }

def dictBase : State := { held 0x0602 [hostPtr 0] up with ige := ige0 }

def dictState : State := withHost dictRec dictBase

theorem dictRecLen : dictRec.length = 2368 := by decide +kernel

theorem dictA : dictHeadOk (dictRec.take 64) = true := by decide +kernel

/-- The e-th of a run of 8-byte entries. -/
theorem drop_entries {f : Nat → List Byte} (hf : ∀ i, (f i).length = 8) (post : List Byte) :
    ∀ (l : List Nat) (e : Nat) (he : e < l.length), ∃ rest, (l.flatMap f ++ post).drop (8 * e) = f l[e] ++ rest
  | x :: l, 0, _ => ⟨l.flatMap f ++ post, by simp⟩
  | x :: l, e + 1, he => by
    obtain ⟨rest, h⟩ := drop_entries hf post l e (by simpa using he)
    refine ⟨rest, ?_⟩
    have : 8 * (e + 1) = (f x).length + 8 * e := by rw [hf]; omega
    rw [List.flatMap_cons, List.append_assoc, this, ← List.drop_drop, List.drop_left, h]
    simp

theorem dictEntry (e : Nat) (he : e < 256) : ∃ rest, dictRec.drop (64 + 8 * e) = (natLe 4 e ++ natLe 4 1) ++ rest := by
  obtain ⟨rest, h⟩ := drop_entries (f := fun i => natLe 4 i ++ natLe 4 1) (fun i => rfl) ((List.range 256).map (BitVec.ofNat 8)) (List.range 256) e (by simpa using he)
  refine ⟨rest, ?_⟩
  rw [List.getElem_range] at h
  rw [← List.drop_drop, ← h]
  rfl

theorem dictFields (e : Nat) (he : e < 256) :
    fieldAt dictRec (64 + 8 * e) 4 = e ∧ fieldAt dictRec (68 + 8 * e) 1 = 1 ∧ zeroAt dictRec (69 + 8 * e) 3 = true := by
  obtain ⟨rest, h⟩ := dictEntry e he
  have h4 : dictRec.drop (68 + 8 * e) = natLe 4 1 ++ rest := by
    rw [show 68 + 8 * e = (64 + 8 * e) + 4 by omega, ← List.drop_drop, h]; rfl
  have h5 : dictRec.drop (69 + 8 * e) = natLe 3 0 ++ rest := by
    rw [show 69 + 8 * e = (64 + 8 * e) + 5 by omega, ← List.drop_drop, h]; rfl
  refine ⟨?_, ?_, ?_⟩
  · rw [fieldAt, h]
    have : ∀ e, e < 256 → leNat (natLe 4 e) = e := by decide +kernel
    exact this e he
  · rw [fieldAt, h4]; rfl
  · rw [zeroAt, h5]; rfl

theorem dictCount : fieldAt dictRec 8 4 = 256 ∧ fieldAt dictRec 12 4 = 256 := ⟨rfl, rfl⟩

theorem dictB : ∀ e, e < fieldAt dictRec 8 4 → dictEntryOk dictRec e = true := by
  intro e he
  rw [dictCount.1] at he
  obtain ⟨h1, h2, h3⟩ := dictFields e he
  simp only [dictEntryOk, show 64 + 8 * e + 4 = 68 + 8 * e by omega, show 64 + 8 * e + 5 = 69 + 8 * e by omega, h1, h2, h3, dictCount.2, Bool.and_true, decide_eq_true_eq]
  omega

theorem dictArea : dictRec.drop (64 + 8 * 256) = (List.range 256).map (BitVec.ofNat 8) := by decide +kernel

theorem dictE : dictStrings dictRec = (List.range 256).map fun i => [BitVec.ofNat 8 i] := by
  simp only [dictStrings, dictCount.1]
  refine List.map_congr_left fun e he => ?_
  have he := List.mem_range.1 he
  rw [(dictFields e he).1, (dictFields e he).2.1, dictArea,
    List.drop_eq_getElem_cons (by simpa using he)]
  simp

theorem dictC : (dictStrings dictRec).Nodup := by
  rw [dictE]
  refine List.pairwise_map.2 (List.nodup_range.imp_of_mem fun {a b} ha hb hne h => hne ?_)
  have ha := List.mem_range.1 ha
  have hb := List.mem_range.1 hb
  have h := congrArg BitVec.toNat (List.head_eq_of_cons_eq h)
  simp only [BitVec.toNat_ofNat] at h
  omega

theorem dictD : ∀ b : Nat, b < 256 → [BitVec.ofNat 8 b] ∈ dictStrings dictRec := by
  rw [dictE]
  exact fun b h => List.mem_map.2 ⟨b, List.mem_range.2 h, rfl⟩

theorem dictAll (n : Nat) (h : n = 2368) : dictRec.take n = dictRec := by rw [h, ← dictRecLen, List.take_length]

/-- What the clauses of IngestCommandsTakeEffect assume can be met. -/
theorem witness_IngestCommandsTakeEffect :
    (∃ (s s' t : State) (mb : Fin 16) (r : List Byte) (u : IgeSetup), Holds s mb 0x0601 1 ∧ RecordAt s s' (argOf s mb 0) 128 64 r ∧ u = IgeSetup.of r ∧ setupZeros r = true ∧ u.aligned = true ∧ u.inRange = true ∧ 4 * s'.ige.limits.cap + 2 ^ 26 ≤ u.workspaceSize ∧ s'.ige.running = false ∧ t = dropIndex { s' with ige := { s'.ige with
      setup := some u, touched := false, cache := s'.ige.cache.filter fun c => decide (16 * u.n + 2 ^ 21 ≤ c.2) } }) ∧
    (∃ (s s1 s2 t : State) (mb : Fin 16) (h r : List Byte), Holds s mb 0x0602 1 ∧ RecordAt s s1 (argOf s mb 0) 64 64 h ∧
        dictHeadOk h = true ∧ RecordAt s1 s2 (argOf s mb 0) (dictImageLen h) 64 r ∧
        ((∀ e, e < fieldAt r 8 4 → dictEntryOk r e = true)) ∧ (dictStrings r).Nodup ∧
        ((∀ b : Nat, b < 256 → [BitVec.ofNat 8 b] ∈ dictStrings r)) ∧ s2.ige.setup ≠ none ∧ s2.ige.running = false ∧
        t = dropIndex { s2 with ige := { s2.ige with dict := dictStrings r, dictGen := s2.ige.dictGen + 1 } }) ∧
    (∃ (s s' t : State) (mb : Fin 16) (r : List Byte) (l : IgeLimits), Holds s mb 0x0603 1 ∧ RecordAt s s' (argOf s mb 0) 32 64 r ∧ l = IgeLimits.of r ∧ zeroAt r 17 15 = true ∧ l.inRange = true ∧ ((∀ u, s'.ige.setup = some u → 4 * l.cap + 2 ^ 26 ≤ u.workspaceSize)) ∧ s'.ige.limitsPend = none ∧ t = (if s'.spine.running then { s' with ige := { s'.ige with limitsPend := some (l, s'.nextApply) } }
      else dropIndex { s' with ige := withLimits l s'.ige })) ∧
    (∃ (s t : State) (mb : Fin 16) (u : IgeSetup) (x : IgeState), Holds s mb 0x0604 4 ∧ s.ige.setup = some u ∧ ((argOf s mb 1 = 0 ∧ x = s.ige.retained
      ∨ argOf s mb 1 = 1 ∧ argOf s mb 3 < u.n ∧ x = ⟨argOf s mb 2, argOf s mb 3, none, 0, 0, s.ige.limitsGen⟩)) ∧ s.memOff = false ∧ s.ige.running = false ∧ s.ige.dict ≠ [] ∧ t = wakeIdle { s with ige := { s.ige with
      running := true, startStep := argOf s mb 0, cur := x, retained := x, marks := [], open_ := false, fill := 0
      tail := [], sample := none, full := [], skips := 0, wait := none, waitsRelease := false, lastErr := 0 } }) ∧
    (∃ (s : State) (mb : Fin 16), Holds s mb 0x0605 0 ∧ s.ige.running = true) ∧
    (∃ (s s' : State) (mb : Fin 16), Holds s mb 0x0606 1 ∧ ReportAt s s' (argOf s mb 0) (igeStatusBytes s)) ∧
    (∃ (s s' : State) (mb : Fin 16), Holds s mb 0x0607 1 ∧
        ReportAt s s' (argOf s mb 0) (padTo 2048 (s.ige.skipLog.flatMap SkipRec.bytes))) ∧
    (∃ (s : State) (mb : Fin 16), Holds s mb 0x060A 2 ∧ argOf s mb 1 = 0 ∧ s.ige.running = false) ∧
    (∃ (s t : State) (mb : Fin 16) (u : IgeSetup), Holds s mb 0x060A 2 ∧ s.ige.setup = some u ∧ argOf s mb 0 % 2 ^ 21 = 0 ∧ argOf s mb 1 % 2 ^ 21 = 0 ∧ argOf s mb 0 + argOf s mb 1 ≤ 2 ^ 52 ∧ 16 * u.n + 2 ^ 21 ≤ argOf s mb 1 ∧ s.ige.running = false ∧ s.memOff = false ∧ s.generators = false ∧ t = clearVa u.part (argOf s mb 0) (argOf s mb 1)
      { s with ige := { s.ige with cache := some (argOf s mb 0, argOf s mb 1), arena := 0 } }) ∧
    (∃ (s : State) (mb : Fin 16), Holds s mb 0x060B 4 ∧ argOf s mb 0 < argOf s mb 1 ∧ argOf s mb 1 ≤ 2 ^ 40) := by
  refine ⟨?_, ?_, ?_, ?_, ?_, ?_, ?_, ?_, ?_, ?_⟩
  · exact by
      refine ⟨withHost setupRec (held 0x0601 [hostPtr 0] up), _, _, 0, _, _, ⟨by decide, by decide, .inr rfl⟩,
          recordHost _ _ 0 128 64 (by decide) (by decide) rfl (.inr rfl), rfl, ?_, ?_, ?_, ?_, ?_, rfl⟩ <;>
        decide +kernel
  · exact by
      refine ⟨dictState, dictState, dictState, _, 0, dictRec.take 64, dictRec, ⟨by decide, by decide, .inr rfl⟩,
        recordLong dictRec dictBase _ 64 64 (by decide) (by rw [dictRecLen]; decide) rfl (.inr rfl), dictA, ?_, dictB, dictC, dictD, (fun h => by cases h), rfl, rfl⟩
      have l : dictImageLen (dictRec.take 64) = 2368 := rfl
      rw [l, ← dictAll 2368 rfl]
      exact recordLong dictRec dictBase _ 2368 64 (by decide) (Nat.le_of_eq dictRecLen.symm) rfl (.inr rfl)
  · exact ⟨withHost (natLe 4 (2 ^ 20) ++ natLe 2 1 ++ natLe 2 1 ++ natLe 8 4096 ++ [10]) (held 0x0603 [hostPtr 0] up), _, _, 0, _, _, ⟨by decide, by decide, .inr rfl⟩,
        recordHost _ _ 0 32 64 (by decide) (by decide) rfl (.inr rfl), rfl, by decide +kernel, by decide +kernel, (fun u h => by cases h), by decide, rfl⟩
  · exact ⟨memOn { held 0x0604 [0, 0, 0, 0] up with ige := ige0 }, _, 0, _, _, ⟨by decide, by decide, .inr rfl⟩, rfl, .inl ⟨by decide, rfl⟩, by decide, by decide, by decide, rfl⟩
  · exact ⟨{ held 0x0605 [] up with ige := { ige0 with running := true } }, 0, ⟨by decide, by decide, .inr rfl⟩, rfl⟩
  · exact ⟨held 0x0606 [hostPtr 0] up, _, 0, ⟨by decide, by decide, .inr rfl⟩, reportHost _ _ 0 _ (by decide) (by decide) (.inr rfl)⟩
  · exact ⟨held 0x0607 [hostPtr 0] up, _, 0, ⟨by decide, by decide, .inr rfl⟩, reportHost _ _ 0 _ (by decide) (by decide) (.inr rfl)⟩
  · exact ⟨held 0x060A [0, 0] up, 0, ⟨by decide, by decide, .inr rfl⟩, by decide, rfl⟩
  · exact by
      refine ⟨memOn { held 0x060A [0, 2 ^ 22] up with ige := ige0 }, _, 0, _, ⟨by decide, by decide, .inr rfl⟩, rfl, ?_,
          ?_, ?_, ?_, ?_, ?_, ?_, rfl⟩ <;>
        decide +kernel
  · exact ⟨held 0x060B [0, 1, 0, 0] up, 0, ⟨by decide, by decide, .inr rfl⟩, by decide, by decide⟩

end W10

namespace W11

def scrubSt (d : Nat) : Option Scrub := some ⟨0, 0x10000, 0, 1, d, 0, 0, 0, 0, 0, 2 ^ 64 - 1, 0, 0, 1⟩

def scrubbing (a : List Nat) (c : Nat) : State := { held c a up with rse := { Rse.reset with scrub := scrubSt (hostPtr 0) } }

theorem retireE : retireOne 0 (held 0x0708 [0] up) = .gone (held 0x0708 [0] up) := by
  have h : (held 0x0708 [0] up).frameFree 0 1 = true := by decide +kernel
  simp only [retireOne, h, Bool.or_true, Bool.true_or, if_true]

def pinnedOne : State := { held 0x0708 [0] up with ptu := { Ptu.reset with pages := [(1, { page 0 with pin := true })] } }

theorem pendE : retireOne 0 pinnedOne = .pends := by
  have h1 : (decide (poolLimit ≤ 0) || pinnedOne.frameFree 0 1 || pinnedOne.isRetired 0) = false := by decide +kernel
  have h2 : pinnedOne.pageOnFrame 0 = some (1, { page 0 with pin := true }) := by decide +kernel
  have h3 : (!pinnedOne.canMove 1 { page 0 with pin := true }) = true := by decide +kernel
  unfold retireOne
  rw [h1, h2]
  simp only [h3]
  rfl

def fawnState : State := { withPage [0, 1] (held 0x0712 [3, 0, 1] up) with links := { Links.reset with table := some { PosTable.of (padTo 576 []) with fawnFor := [3] } } }

def dump0 : Dump := ⟨[], [], 0⟩

/-- What the clauses of ErrorAndRetirementCommandsTakeEffect assume can be met. -/
theorem witness_ErrorAndRetirementCommandsTakeEffect :
    (∃ (s s' : State) (mb : Fin 16) (rs : List LogRec), Holds s mb 0x0701 3 ∧ 1 ≤ argOf s mb 1 ∧ argOf s mb 1 ≤ 4096 ∧
        rs = (s.rse.log.filter fun r => decide (argOf s mb 0 ≤ r.seq)).take (argOf s mb 1) ∧
        ReportAt s s' (argOf s mb 2) (rs.flatMap LogRec.bytes)) ∧
    (∃ (s : State) (mb : Fin 16), Holds s mb 0x0702 0) ∧
    (∃ (s : State) (mb : Fin 16), Holds s mb 0x0703 5 ∧ ptrErr (argOf s mb 4) 64 64 true s = none ∧
        argOf s mb 0 % 2 ^ 16 = 0 ∧ argOf s mb 1 % 2 ^ 16 = 0 ∧ 1 ≤ argOf s mb 1 ∧
        argOf s mb 0 + argOf s mb 1 ≤ hbmEnd ∧ 1 ≤ argOf s mb 3 ∧ argOf s mb 3 ≤ 2048 ∧ argOf s mb 2 ≤ 1 ∧
        s.scrubs = false ∧ s.generators = false ∧ s.memOff = false) ∧
    (∃ (s s' : State) (mb : Fin 16), Holds s mb 0x0704 1 ∧
        ReportAt (scrubNow s) s' (argOf s mb 0) (scrubBytes (scrubNow s).rse.scrub)) ∧
    (∃ (s u t : State) (mb : Fin 16) (x y : Scrub), Holds s mb 0x0705 0 ∧ s.scrubs = true ∧ u = scrubNow s ∧
        u.rse.scrub = some x ∧ y = { x with state := 3, endTick := u.spine.tick } ∧
        ptrWrite x.dst (scrubBytes (some y)) { u with rse := { u.rse with scrub := some y } } = .ok t ∧ Calm t) ∧
    (∃ (s : State) (mb : Fin 16), Holds s mb 0x0706 8 ∧ s.mayInject = true ∧ argOf s mb 0 ≤ 15 ∧ 1 ≤ argOf s mb 1 ∧
        argOf s mb 1 ≤ 9 ∧ ((argOf s mb 7 = 0 ∨ argOf s mb 7 = 1 ∧ argOf s mb 1 ≤ 2)) ∧
        injPlace (argOf s mb 1) (argOf s mb 2) (argOf s mb 3) = true ∧ 1 ≤ argOf s mb 5 ∧ argOf s mb 5 ≤ 255 ∧
        argOf s mb 6 < 2 ^ 48 ∧ SMap.lookup s.rse.inj (argOf s mb 0) = none) ∧
    (∃ (s : State) (mb : Fin 16), Holds s mb 0x0707 1 ∧ argOf s mb 0 < 2 ^ 16) ∧
    (∃ (s u : State) (mb : Fin 16) (g : Nat), Holds s mb 0x0708 1 ∧ argOf s mb 0 = g * 2 ^ 16 ∧
        argOf s mb 0 < reserveBase ∧ s.rse.retired.length + s.rse.retirePend.length < 16384 ∧ s.generators = false ∧
        retireOne g s = .gone u ∧ Calm u) ∧
    (∃ (s : State) (mb : Fin 16) (g : Nat), Holds s mb 0x0708 1 ∧ argOf s mb 0 = g * 2 ^ 16 ∧
        argOf s mb 0 < reserveBase ∧ s.rse.retired.length + s.rse.retirePend.length < 16384 ∧ s.generators = false ∧
        retireOne g s = .pends) ∧
    (∃ (s : State) (mb : Fin 16), Holds s mb 0x0709 1 ∧ argOf s mb 0 ≤ 63 ∧ argOf s mb 0 ∈ s.rse.banks ∧
        s.generators = false) ∧
    (∃ (s t u : State) (mb : Fin 16) (used stay : List Nat), Holds s mb 0x0709 1 ∧ argOf s mb 0 ≤ 63 ∧ argOf s mb 0 ∉ s.rse.banks ∧ s.rse.banks.length < 4 ∧ s.generators = false ∧ used = NSet.addAll [] (s.usedOf (argOf s mb 0)) ∧ t = { s with rse := { s.rse with
      banks := NSet.insert s.rse.banks (argOf s mb 0), retirePend := NSet.addAll s.rse.retirePend used } } ∧ retireUsed used [] t = (stay, false, u) ∧ Calm u) ∧
    (∃ (s t : State) (mb : Fin 16), Holds s mb 0x070A 6 ∧ argOf s mb 0 ≤ 19 ∧ argOf s mb 1 ≤ 31 ∧ argOf s mb 2 ≤ 1 ∧
        argOf s mb 3 ≤ 63 ∧ argOf s mb 4 < 12288 ∧ argOf s mb 5 ≤ 1 ∧ s.spine.running = false ∧ s.generators = false ∧
        s.memOff = false ∧
        t = rewriteRow (inRow (argOf s mb 0) (argOf s mb 1) (argOf s mb 2) (argOf s mb 3) (argOf s mb 4)) s ∧ Calm t) ∧
    (∃ (s s' : State) (mb : Fin 16), Holds s mb 0x070B 1 ∧ ReportAt s s' (argOf s mb 0) (retireListBytes s.rse)) := by
  refine ⟨?_, ?_, ?_, ?_, ?_, ?_, ?_, ?_, ?_, ?_, ?_, ?_, ?_⟩
  · exact ⟨held 0x0701 [0, 1, hostPtr 0] up, _, 0, _, ⟨by decide, by decide, .inr rfl⟩, by decide, by decide, rfl, reportHost _ _ 0 _ (by decide) (by decide) (.inr rfl)⟩
  · exact ⟨held 0x0702 [] up, 0, ⟨by decide, by decide, .inr rfl⟩⟩
  · exact by
      refine ⟨memOn (held 0x0703 [0, 0x10000, 0, 1, hostPtr 0] up), 0, ⟨by decide, by decide, .inr rfl⟩, ?_, ?_, ?_, ?_,
          ?_, ?_, ?_, ?_, ?_, ?_, ?_⟩ <;>
        decide +kernel
  · exact ⟨held 0x0704 [hostPtr 0] up, _, 0, ⟨by decide, by decide, .inr rfl⟩, reportHost _ _ 0 _ (by decide) (by decide) (.inr rfl)⟩
  · exact ⟨scrubbing [] 0x0705, _, _, 0, (scrubNow (scrubbing [] 0x0705)).rse.scrub.get (by decide +kernel), _, ⟨by decide, by decide, .inr rfl⟩, by decide +kernel, rfl, (Option.some_get _).symm, rfl,
        by rw [show ((scrubNow (scrubbing [] 0x0705)).rse.scrub.get (by decide +kernel)).dst = hostPtr 0 from by decide +kernel, ptrWrite, hostPtr_of (by decide)], .inr rfl⟩
  · exact by
      refine ⟨{ held 0x0706 [0, 1, 0, 0, 1, 1, 0, 0] up with sec := { Sec.reset with debug := 1 } }, 0,
          ⟨by decide, by decide, .inr rfl⟩, ?_, ?_, ?_, ?_, .inl (by decide), ?_, ?_, ?_, ?_, rfl⟩ <;>
        decide +kernel
  · exact ⟨held 0x0707 [1] up, 0, ⟨by decide, by decide, .inr rfl⟩, by decide⟩
  · exact ⟨held 0x0708 [0] up, _, 0, 0, ⟨by decide, by decide, .inr rfl⟩, by decide, by decide, by decide, by decide, retireE, .inr rfl⟩
  · exact ⟨pinnedOne, 0, 0, ⟨by decide, by decide, .inr rfl⟩, by decide, by decide, by decide, by decide, pendE⟩
  · exact ⟨{ held 0x0709 [63] up with rse := { Rse.reset with banks := [63] } }, 0, ⟨by decide, by decide, .inr rfl⟩, by decide, by decide, by decide⟩
  · exact ⟨held 0x0709 [63] up, _, _, 0, _, [], ⟨by decide, by decide, .inr rfl⟩, by decide, by decide, by decide, by decide, rfl, rfl,
        by rw [show NSet.addAll [] ((held 0x0709 [63] up).usedOf (argOf (held 0x0709 [63] up) 0 0)) = [] from by decide +kernel]; rfl, .inr rfl⟩
  · exact by
      refine ⟨memOn (held 0x070A [19, 31, 1, 63, 12287, 1] up), _, 0, ⟨by decide, by decide, .inr rfl⟩, ?_, ?_, ?_, ?_, ?_,
          ?_, rfl, ?_, ?_, rfl, .inr rfl⟩ <;>
        decide +kernel
  · exact ⟨held 0x070B [hostPtr 0] up, _, 0, ⟨by decide, by decide, .inr rfl⟩, reportHost _ _ 0 _ (by decide) (by decide +kernel) (.inr rfl)⟩

/-- What the clauses of RecoveryCommandsTakeEffect assume can be met. -/
theorem witness_RecoveryCommandsTakeEffect :
    (∃ (s s' : State) (mb : Fin 16) (r : List Byte) (part : Nat), Holds s mb 0x0710 1 ∧
        RecordAt s s' (argOf s mb 0) 64 64 r ∧ zeroAt r 4 4 = true ∧ (MirrorRec.of r 0).inRange = true ∧
        ((∀ o, o ∈ [16, 24, 40, 48] → fieldAt r o 8 % 2 ^ 16 = 0)) ∧ fieldAt r 32 8 % 8 = 0 ∧ part < 4 ∧
        s'.banksPinned (MirrorRec.of r part) = true ∧ ((∀ p, p < part → s'.banksPinned (MirrorRec.of r p) = false)) ∧
        s'.rse.mirrorPend = none) ∧
    (∃ (s : State) (mb : Fin 16), Holds s mb 0x0711 0) ∧
    (∃ (s s' : State) (mb : Fin 16) (t : PosTable) (part va : Nat) (r : List Byte), Holds s mb 0x0712 3 ∧
        s.links.table = some t ∧ argOf s mb 0 ∈ t.fawnFor ∧ ptrOf (argOf s mb 1) = some (.va part va) ∧
        1 ≤ argOf s mb 2 ∧ argOf s mb 2 ≤ 256 ∧ RecordAt s s' (argOf s mb 1) (256 * argOf s mb 2) 64 r ∧
        ((∀ i, i < argOf s mb 2 → manifestCode (fieldAt r (256 * i) 2) = true))) ∧
    (∃ (s s' : State) (mb : Fin 16), Holds s mb 0x0713 1 ∧ ReportAt s s' (argOf s mb 0) (takeoverBytes s.rse.takeoverRec)) ∧
    (∃ (s s' : State) (mb : Fin 16) (r : List Byte) (l : RecLimits), Holds s mb 0x0714 1 ∧
        RecordAt s s' (argOf s mb 0) 16 64 r ∧ zeroAt r 1 3 = true ∧ l = ⟨fieldAt r 0 1, fieldAt r 4 4, fieldAt r 8 8⟩ ∧
        1 ≤ l.replay ∧ l.replay ≤ 16 ∧ 1000 ≤ l.bound ∧ l.bound ≤ 30000 ∧
        ((l.watchdog = 0 ∨ 1000 ≤ l.watchdog ∧ l.watchdog ≤ 2 ^ 40))) ∧
    (∃ (s : State) (mb : Fin 16), Holds s mb 0x0715 0) ∧
    (∃ (s s' : State) (mb : Fin 16) (a : Nat) (d : Dump), Holds s mb 0x0720 3 ∧ ptrOf (argOf s mb 2) = some (.host a) ∧
        s.rse.colo.valid = true ∧ argOf s mb 0 + argOf s mb 1 ≤ s.rse.colo.size ∧ s.coloDump = some d ∧
        ReportAt s s' (argOf s mb 2) (d.read (argOf s mb 0) (argOf s mb 1))) ∧
    (∃ (s : State) (mb : Fin 16), Holds s mb 0x0721 0 ∧ s.rse.fatal = none ∧ s.rse.colo.valid = true) := by
  refine ⟨?_, ?_, ?_, ?_, ?_, ?_, ?_, ?_⟩
  · exact by
      refine ⟨withHost [] (held 0x0710 [hostPtr 0] up), _, 0, _, 0, ⟨by decide, by decide, .inr rfl⟩,
          recordHost _ _ 0 64 64 (by decide) (by decide) rfl (.inr rfl), ?_, ?_, ?_, ?_, ?_, ?_,
          (fun p h => by omega), rfl⟩ <;>
        decide +kernel
  · exact ⟨held 0x0711 [] up, 0, ⟨by decide, by decide, .inr rfl⟩⟩
  · exact ⟨fawnState, _, 0, { PosTable.of (padTo 576 []) with fawnFor := [3] }, 0, 0, _, ⟨by decide, by decide, .inr rfl⟩, rfl, by decide +kernel, rfl, by decide, by decide,
        recordVa fawnState _ 256 64 0 0 rfl (by decide +kernel) (by decide +kernel) (by decide +kernel) (by decide +kernel), by decide +kernel⟩
  · exact ⟨held 0x0713 [hostPtr 0] up, _, 0, ⟨by decide, by decide, .inr rfl⟩, reportHost _ _ 0 _ (by decide) (by decide) (.inr rfl)⟩
  · exact by
      refine ⟨withHost ([16, 0, 0, 0] ++ natLe 4 1000) (held 0x0714 [hostPtr 0] up), _, 0, _, _,
          ⟨by decide, by decide, .inr rfl⟩, recordHost _ _ 0 16 64 (by decide) (by decide) rfl (.inr rfl), ?_, rfl,
          ?_, ?_, ?_, ?_, .inl (by decide +kernel)⟩ <;>
        decide +kernel
  · exact ⟨held 0x0715 [] up, 0, ⟨by decide, by decide, .inr rfl⟩⟩
  · exact ⟨{ held 0x0720 [0, 1, hostPtr 0] up with rse := { Rse.reset with colo := { Rse.reset.colo with valid := true, size := 0x1000 }, dump := some dump0 } }, _, 0, 0, dump0,
        ⟨by decide, by decide, .inr rfl⟩, hostPtr_of (a := 0) (by decide), rfl, by decide +kernel, rfl, reportHost _ _ 0 _ (by decide) (by decide +kernel) (.inr rfl)⟩
  · exact ⟨{ held 0x0721 [] up with rse := { Rse.reset with colo := { Rse.reset.colo with valid := true } } }, 0, ⟨by decide, by decide, .inr rfl⟩, rfl, rfl⟩

end W11

namespace W12

theorem image0_ok : imageLengthOk 4096 = true := by
  unfold imageLengthOk imageRegion
  split <;> decide

def stageState : State := held 0x0905 [hostPtr 0, 4096] up

def pushState (a : List Nat) : State := { held 0x0907 a up with sec := { Sec.reset with recovery := true } }

def pushedId (s : State) : Nat := leNat ((sha3 (Config.pufKey s.draw.1)).take 8)

theorem pushedId_eq (s : State) : pushedId s = leNat ((sha3 (Config.pufKey s.draw.1)).take 8) := by unfold pushedId; exact rfl

theorem pushedId_lt (s : State) : pushedId s < 2 ^ 64 := by
  have h := leNat_bound ((sha3 (Config.pufKey s.draw.1)).take 8)
  have hl : ((sha3 (Config.pufKey s.draw.1)).take 8).length ≤ 8 := by rw [List.length_take]; omega
  exact Nat.lt_of_lt_of_le h (Nat.pow_le_pow_right (by decide) hl)

def pushed (id : Nat) : List Byte := goodRecord id (List.replicate 65536 0)

theorem pushed_length (id : Nat) : (pushed id).length = 69644 := by
  rw [pushed, goodRecord_length, List.length_replicate]

theorem pushed_take (id : Nat) : (pushed id).take 4108 = goodRecord id [] := by
  have e : pushed id = goodRecord id [] ++ List.replicate 65536 0 := by simp only [pushed, goodRecord, List.append_assoc, List.append_nil]
  have l : (goodRecord id []).length = 4108 := goodRecord_length id []
  rw [e, List.take_left' l]

theorem flashWrite_draw (a : Nat) (bs : List Byte) (s : State) : (flashWrite a bs s).draw.1 = s.draw.1 := rfl

theorem pushed_form (id : Nat) : recordForm (pushed id) = true := by unfold pushed; exact goodRecord_form _ _

theorem goodRecord_says (id : Nat) (tail : List Byte) : recordLength (goodRecord id tail) = 4108 := leNat_of_natLe 4 4108 (by decide)

theorem pushed_says (id : Nat) : recordLength (pushed id) = 4108 := by unfold pushed; exact goodRecord_says _ _

theorem pushRecord_ok (r : List Byte) (s : State) (h1 : r.length = recordLength r + 65536) (h2 : recordForm r = true)
    (h3 : recordFault (r.take (recordLength r)) (pushedId s) true = none) : ∃ t, pushRecord r true s = .ok [] t := by
  rw [pushedId_eq] at h3
  unfold pushRecord
  simp only [flashWrite_draw, h2]
  rw [if_neg (fun h => h h1), if_neg (by decide)]
  simp only [h3, Option.isSome_none, Bool.false_eq_true, if_false]
  exact ⟨_, rfl⟩

theorem pushed_ok (s : State) : ∃ t, pushRecord (pushed (pushedId s)) true s = .ok [] t := by
  refine pushRecord_ok _ s ?_ (pushed_form _) ?_
  · rw [pushed_says, pushed_length]
  · rw [pushed_says, pushed_take, recordFault, goodRecord_form, goodRecord_id _ _ (pushedId_lt s)]
    simp

theorem withHost_draw (bs : List Byte) (s : State) : (withHost bs s).draw.1 = s.draw.1 := rfl

theorem pushed_meets (bs : List Byte) (u : State) (h0 : Holds u 0 0x0907 3) (ha : argOf u 0 0 = 1) (h1 : argOf u 0 1 = hostPtr 0)
    (h2 : argOf u 0 2 = 69644) (hrec : u.sec.recovery = true) (hb : u.hostBad = []) (hc : Calm u) (hn : bs.length = 69644) {t : State}
    (ht : pushRecord bs true (withHost bs u) = .ok [] t) :
    ∃ (s s' : State) (mb : Fin 16) (a : Nat) (r : List Byte) (sigValid : Bool), ∃ t, Holds s mb 0x0907 3 ∧ argOf s mb 0 = 1 ∧ s.sec.recovery = true ∧ ptrOf (argOf s mb 1) = some (.host a) ∧ 4052 + 65536 ≤ argOf s mb 2 ∧ argOf s mb 2 ≤ 131072 ∧ RecordAt s s' (argOf s mb 1) (argOf s mb 2) 64 r ∧ pushRecord r sigValid s' = .ok [] t :=
  ⟨withHost bs u, withHost bs u, 0, 0, bs, true, t, h0, ha, hrec, (congrArg ptrOf h1).trans (hostPtr_of (by decide)),
    by show _ ≤ argOf u 0 2; omega, by show argOf u 0 2 ≤ _; omega, recordAll bs u _ _ 64 h1 (hn.trans h2.symm) hb hc, ht⟩

theorem readN_nil (n : Nat) : Mem.readN [] 0 n = List.replicate n 0 := by
  simp [Mem.readN, Mem.get, SMap.getD, SMap.lookup, List.map_const']

theorem pushed_short (s : State) : pushRecord (Mem.readN [] 0 69588) false s = .fail St.range := by
  rw [readN_nil, pushRecord, show recordLength (List.replicate 69588 0) = 0 from by rw [recordLength, fieldAt, List.drop_replicate, List.take_replicate]; rfl,
    List.length_replicate, if_pos (by decide)]

/-- What the clauses of PowerCommandsTakeEffect assume can be met. -/
theorem witness_PowerCommandsTakeEffect :
    (∃ (s s' : State) (mb : Fin 16), Holds s mb 0x0801 1 ∧
        ReportAt s s' (argOf s mb 0) ((List.range 256).flatMap fun t => natLe 1 (s.ceiling t))) ∧
    (∃ (s t : State) (mb : Fin 16), Holds s mb 0x0802 1 ∧ 1200 ≤ argOf s mb 0 ∧ argOf s mb 0 ≤ 3000 ∧
        t = { s with pcm := { s.pcm with hostCap := argOf s mb 0 } }) ∧
    (∃ (s t : State) (mb : Fin 16), Holds s mb 0x0803 3 ∧ argOf s mb 2 = 0 ∧
        ((argOf s mb 0 = 2 ^ 64 - 1 ∨ argOf s mb 0 < 2 ^ 48)) ∧ t = setAlign (argOf s mb 0) s) ∧
    (∃ (s s' t : State) (mb : Fin 16) (r : List Byte) (n align : Nat), Holds s mb 0x0803 3 ∧ n = argOf s mb 2 ∧ 1 ≤ n ∧ n ≤ 64 ∧ ((argOf s mb 0 = 2 ^ 64 - 1 ∧ align = s.pcm.align ∨ argOf s mb 0 < 2 ^ 48 ∧ align = argOf s mb 0)) ∧ RecordAt s s' (argOf s mb 1) (16 * n) 64 r ∧ ((∀ i, i < n → zeroAt r (16 * i + 12) 4 = true)) ∧ ((∀ i, i + 1 < n → (budgetAt r i).1 < (budgetAt r (i + 1)).1)) ∧ ((∀ i, i < n → 72000 ≤ (budgetAt r i).2 ∧ (budgetAt r i).2 ≤ 198000
      ∧ s'.pcm.ms + 2000 ≤ align + 60000 * (budgetAt r i).1)) ∧ t = setAlign (argOf s mb 0) s') ∧
    (∃ (s s' : State) (mb : Fin 16), Holds s mb 0x0804 1 ∧ ReportAt s s' (argOf s mb 0) (envStatusBytes s)) ∧
    (∃ (s : State) (mb : Fin 16), Holds s mb 0x0805 3 ∧ 1 ≤ argOf s mb 1 ∧ argOf s mb 0 + argOf s mb 1 ≤ 256 ∧
        40 ≤ argOf s mb 2 ∧ argOf s mb 2 ≤ 86) ∧
    (∃ (s s' : State) (mb : Fin 16), Holds s mb 0x0806 1 ∧
        ReportAt s s' (argOf s mb 0) ((List.range 256).flatMap s.tileFreqBytes)) ∧
    (∃ (s : State) (mb : Fin 16), Holds s mb 0x0807 1 ∧ argOf s mb 0 ≤ 3 ∧ ((argOf s mb 0 ≠ 0 → s.atWork = false)) ∧
        s.pcm.sleepTo = none) ∧
    (∃ (s : State) (mb : Fin 16) (r : Nat), Holds s mb 0x0808 0 ∧ s.pcm.calibrating = false ∧ r < 12 ∧ s.groupOf r ≠ none) ∧
    (∃ (s s' : State) (mb : Fin 16), Holds s mb 0x0809 1 ∧ ReportAt s s' (argOf s mb 0) (thermalBytes s)) := by
  refine ⟨?_, ?_, ?_, ?_, ?_, ?_, ?_, ?_, ?_, ?_⟩
  · exact ⟨held 0x0801 [hostPtr 0] up, _, 0, ⟨by decide, by decide, .inr rfl⟩, reportHost _ _ 0 _ (by decide) (by decide) (.inr rfl)⟩
  · exact ⟨held 0x0802 [1200] up, _, 0, ⟨by decide, by decide, .inr rfl⟩, by decide, by decide, rfl⟩
  · exact ⟨held 0x0803 [0, 0, 0] up, _, 0, ⟨by decide, by decide, .inr rfl⟩, by decide, .inr (by decide), rfl⟩
  · exact ⟨withHost (natLe 8 1 ++ natLe 4 72000) (held 0x0803 [0, hostPtr 0, 1] up), _, _, 0, _, 1, 0, ⟨by decide, by decide, .inr rfl⟩, rfl, by decide, by decide, .inr ⟨by decide, by decide⟩,
        recordHost _ _ 0 16 64 (by decide) (by decide) rfl (.inr rfl), by decide +kernel, (fun i h => by omega), by decide +kernel, rfl⟩
  · exact ⟨held 0x0804 [hostPtr 0] up, _, 0, ⟨by decide, by decide, .inr rfl⟩, reportHost _ _ 0 _ (by decide) (by decide) (.inr rfl)⟩
  · exact ⟨held 0x0805 [255, 1, 86] up, 0, ⟨by decide, by decide, .inr rfl⟩, by decide, by decide, by decide, by decide⟩
  · exact ⟨held 0x0806 [hostPtr 0] up, _, 0, ⟨by decide, by decide, .inr rfl⟩, reportHost _ _ 0 _ (by decide) (by decide) (.inr rfl)⟩
  · exact ⟨held 0x0807 [3] up, 0, ⟨by decide, by decide, .inr rfl⟩, by decide, fun _ => by decide +kernel, rfl⟩
  · exact ⟨{ held 0x0808 [] up with sec := railSec }, 0, 11, ⟨by decide, by decide, .inr rfl⟩, rfl, by decide, by rw [rail_group _ rfl]; exact fun h => by cases h⟩
  · exact ⟨held 0x0809 [hostPtr 0] up, _, 0, ⟨by decide, by decide, .inr rfl⟩, reportHost _ _ 0 _ (by decide) (by decide) (.inr rfl)⟩

/-- What the clauses of SecurityCommandsTakeEffect assume can be met. -/
theorem witness_SecurityCommandsTakeEffect :
    (∃ (s s' : State) (mb : Fin 16), Holds s mb 0x0901 1 ∧
        ReportAt s s' (argOf s mb 0) ((List.range 6).flatMap fun i => s.measure (i + 1))) ∧
    (∃ (s s' : State) (mb : Fin 16), Holds s mb 0x0902 2 ∧ s.chain.length ≤ argOf s mb 1 ∧
        ReportAt s s' (argOf s mb 0) s.chain) ∧
    (∃ (s s' : State) (mb : Fin 16) (ms : Nat) (body : List Byte), Holds s mb 0x0903 6 ∧ argOf s mb 4 ≠ 0 ∧
        argOf s mb 4 < 128 ∧ (argOf s mb 4).testBit 0 = false ∧ ms ≤ 100 ∧
        body = attestBody (argOf s mb 4) ((List.range 4).flatMap fun i => natLe 8 (argOf s mb i)) s ∧
        ReportAt s.draw.2 s' (argOf s mb 5) (body ++ Config.signature 1 s.draw.1 body)) ∧
    (∃ (s s' : State) (mb : Fin 16), Holds s mb 0x0904 1 ∧ ReportAt s s' (argOf s mb 0) s.sec.record) ∧
    (∃ (s s' : State) (mb : Fin 16) (r : List Byte), Holds s mb 0x0905 2 ∧ imageLengthOk (argOf s mb 1) = true ∧
        RecordAt s s' (argOf s mb 0) (argOf s mb 1) 64 r ∧ argOf s mb 1 = 4096 + bodyLength (r.take 4096) ∧
        imageFault (r.take 4096) (r.drop 4096) s'.sec.record true = none) ∧
    (∃ (s : State) (mb : Fin 16) (img : List Byte), Holds s mb 0x0906 0 ∧ s.sec.staged = some img ∧ s.runningChans = [] ∧
        s.spine.running = false ∧ s.rse.window ≠ 1 ∧ s.rse.window ≠ 2) ∧
    (∃ (s t : State) (mb : Fin 16) (img read : List Byte), Holds s mb 0x0906 0 ∧ s.sec.staged = some img ∧ read ≠ img ∧
        s.runningChans = [] ∧ s.spine.running = false ∧ s.rse.window ≠ 1 ∧ s.rse.window ≠ 2 ∧
        t = raiseCause Cause.security { s with flash := Mem.writeN s.flash imageOffset (read.take img.length) } ∧ Calm t) ∧
    (∃ (s s' t : State) (mb : Fin 16) (a : Nat) (r : List Byte), Holds s mb 0x0907 3 ∧ argOf s mb 0 = 0 ∧
        s.sec.recovery = true ∧ ptrOf (argOf s mb 1) = some (.host a) ∧ imageLengthOk (argOf s mb 2) = true ∧
        RecordAt s s' (argOf s mb 1) (argOf s mb 2) 64 r ∧ r.length = 4096 + bodyLength (r.take 4096) ∧
        imageFault (r.take 4096) (r.drop 4096) s'.sec.record true = none ∧
        t = { s' with flash := Mem.writeN s'.flash imageOffset r }) ∧
    (∃ (s s' : State) (mb : Fin 16) (a : Nat) (r : List Byte) (sigValid : Bool), ∃ t, Holds s mb 0x0907 3 ∧
        argOf s mb 0 = 1 ∧ s.sec.recovery = true ∧ ptrOf (argOf s mb 1) = some (.host a) ∧ 4052 + 65536 ≤ argOf s mb 2 ∧
        argOf s mb 2 ≤ 131072 ∧ RecordAt s s' (argOf s mb 1) (argOf s mb 2) 64 r ∧ pushRecord r sigValid s' = .ok [] t) ∧
    (∃ (s s' : State) (mb : Fin 16) (a : Nat) (r : List Byte) (sigValid : Bool), ∃ e, Holds s mb 0x0907 3 ∧
        argOf s mb 0 = 1 ∧ s.sec.recovery = true ∧ ptrOf (argOf s mb 1) = some (.host a) ∧ 4052 + 65536 ≤ argOf s mb 2 ∧
        argOf s mb 2 ≤ 131072 ∧ RecordAt s s' (argOf s mb 1) (argOf s mb 2) 64 r ∧ pushRecord r sigValid s' = .fail e) ∧
    (∃ (s : State) (mb : Fin 16) (nonce : List Byte), Holds s mb 0x0908 0 ∧ s.debugPermitted = true ∧
        nonce = (List.range 32).map (Config.random s.draw.1)) ∧
    (∃ (s s' t : State) (mb : Fin 16) (r : List Byte), Holds s mb 0x0909 2 ∧ s.debugPermitted = true ∧ 1 ≤ argOf s mb 0 ∧
        argOf s mb 0 ≤ 2 ∧ s.nonceValid = true ∧ RecordAt s s' (argOf s mb 1) 2420 64 r ∧
        t = openDebug (argOf s mb 0) s') ∧
    (∃ (s t : State) (mb : Fin 16), Holds s mb 0x090A 0 ∧ t = closeDebug s) := by
  refine ⟨?_, ?_, ?_, ?_, ?_, ?_, ?_, ?_, ?_, ?_, ?_, ?_, ?_⟩
  · exact ⟨held 0x0901 [hostPtr 0] up, _, 0, ⟨by decide, by decide, .inr rfl⟩, reportHost _ _ 0 _ (by decide) (by decide) (.inr rfl)⟩
  · exact ⟨held 0x0902 [hostPtr 0, 0] up, _, 0, ⟨by decide, by decide, .inr rfl⟩, by decide +kernel, reportHost _ _ 0 _ (by decide) (by decide) (.inr rfl)⟩
  · exact ⟨held 0x0903 [0, 0, 0, 0, 2, hostPtr 0] up, _, 0, 100, _, ⟨by decide, by decide, .inr rfl⟩, by decide, by decide, by decide, by decide, rfl, reportHost _ _ 0 _ (by decide) (by decide) (.inr rfl)⟩
  · exact ⟨held 0x0904 [hostPtr 0] up, _, 0, ⟨by decide, by decide, .inr rfl⟩, reportHost _ _ 0 _ (by decide) (by decide) (.inr rfl)⟩
  · exact by
      have e := image0_length
      refine ⟨withHost image0 stageState, withHost image0 stageState, 0, image0, ⟨by decide, by decide, .inr rfl⟩, image0_ok, ?_, ?_, image0_fault⟩
      · have h := recordLong image0 stageState (hostPtr 0) 4096 64 rfl (Nat.le_of_eq e.symm) rfl (.inr rfl)
        rw [← e, List.take_length, e] at h
        exact h
      · rw [← e, List.take_length, image0_body, e]
        decide
  · exact ⟨{ held 0x0906 [] up with sec := { Sec.reset with staged := some [] } }, 0, [], ⟨by decide, by decide, .inr rfl⟩, rfl, by decide +kernel, rfl, by decide, by decide⟩
  · exact ⟨{ held 0x0906 [] up with sec := { Sec.reset with staged := some [] } }, _, 0, [], [0], ⟨by decide, by decide, .inr rfl⟩, rfl, by decide, by decide +kernel, rfl, by decide, by decide, rfl, .inr rfl⟩
  · exact by
      have e := image0_length
      refine ⟨withHost image0 (pushState [0, hostPtr 0, 4096]), withHost image0 (pushState [0, hostPtr 0, 4096]), _, 0, 0, image0, ⟨by decide, by decide, .inr rfl⟩, by decide, rfl,
        hostPtr_of (a := 0) (by decide), image0_ok, ?_, ?_, image0_fault, rfl⟩
      · have h := recordLong image0 (pushState [0, hostPtr 0, 4096]) (hostPtr 0) 4096 64 rfl (Nat.le_of_eq e.symm) rfl (.inr rfl)
        rw [← e, List.take_length, e] at h
        exact h
      · rw [← e, List.take_length, image0_body, e]
  · exact by
      have f : ∃ u, Holds u 0 0x0907 3 ∧ argOf u 0 0 = 1 ∧ argOf u 0 1 = hostPtr 0 ∧ argOf u 0 2 = 69644 ∧ u.sec.recovery = true ∧ u.hostBad = []
          ∧ Calm u := ⟨pushState [1, hostPtr 0, 69644], ⟨by decide, by decide, .inr rfl⟩, by decide, by decide, by decide, rfl, rfl, .inr rfl⟩
      obtain ⟨u, h0, ha, h1, h2, hrec, hb, hc⟩ := f
      have hid : pushedId u = pushedId (withHost (pushed (pushedId u)) u) := by rw [pushedId_eq, pushedId_eq, withHost_draw]
      obtain ⟨t, ht⟩ := pushed_ok (withHost (pushed (pushedId u)) u)
      rw [← hid] at ht
      exact pushed_meets (pushed (pushedId u)) u h0 ha h1 h2 hrec hb hc (pushed_length _) ht
  · exact ⟨withHost [] (pushState [1, hostPtr 0, 69588]), _, 0, 0, _, false, _, ⟨by decide, by decide, .inr rfl⟩, by decide, rfl, hostPtr_of (a := 0) (by decide), by decide, by decide,
        recordHost _ _ 0 69588 64 (by decide) (by decide) rfl (.inr rfl), pushed_short _⟩
  · exact ⟨{ held 0x0908 [] up with sec := { Sec.reset with record := List.replicate 37 0 ++ [4] } }, 0, _, ⟨by decide, by decide, .inr rfl⟩, by decide +kernel, rfl⟩
  · exact ⟨withHost [] { held 0x0909 [1, hostPtr 0] up with sec := { Sec.reset with record := List.replicate 37 0 ++ [4], nonce := some ([], 0) } }, _, _, 0, _, ⟨by decide, by decide, .inr rfl⟩,
        by decide +kernel, by decide, by decide, by decide +kernel, recordHost _ _ 0 2420 64 (by decide) (by decide) rfl (.inr rfl), rfl⟩
  · exact ⟨held 0x090A [] up, _, 0, ⟨by decide, by decide, .inr rfl⟩, rfl⟩

end W12

namespace W13

def sldPoison : State := running { tile0 ready0 0x0A with poison := [0] }

def codeState : State := withPage [] (running { tile0 ready0 0 with icache := [] })

theorem codeGood : ∃ b s', tileLine 0 0 0 (0 + 64 + 256 * 0) (min 256 (64 - 256 * 0)) codeState = .data b false s' ∧ Calm s' := good_data (by decide +kernel)

/-- What the clauses of ControlInstructionsTakeEffect assume can be met. -/
theorem witness_ControlInstructionsTakeEffect :
    (∃ (s : State) (t : Fin 256) (th : Fin 8) (w : BitVec 128), Issues s t th w 0x00 (s.nextPc t th)) ∧
    (∃ (s : State) (t : Fin 256) (th : Fin 8) (w : BitVec 128), Issues s t th w 0x01 ((s.tile t).thread th).pc.toNat) ∧
    (∃ (s : State) (t : Fin 256) (th : Fin 8) (w : BitVec 128) (h : Thread) (next : Int), h = (s.tile t).thread th ∧
        Ins.sel w ≤ 5 ∧
        next = (if branchCond (Ins.sel w) (h.reg (Ins.ga w)) (h.reg (Ins.gb w)) then s.branchPc t th w else s.nextPc t th) ∧
        Issues s t th w 0x02 next) ∧
    (∃ (s : State) (t : Fin 256) (th : Fin 8) (w : BitVec 128) (h v : Thread) (next : Int), h = (s.tile t).thread th ∧
        v = h.setReg (Ins.ga w) (h.reg (Ins.ga w) - 1) ∧
        next = (if v.reg (Ins.ga w) ≠ 0 then s.branchPc t th w else s.nextPc t th) ∧ Issues s t th w 0x03 next) ∧
    (∃ (s : State) (t : Fin 256) (th : Fin 8) (w : BitVec 128) (v : BitVec 32), v = (Ins.imm w).setWidth 32 ∧
        Issues s t th w 0x04 (s.nextPc t th)) ∧
    (∃ (s : State) (t : Fin 256) (th : Fin 8) (w : BitVec 128), Issues s t th w 0x05 (s.nextPc t th) ∧
        (s.tile t).outstanding th (Ins.units w) = []) ∧
    (∃ (s : State) (t : Fin 256) (th : Fin 8) (w : BitVec 128) (l : NSet), Issues s t th w 0x05 (s.nextPc t th) ∧
        l = (s.tile t).outstanding th (Ins.units w) ∧ l ≠ []) ∧
    (∃ (s : State) (t : Fin 256) (th : Fin 8) (w : BitVec 128) (v : BitVec 64),
        v = ((s.tile t).thread th).reg (Ins.ga w) + Ins.imm w ∧ Issues s t th w 0x06 (s.nextPc t th)) ∧
    (∃ (s : State) (t : Fin 256) (th : Fin 8) (h : Thread), h = (s.tile t).thread th ∧ h.st = .waitTick ∧
        h.waitTick.toNat ≤ s.spine.tick) := by
  refine ⟨?_, ?_, ?_, ?_, ?_, ?_, ?_, ?_, ?_⟩
  · exact ⟨atWord 0, 0, 0, 0, by decide +kernel, by decide, by decide, by decide +kernel, .inr rfl⟩
  · exact ⟨atWord 1, 0, 0, 1, by decide +kernel, by decide, by decide, by decide +kernel, .inr rfl⟩
  · exact ⟨atWord (BitVec.ofNat 128 (2 + 5 * 2 ^ 20 + 16 * 2 ^ 64)), 0, 0, BitVec.ofNat 128 (2 + 5 * 2 ^ 20 + 16 * 2 ^ 64), _, _, rfl, by decide +kernel, rfl, by decide +kernel, by decide +kernel, by decide +kernel, by decide +kernel, .inr rfl⟩
  · exact ⟨atWord (BitVec.ofNat 128 (3 + 2 ^ 12 + 16 * 2 ^ 64)), 0, 0, BitVec.ofNat 128 (3 + 2 ^ 12 + 16 * 2 ^ 64), _, _, _, rfl, rfl, rfl, by decide +kernel, by decide +kernel, by decide +kernel, by decide +kernel, .inr rfl⟩
  · exact ⟨atWord 4, 0, 0, 4, _, rfl, by decide +kernel, by decide, by decide, by decide +kernel, .inr rfl⟩
  · exact ⟨atWord 5, 0, 0, 5, ⟨by decide +kernel, by decide, by decide, by decide +kernel, .inr rfl⟩, by decide +kernel⟩
  · exact ⟨running { tile0 ready0 (BitVec.ofNat 128 (5 + 2 ^ 32)) with queues := [(0, [queued0 0 false])] }, 0, 0, BitVec.ofNat 128 (5 + 2 ^ 32), _,
        ⟨by decide +kernel, by decide, by decide, by decide +kernel, .inr rfl⟩, rfl, by decide +kernel⟩
  · exact ⟨atWord 6, 0, 0, 6, _, rfl, by decide +kernel, by decide, by decide, by decide +kernel, .inr rfl⟩
  · exact ⟨running (tile0 { Thread.reset with st := .waitTick } 0), 0, 0, _, rfl, by decide +kernel, by decide +kernel⟩

/-- What the clauses of ScalarInstructionsTakeEffect assume can be met. -/
theorem witness_ScalarInstructionsTakeEffect :
    (∃ (s : State) (t : Fin 256) (th : Fin 8) (w : BitVec 128), Issues s t th w 0x08 (s.nextPc t th)) ∧
    (∃ (s : State) (t : Fin 256) (th : Fin 8) (w : BitVec 128) (h : Thread) (b : BitVec 64), h = (s.tile t).thread th ∧
        b = (if Ins.useImm w then Ins.imm w else h.reg (Ins.gb w)) ∧ Issues s t th w 0x09 (s.nextPc t th)) ∧
    (∃ (s : State) (t : Fin 256) (th : Fin 8) (w : BitVec 128) (h : Thread) (a : Nat), h = (s.tile t).thread th ∧
        a = sldAddr h w ∧ a % 8 = 0 ∧ a + 8 ≤ 0x100000 ∧ Issues s t th w 0x0A (s.nextPc t th) ∧
        (a / 64) ∉ (s.tile t).poison ∧ (∀ e ∈ s.rse.inj, e.2.site ≠ 3)) ∧
    (∃ (s v s' : State) (t : Fin 256) (th : Fin 8) (w : BitVec 128) (a : Nat) (f : Found) (x : Tile),
        a = sldAddr ((s.tile t).thread th) w ∧ a % 8 = 0 ∧ a + 8 ≤ 0x100000 ∧ Issues s t th w 0x0A (s.nextPc t th) ∧
        v = goOn t th (s.nextPc t th) s ∧ sramRead t [(a, 8)] v = (f, x, s') ∧ f ≠ .good ∧
        Calm (reportFound t th false f s')) ∧
    (∃ (s : State) (t : Fin 256) (th : Fin 8) (w : BitVec 128) (h : Thread) (a : Nat), h = (s.tile t).thread th ∧
        a = sldAddr h w ∧ a % 8 = 0 ∧ a + 8 ≤ 0x100000 ∧ Issues s t th w 0x0B (s.nextPc t th)) ∧
    (∃ (s u : State) (t : Fin 256) (th : Fin 8) (w : BitVec 128), s.atInsn t th w = true ∧ insListed (Ins.op w) = false ∧
        u = tileFault t th 1 ((s.tile t).thread th).pc (Ins.op w) St.ok s) ∧
    (∃ (s : State) (t : Fin 256) (cause : Nat),
        (((∃ q ∈ (s.tile t).queue 0, s.drainWaits t q = true ∨ q.ran = false ∧ Ins.op q.word = 0x13) → cause = 5)) ∧
        (((∀ q ∈ (s.tile t).queue 0, s.drainWaits t q = false ∧ (q.ran = true ∨ Ins.op q.word ≠ 0x13)) → cause = 4))) ∧
    (∃ (s s' : State) (t : Fin 256) (th : Fin 8) (c : Nat) (x : Chan) (hd : Header) (h : Thread) (line : Nat)
      (b : List Byte), s.tileRun t = some (c, x, hd) ∧ h = (s.tile t).thread th ∧ h.st = .ready ∧ line = h.pc.toNat / 256 ∧ SMap.lookup (s.tile t).icache (h.pc.toNat / 16) = none ∧ line ∉ (s.tile t).badLines ∧ h.pc.toNat < hd.codeLength ∧ tileLine t (2 * th) x.part (x.program + hd.codeOffset + 256 * line) (min 256 (hd.codeLength - 256 * line)) s
      = .data b false s' ∧ Calm s') := by
  refine ⟨?_, ?_, ?_, ?_, ?_, ?_, ?_, ?_⟩
  · exact ⟨atWord 8, 0, 0, 8, by decide +kernel, by decide, by decide, by decide +kernel, .inr rfl⟩
  · exact ⟨atWord 9, 0, 0, 9, _, _, rfl, rfl, by decide +kernel, by decide, by decide, by decide +kernel, .inr rfl⟩
  · exact ⟨atWord (BitVec.ofNat 128 (0x0A + 0xFFFF8 * 2 ^ 64)), 0, 0, BitVec.ofNat 128 (0x0A + 0xFFFF8 * 2 ^ 64), _, _, rfl, rfl, by decide +kernel, by decide +kernel,
        ⟨by decide +kernel, by decide, by decide, by decide +kernel, .inr rfl⟩, by decide +kernel, (fun e h => by cases h)⟩
  · exact ⟨sldPoison, _, _, 0, 0, 0x0A, _, _, _, rfl, by decide +kernel, by decide +kernel, ⟨by decide +kernel, by decide, by decide, by decide +kernel, .inr rfl⟩, rfl, rfl,
        by decide +kernel, .inr (by decide +kernel)⟩
  · exact by
      refine ⟨atWord (BitVec.ofNat 128 (0x0B + 0xFFFF8 * 2 ^ 64)), 0, 0, BitVec.ofNat 128 (0x0B + 0xFFFF8 * 2 ^ 64), _, _,
          rfl, rfl, ?_, ?_, ?_, ?_, ?_, ?_, .inr rfl⟩ <;>
        decide +kernel
  · exact ⟨atWord 7, _, 0, 0, 7, by decide +kernel, by decide, rfl⟩
  · exact ⟨State.reset, 0, 4, (fun h => by obtain ⟨q, h, _⟩ := h; cases h), fun _ => rfl⟩
  · exact by
      obtain ⟨b, s', h, hc⟩ := codeGood
      exact ⟨codeState, s', 0, 0, 0, run0, ⟨false, 1, 64, 64, List.replicate 8 0⟩, _, 0, b, by decide +kernel, rfl, by decide +kernel, by decide +kernel,
        by decide +kernel, by decide +kernel, by decide +kernel, h, hc⟩

end W13

namespace W14

def mdrainWord (dest : Nat) : BitVec 128 := BitVec.ofNat 128 (0x13 + dest * 2 ^ 10 + 8 * 2 ^ 48 + (if dest = 2 then 2 ^ 14 else 0))

def drainThread : Thread := { ready0 with regs := [(1, 0x100000)] }

def drainState (dest : Nat) : State := running (tile0 drainThread (mdrainWord dest))

/-- A chain's descriptor: one stage that copies V0, or the drained row. -/
def chainBytes (drain : Bool) : List Byte :=
  natLe 2 0 ++ natLe 190 (if drain then 127 else 0) ++ natLe 8 (1 + (if drain then 0x2D * 2 ^ 8 else 0) + 0x38 * 2 ^ 15 + 0x38 * 2 ^ 22 + 2 ^ 38) ++ List.replicate 56 0

def chainState (drain : Bool) (q0 : List QInstr) : State :=
  running { tile0 ready0 0 with scratch := Mem.writeN [] 0 (chainBytes drain), queues := [(0, q0), (1, [queued0 0x30 false])] }

theorem sram_good (t : Nat) (rs : List (Nat × Nat)) (s : State) (h : (sramRead t rs s).1 = .good) :
    sramRead t rs s = (.good, (sramRead t rs s).2.1, (sramRead t rs s).2.2) := Prod.ext h rfl

def lineState : State := withPage [] (running { tile0 ready0 0 with ctxs := [(0, [⟨0, 0, 0, 0, 1, 0, [], false⟩])] })

theorem lineGood : ∃ b s', tileLine 0 (2 * 0 + 1) run0.part 0 (64 * 1) lineState = .data b false s' ∧ Calm s' := good_data (by decide +kernel)

def desc0 (kind : Nat) (checked opened : Bool) : Desc := ⟨0, descRaw kind, checked, 0, 0, false, opened, none⟩

def desc0List (kind : Nat) (checked opened : Bool) : DList := ⟨0, 0, 0, 0x1000, 1, 1, [desc0 kind checked opened], false⟩

def descState (kind : Nat) (checked opened : Bool) : State := withPage [] (running (listTile kind checked opened))

def castState : State := withPage [] (running { listTile 4 true false with recvs := [⟨0, 1, 0, 0, 1, 64, 0, 0, 0⟩] })

def req0 : Req := ⟨0, 0, 0, 0, 0, 64, .hbm 0, .tile 0, 0, true, [0], true, some (List.replicate 64 0, []), false⟩

def reqBase : State := withPage [] (running { listTile 1 true false with reqs := [(0, req0)] })

def reqState : State := { reqBase with mem := { reqBase.mem with bankQ := [(bankId 0, [⟨0, 0, 2, bankId 0, 0, .read, true⟩])] } }

def fabBad : State := { reqState with rse := { Rse.reset with inj := [(0, ⟨5, 0, 0, 1, 5, 0, false, true⟩)] }, spine := { Spine.reset with newStag := true } }

theorem fabBadCross : fabricCross [0] fabBad = (some 0, (fabricCross [0] fabBad).2.1, (fabricCross [0] fabBad).2.2) := Prod.ext (by decide +kernel) rfl

theorem fabBadCalm : Calm (fabricFault 0 (fabricCross [0] fabBad).2.2) := .inl (by decide +kernel)

/-- What the clauses of ArrayAndVectorInstructionsTakeEffect assume can be met. -/
theorem witness_ArrayAndVectorInstructionsTakeEffect :
    (∃ (s : State) (t : Fin 256) (th : Fin 8) (w : BitVec 128) (conv : Bool) (i : Instr) (op : Nat) (h : Thread),
        ((conv = false ∧ i = .mma t th w ∧ op = 0x10 ∨ conv = true ∧ i = .mconv t th w ∧ op = 0x11)) ∧
        h = (s.tile t).thread th ∧ IssuesTo s t th w op 0 (mmaTiles w) (mmaTiles w) ∧ mmaKind conv (s.tile t) th w = 0 ∧
        (s.tile t).queue 0 = [] ∧ (s.tile t).queue 2 = [] ∧ s.rse.inj = [] ∧ (s.tile t).poison = []) ∧
    (∃ (s : State) (t : Fin 256) (th : Fin 8) (w : BitVec 128), IssuesTo s t th w 0x12 0 [] (mzeroTiles w) ∧
        (s.tile t).ownedByOther th (mzeroTiles w) = false ∧ (s.tile t).queue 0 = [] ∧ (s.tile t).queue 2 = []) ∧
    (∃ (s : State) (t : Fin 256) (th : Fin 8) (w : BitVec 128) (d : Nat), d = drainAddr ((s.tile t).thread th) w ∧
        IssuesTo s t th w 0x13 0 [Dr.acc w] (drainWrites w) ∧ drainKind (s.tile t) th w = 0 ∧ Dr.dest w = 0 ∧
        (s.tile t).queue 0 = [] ∧ (s.tile t).queue 2 = [] ∧ (∀ e ∈ s.rse.inj, e.2.site ≠ 4)) ∧
    (∃ (s v : State) (t : Fin 256) (th : Fin 8) (w : BitVec 128) (h : Thread) (d : Nat), h = (s.tile t).thread th ∧ d = drainAddr h w ∧ IssuesTo s t th w 0x13 0 [Dr.acc w] (drainWrites w) ∧ drainKind (s.tile t) th w = 0 ∧ ((Dr.dest w = 2 ∨ Dr.dest w = 3)) ∧ (s.tile t).queue 0 = [] ∧ (s.tile t).queue 2 = [] ∧ v = drainAll t th (d % 2 ^ 64) w (enqueueInsn t 0 (queued th h.pc w (BitVec.ofNat 64 d) 0 [Dr.acc w] (drainWrites w)
      0 152 false) (goOn t th (s.nextPc t th) s)) ∧ Calm v) ∧
    (∃ (s s1 u : State) (t : Fin 256) (th : Fin 8) (w : BitVec 128) (i : Instr) (h : Thread) (op : Nat) (own rd wr : List Nat)
      (b x : BitVec 64) (n cy : Nat), h = (s.tile t).thread th ∧ IssuesTo s t th w op 0 rd wr ∧ ((op = 0x10 ∧ i = .mma t th w ∧ mmaKind false (s.tile t) th w = 0 ∨ op = 0x11 ∧ i = .mconv t th w
        ∧ mmaKind true (s.tile t) th w = 0) ∧ own = mmaTiles w ∧ rd = mmaTiles w ∧ wr = mmaTiles w ∧ b = BitVec.ofNat 64 (mmaA h w)
        ∧ x = BitVec.ofNat 64 (mmaB h w) ∧ n = (shapeDims (Mx.shape w)).2.2
        ∧ cy = mmaCycles w + (if ((s.tile t).queue 0).isEmpty then 24 else 0)
      ∨ op = 0x12 ∧ i = .mzero t th w ∧ (s.tile t).ownedByOther th (mzeroTiles w) = false ∧ own = mzeroTiles w ∧ rd = []
        ∧ wr = mzeroTiles w ∧ b = 0 ∧ x = 0 ∧ n = 0 ∧ cy = 0
      ∨ op = 0x13 ∧ i = .mdrain t th w ∧ drainKind (s.tile t) th w = 0 ∧ own = [] ∧ rd = [Dr.acc w] ∧ wr = drainWrites w
        ∧ b = BitVec.ofNat 64 (drainAddr h w) ∧ x = 0 ∧ n = 0 ∧ cy = 152) ∧ s1 = enqueueInsn t 0 (queued th h.pc w b x rd wr n cy false)
      ((goOn t th (s.nextPc t th) s).modTile t fun y => y.own th own) ∧ u = headArray t 4 s1 ∧ Calm u) ∧
    (∃ (s : State) (t : Fin 256) (th : Fin 8) (w : BitVec 128) (a : Nat) (d : List Byte) (rd wr : List Nat),
        a = chainAddrOf ((s.tile t).thread th) w ∧ a % 64 = 0 ∧ a + 256 ≤ 0x100000 ∧
        d = Mem.readN (s.tile t).scratch a 256 ∧ rd = (if usesAcc d then chainTiles d else []) ∧
        wr = (if usesTarget3 d || (usesAcc d && Cd.accRel d) then chainTiles d else []) ∧ IssuesTo s t th w 0x30 1 rd wr) ∧
    (∃ (s s' : State) (t : Fin 256) (q : QInstr) (qs : List QInstr) (d : List Byte) (x : Tile), Calm s ∧
        (s.tile t).queue 1 = q :: qs ∧ q.ran = false ∧ sramRead t [(q.base.toNat, 256)] s = (.good, x, s') ∧
        d = Mem.readN x.scratch q.base.toNat 256 ∧ chainKind (s.tile t) q.th q.word d q.extra = 0 ∧
        usesDrain d = false ∧ Calm (runChain t q d none s')) ∧
    (∃ (s s' : State) (t : Fin 256) (q : QInstr) (qs : List QInstr) (d : List Byte) (x : Tile), ∃ m, Calm s ∧
        (s.tile t).queue 1 = q :: qs ∧ q.ran = false ∧ sramRead t [(q.base.toNat, 256)] s = (.good, x, s') ∧
        d = Mem.readN x.scratch q.base.toNat 256 ∧ chainKind (s.tile t) q.th q.word d q.extra = 0 ∧ usesDrain d = true ∧
        s.drainFor t (Vc.slot q.word) = some m ∧ Calm (runChain t q d (some m) s')) ∧
    (∃ (s s' : State) (t : Fin 256) (q : QInstr) (qs : List QInstr) (d : List Byte) (x : Tile), Calm s ∧
        (s.tile t).queue 1 = q :: qs ∧ q.ran = false ∧ sramRead t [(q.base.toNat, 256)] s = (.good, x, s') ∧
        d = Mem.readN x.scratch q.base.toNat 256 ∧ chainKind (s.tile t) q.th q.word d q.extra = 0 ∧ usesDrain d = true ∧
        s.drainFor t (Vc.slot q.word) = none) := by
  refine ⟨?_, ?_, ?_, ?_, ?_, ?_, ?_, ?_, ?_⟩
  · exact ⟨atWord 0x10, 0, 0, 0x10, false, .mma 0 0 0x10, 0x10, _, .inl ⟨rfl, rfl, rfl⟩, rfl, ⟨⟨by decide +kernel, by decide, by decide, by decide +kernel, .inr rfl⟩, by decide +kernel, by decide +kernel⟩,
        by decide +kernel, rfl, rfl, rfl, rfl⟩
  · exact ⟨atWord 0x12, 0, 0, 0x12, ⟨⟨by decide +kernel, by decide, by decide, by decide +kernel, .inr rfl⟩, by decide +kernel, by decide +kernel⟩, by decide +kernel, rfl, rfl⟩
  · exact ⟨drainState 0, 0, 0, mdrainWord 0, _, rfl, ⟨⟨by decide +kernel, by decide +kernel, by decide +kernel, by decide +kernel, .inr rfl⟩, by decide +kernel, by decide +kernel⟩,
        by decide +kernel, by decide +kernel, rfl, rfl, (fun e h => by cases h)⟩
  · exact ⟨drainState 2, _, 0, 0, mdrainWord 2, _, _, rfl, rfl, ⟨⟨by decide +kernel, by decide +kernel, by decide +kernel, by decide +kernel, .inr rfl⟩, by decide +kernel, by decide +kernel⟩,
        by decide +kernel, .inl (by decide +kernel), rfl, rfl, rfl, .inr (by decide +kernel)⟩
  · exact ⟨drainState 1, _, _, 0, 0, mdrainWord 1, .mdrain 0 0 (mdrainWord 1), _, 0x13, [], _, _, _, 0, 0, 152, rfl,
        ⟨⟨by decide +kernel, by decide +kernel, by decide +kernel, by decide +kernel, .inr rfl⟩, by decide +kernel, by decide +kernel⟩,
        .inr (.inr ⟨rfl, rfl, by decide +kernel, rfl, rfl, rfl, rfl, rfl, rfl, rfl⟩), rfl, rfl, .inr (by decide +kernel)⟩
  · exact ⟨running { tile0 ready0 0x30 with scratch := Mem.writeN [] 0 (chainBytes false) }, 0, 0, 0x30, _, _, _, _, rfl, by decide +kernel, by decide +kernel, rfl, rfl, rfl,
        ⟨by decide +kernel, by decide +kernel, by decide +kernel, by decide +kernel, .inr rfl⟩, by decide +kernel, by decide +kernel⟩
  · exact ⟨chainState false [], _, 0, queued0 0x30 false, [], _, _, .inr rfl, by decide +kernel, rfl, sram_good _ _ _ (by decide +kernel), rfl, by decide +kernel, by decide +kernel, .inr (by decide +kernel)⟩
  · exact ⟨chainState true [queued0 (mdrainWord 1) false], _, 0, queued0 0x30 false, [], _, _, queued0 (mdrainWord 1) false, .inr rfl, by decide +kernel, rfl, sram_good _ _ _ (by decide +kernel), rfl,
        by decide +kernel, by decide +kernel, by decide +kernel, .inr (by decide +kernel)⟩
  · exact ⟨chainState true [], _, 0, queued0 0x30 false, [], _, _, .inr rfl, by decide +kernel, rfl, sram_good _ _ _ (by decide +kernel), rfl,
        by decide +kernel, by decide +kernel, by decide +kernel⟩

/-- What the clauses of FetchEngineTakesEffect assume can be met. -/
theorem witness_FetchEngineTakesEffect :
    (∃ (s : State) (t : Fin 256) (th : Fin 8) (w : BitVec 128) (h : Thread), h = (s.tile t).thread th ∧
        IssuesTo s t th w 0x20 3 [] []) ∧
    (∃ (s s' : State) (t : Fin 256) (th : Fin 8) (c : Nat) (x : Chan) (hd : Header) (l : DList) (n va : Nat)
      (b : List Byte), s.tileRun t = some (c, x, hd) ∧ (s.tile t).runList th = some l ∧ l.stopped = false ∧ n = min 4 (l.count - l.next) ∧ 1 ≤ n ∧ (s.tile t).fetched th + n ≤ 32 ∧ va = l.base + 64 * l.next ∧ lowestOf ((boundFail x va (64 * n)).toList ++ (s.firstUnmapped x.part va (64 * n)).toList) = none ∧ tileLine t (2 * th + 1) x.part va (64 * n) s = .data b false s' ∧ Calm s') ∧
    (∃ (s u : State) (t : Fin 256) (th : Fin 8) (c : Nat) (x : Chan) (hd : Header) (l : DList) (d : Desc) (v : Nat), s.tileRun t = some (c, x, hd) ∧ (s.tile t).headDesc th = some (l, d) ∧ d.checked = false ∧ checkDesc s x (l.base + 64 * d.idx) d.raw = (0, v) ∧ Calm s ∧ u = touchRanges x.part (descRanges x.relaxed d.raw)
      (s.modTile t fun y => y.modList th l.id fun l => l.modDesc d.idx fun d => { d with checked := true })) ∧
    (∃ (s u : State) (t : Fin 256) (th : Fin 8) (c : Nat) (x : Chan) (hd : Header) (l : DList) (d : Desc) (k v : Nat),
        s.tileRun t = some (c, x, hd) ∧ (s.tile t).headDesc th = some (l, d) ∧ d.checked = false ∧
        checkDesc s x (l.base + 64 * d.idx) d.raw = (k, v) ∧ k ≠ 0 ∧ u = descFault t th l d.idx (DescF.kind d.raw) k v s) ∧
    (∃ (s u : State) (t : Fin 256) (th : Fin 8) (k : Nat) (i : Instr) (l : DList) (d : Desc), ((k = 1 ∧ i = .load t th ∨ k = 2 ∧ i = .store t th ∨ k = 3 ∧ i = .copy t th ∨ k = 6 ∧ i = .wgbUnload t th
      ∨ k = 7 ∧ i = .wgbLoad t th ∨ k = 8 ∧ i = .atomic t th)) ∧ s.ready t th k = some (l, d) ∧ u = issuePieces t th l d ((descPieces (s.tileRelaxed t) d.raw).drop d.issued) s ∧ Calm u) ∧
    (∃ (s u : State) (t : Fin 256) (th : Fin 8) (l : DList) (d : Desc), s.ready t th 4 = some (l, d) ∧ d.opened = true ∧
        u = issuePieces t th l d ((descPieces (s.tileRelaxed t) d.raw).drop d.issued) s ∧ Calm u) ∧
    (∃ (s : State) (t : Fin 256) (th : Fin 8) (l : DList) (d : Desc), s.ready t th 4 = some (l, d) ∧ d.opened = false ∧
        Calm s) ∧
    (∃ (s : State) (t : Fin 256) (th : Fin 8) (c : Nat) (x : Chan) (hd : Header) (l : DList) (d : Desc), s.tileRun t = some (c, x, hd) ∧ s.ready t th 4 = some (l, d) ∧ Calm s ∧ (∀ k ∈ mcastRanks d.raw, ∃ v, s.recvOf x (DescF.mtag d.raw) k = some v ∧ v.2.rows = DescF.rows d.raw
      ∧ v.2.rowBytes = DescF.rowBytes d.raw)) ∧
    (∃ (s : State) (t : Fin 256) (th : Fin 8) (l : DList) (d : Desc), s.ready t th 5 = some (l, d) ∧ Calm s) ∧
    (∃ (s s1 u : State) (t : Fin 256) (n : Nat) (r : Req) (d : List Byte) (m : BitVec 64),
        SMap.lookup (s.tile t).reqs n = some r ∧ s.reqDesc t r = some d ∧ s.reqReady t n r = true ∧
        fabricCross (if r.sent then [] else reqPath t r) s = (none, m, s1) ∧
        u = dropInPlace (pageKey (s.tilePart t) r.va) (moveReq t n r d m s1) ∧ Calm u) ∧
    (∃ (s s1 : State) (t : Fin 256) (n k : Nat) (r : Req) (d : List Byte) (m : BitVec 64),
        SMap.lookup (s.tile t).reqs n = some r ∧ s.reqDesc t r = some d ∧ s.reqReady t n r = true ∧
        fabricCross (if r.sent then [] else reqPath t r) s = (some k, m, s1) ∧ Calm (fabricFault k s1)) := by
  refine ⟨?_, ?_, ?_, ?_, ?_, ?_, ?_, ?_, ?_, ?_, ?_⟩
  · exact ⟨atWord 0x20, 0, 0, 0x20, _, rfl, ⟨by decide +kernel, by decide, by decide, by decide +kernel, .inr rfl⟩, by decide +kernel, by decide +kernel⟩
  · exact by
      obtain ⟨b, s', h, hc⟩ := lineGood
      exact ⟨lineState, s', 0, 0, 0, run0, ⟨false, 1, 64, 64, List.replicate 8 0⟩, ⟨0, 0, 0, 0, 1, 0, [], false⟩, 1, 0, b, by decide +kernel, by decide +kernel, rfl, by decide +kernel, by decide,
        by decide +kernel, rfl, by decide +kernel, h, hc⟩
  · exact ⟨descState 1 false false, _, 0, 0, 0, run0, ⟨false, 1, 64, 64, List.replicate 8 0⟩, desc0List 1 false false, desc0 1 false false, 0, by decide +kernel, by decide +kernel, rfl, by decide +kernel, .inr rfl, rfl⟩
  · exact ⟨descState 15 false false, _, 0, 0, 0, run0, ⟨false, 1, 64, 64, List.replicate 8 0⟩, desc0List 15 false false, desc0 15 false false, 1, 0, by decide +kernel, by decide +kernel, rfl, by decide +kernel, by decide, rfl⟩
  · exact ⟨descState 1 true false, _, 0, 0, 1, _, desc0List 1 true false, desc0 1 true false, .inl ⟨rfl, rfl⟩, by decide +kernel, rfl, .inr (by decide +kernel)⟩
  · exact ⟨descState 4 true true, _, 0, 0, desc0List 4 true true, desc0 4 true true, by decide +kernel, rfl, rfl, .inr (by decide +kernel)⟩
  · exact ⟨descState 4 true false, 0, 0, desc0List 4 true false, desc0 4 true false, by decide +kernel, rfl, .inr rfl⟩
  · exact by
      refine ⟨castState, 0, 0, 0, run0, ⟨false, 1, 64, 64, List.replicate 8 0⟩, desc0List 4 true false, desc0 4 true false, by decide +kernel, by decide +kernel, .inr rfl, fun k hk => ?_⟩
      have hl : mcastRanks (descRaw 4) = [0] := by decide +kernel
      have hk : k = 0 := by
        change k ∈ mcastRanks (descRaw 4) at hk
        rw [hl] at hk
        exact List.mem_singleton.1 hk
      subst hk
      exact ⟨(0, ⟨0, 1, 0, 0, 1, 64, 0, 0, 0⟩), by decide +kernel, by decide +kernel, by decide +kernel⟩
  · exact ⟨descState 5 true false, 0, 0, desc0List 5 true false, desc0 5 true false, by decide +kernel, .inr rfl⟩
  · exact ⟨reqState, (fabricCross [0] reqState).2.2, _, 0, 0, req0, descRaw 1, (fabricCross [0] reqState).2.1, by decide +kernel, by decide +kernel, by decide +kernel,
        Prod.ext (by decide +kernel) rfl, rfl, .inr (by decide +kernel)⟩
  · exact ⟨fabBad, (fabricCross [0] fabBad).2.2, 0, 0, 0, req0, descRaw 1, (fabricCross [0] fabBad).2.1, by decide +kernel, by decide +kernel, by decide +kernel, fabBadCross, fabBadCalm⟩

end W14

namespace W15

def chanRelaxed : Chan := { chan0 3 with relaxed := true }

def memState : State := memOn (withChan chanRelaxed up)

def fxBase : State := memOn (withChan (chan0 3) up)

def fxState : State := { fxBase with mem := { fxBase.mem with fx := [(0, ⟨0, 0, [0], []⟩)] } }

def gReq : Req := ⟨0, 0, 0, 0, 0, 64, .hbm 0, .tile 0, 0, true, [0], false, none, false⟩

def gTick : Ticket := ⟨0, 0, 0, bankId 0, 0, .write, true⟩

def gBase : State := withPage [] (running { listTile 2 true false with reqs := [(0, gReq)] })

def gState : State := { gBase with mem := { gBase.mem with ingress := [(0, [gTick])] } }

def gSlot : State := { gState with mem := countSlot 0 (some 0) (gState.mem.freeStep 0) }

def gBad : State := { gState with rse := { Rse.reset with inj := [(0, ⟨5, 0, 0, 1, 5, 0, false, true⟩)] }, spine := { Spine.reset with newStag := true } }

def gBadSlot : State := { gBad with mem := countSlot 0 (some 0) (gBad.mem.freeStep 0) }

theorem gBadCross : fabricCross (grantPath gTick gReq) gBadSlot = (some 0, (fabricCross (grantPath gTick gReq) gBadSlot).2.1, (fabricCross (grantPath gTick gReq) gBadSlot).2.2) := Prod.ext (by decide +kernel) rfl

def hotState : State := { memOn up with mem := { (memOn up).mem with bankQ := [(10239, List.replicate 256 ⟨0, 0, 2, 10239, 3, .read, true⟩)] } }

def wroteState : State := { memOn up with mem := { (memOn up).mem with written := [shareOf (hbmEnd - 256)] } }

/-- What the clauses of MemoryEventsTakeEffect assume can be met. -/
theorem witness_MemoryEventsTakeEffect :
    (∃ (s s1 u v : State) (c : Fin 20) (p step : Nat) (q : Ticket) (r : Req) (d : List Byte) (dmg : BitVec 64),
        s.mem.freeSlot c = false ∧ s.mem.grantee c = some (p, step) ∧ s.mem.waiting c p = some q ∧
        SMap.lookup (s.tile q.tile).reqs q.req = some r ∧ s.reqDesc q.tile r = some d ∧
        fabricCross (grantPath q r) { s with mem := countSlot c (some p) (s.mem.freeStep c) } = (none, dmg, s1) ∧
        v = grantTicket c p step q s1 ∧ u = serveTicket q r d dmg v ∧ Calm u) ∧
    (∃ (s s1 : State) (c : Fin 20) (p step die : Nat) (q : Ticket) (r : Req) (d : List Byte) (dmg : BitVec 64),
        s.mem.freeSlot c = false ∧ s.mem.grantee c = some (p, step) ∧ s.mem.waiting c p = some q ∧
        SMap.lookup (s.tile q.tile).reqs q.req = some r ∧ s.reqDesc q.tile r = some d ∧
        fabricCross (grantPath q r) { s with mem := countSlot c (some p) (s.mem.freeStep c) } = (some die, dmg, s1) ∧
        Calm (fabricFault die s1)) ∧
    (∃ (s : State) (c : Fin 20), (s.mem.freeSlot c = true ∨ s.mem.grantee c = none)) ∧
    (∃ (s : State) (pa : BitVec 40) (len : Nat) (data : List Byte) (bad : Bool) (x : LineReport), x.tracker = false ∧
        s.lineOk pa.toNat data.length = true) ∧
    (∃ (s : State) (pa : BitVec 40) (len : Nat) (data : List Byte) (bad : Bool) (x : LineReport), x.tracker = false ∧
        s.lineOk pa.toNat len = true ∧ Healthy s pa.toNat len ∧
        ((s.reachesStack pa.toNat = false ∨ lineUncorrected x pa.toNat len = []))) ∧
    (∃ (s : State) (pa : BitVec 40) (len : Nat) (data : List Byte) (bad : Bool) (x : LineReport), x.tracker = false ∧
        s.lineOk pa.toNat len = true ∧ Healthy s pa.toNat len ∧ s.reachesStack pa.toNat = true ∧
        lineUncorrected x pa.toNat len ≠ []) ∧
    (∃ (s : State) (pa : BitVec 40) (len : Nat) (data : List Byte) (write bad : Bool) (x : LineReport),
        x.tracker = true ∧ s.lineOk pa.toNat (if write then data.length else len) = true ∧
        Calm (reportFault (ctrlRecord 0x04 St.uncorrectable pa.toNat) s)) ∧
    (∃ (s : State) (bank : Fin 10240) (start peak : Nat) (part : Fin 4), s.mem.episodeOk bank peak part = true ∧
        start ≤ s.spine.tick) ∧
    (∃ (s : State) (bank : Fin 10240), s.mem.depth bank < 256) ∧
    (∃ (s : State) (errors : List Nat), s.mem.trained = true ∧ Ctrs.get s.mem.ctrs 6 ≤ ctrMax) := by
  refine ⟨?_, ?_, ?_, ?_, ?_, ?_, ?_, ?_, ?_, ?_⟩
  · exact by
      refine ⟨gState, (fabricCross (grantPath gTick gReq) gSlot).2.2, _, _, 0, 0, 0, gTick, gReq, descRaw 2,
          (fabricCross (grantPath gTick gReq) gSlot).2.1, ?_, ?_, ?_, ?_, ?_, Prod.ext (by decide +kernel) rfl, rfl,
          rfl, .inr (by decide +kernel)⟩ <;>
        decide +kernel
  · exact by
      refine ⟨gBad, (fabricCross (grantPath gTick gReq) gBadSlot).2.2, 0, 0, 0, 0, gTick, gReq, descRaw 2,
          (fabricCross (grantPath gTick gReq) gBadSlot).2.1, ?_, ?_, ?_, ?_, ?_, gBadCross,
          .inl (by decide +kernel)⟩ <;>
        decide +kernel
  · exact ⟨up, 0, .inr (by decide +kernel)⟩
  · exact ⟨memOn up, BitVec.ofNat 40 (hbmEnd - 256), 0, List.replicate 256 0, false, LineReport.good, rfl, by decide +kernel⟩
  · exact ⟨memOn up, BitVec.ofNat 40 (hbmEnd - 256), 256, [], false, ⟨9, 2, 1, false⟩, rfl, by decide +kernel, healthy_of _ _ _ ⟨rfl, rfl, rfl, rfl, fun _ => rfl⟩, .inl (by decide +kernel)⟩
  · exact ⟨wroteState, BitVec.ofNat 40 (hbmEnd - 256), 256, [], false, ⟨5, 0, 0, false⟩, rfl, by decide +kernel, healthy_of _ _ _ ⟨rfl, rfl, rfl, rfl, fun _ => rfl⟩, by decide +kernel, by decide +kernel⟩
  · exact ⟨memOn up, BitVec.ofNat 40 (hbmEnd - 256), 256, [], false, false, ⟨0, 0, 0, true⟩, rfl, by decide +kernel, .inr (by decide +kernel)⟩
  · exact ⟨hotState, 10239, 0, 256, 3, by decide +kernel, by decide⟩
  · exact ⟨hotState, 0, by decide +kernel⟩
  · exact ⟨memOn up, [], rfl, by decide⟩

/-- What the clauses of MemorySideOperationsTakeEffect assume can be met. -/
theorem witness_MemorySideOperationsTakeEffect :
    (∃ (s : State) (pa : BitVec 40) (data : List Byte), s.wordsOk pa.toNat data.length 4 = true ∧
        Healthy s (pa.toNat / 256 * 256) 256) ∧
    (∃ (s : State) (pa : BitVec 40) (data : List Byte), s.wordsOk pa.toNat data.length 8 = true ∧
        Healthy s (pa.toNat / 256 * 256) 256) ∧
    (∃ (s : State) (pa : BitVec 40) (data : List Byte), s.wordsOk pa.toNat data.length 4 = true ∧
        Healthy s (pa.toNat / 256 * 256) 256) ∧
    (∃ (s : State) (i : Instr) (wide : Bool) (w : Nat) (c : Fin 4096) (x : Chan) (pa : BitVec 40) (data : List Byte),
        ((wide = true ∧ w = 4 ∧ i = .fadd32 c pa data ∨ wide = false ∧ w = 2 ∧ i = .faddbf16 c pa data)) ∧
        s.chan c = some x ∧ x.relaxed = true ∧ s.wordsOk pa.toNat data.length w = true ∧
        s.mem.fxFind (pa.toNat / 2 ^ 16) = none ∧ Healthy s (pa.toNat / 256 * 256) 256) ∧
    (∃ (s : State) (i : Instr) (wide : Bool) (w : Nat) (c : Fin 4096) (x : Chan) (pa : BitVec 40) (data : List Byte)
      (r b n : Nat), ((wide = true ∧ w = 4 ∧ i = .fadd32 c pa data ∨ wide = false ∧ w = 2 ∧ i = .faddbf16 c pa data)) ∧ s.chan c = some x ∧ x.relaxed = false ∧ data.length = n * w ∧ s.wordsOk pa.toNat (8 * n) 8 = true ∧ s.mem.fxFind (pa.toNat / 2 ^ 16) = some (r, b) ∧ Healthy s (pa.toNat / 256 * 256) 256) ∧
    (∃ (s : State) (i : Instr) (wide : Bool) (pa : BitVec 40) (r b : Nat),
        ((wide = true ∧ i = .final32 pa ∨ wide = false ∧ i = .finalbf16 pa)) ∧ s.mem.trained = true ∧
        s.mem.selfRefresh = false ∧ pa.toNat % 2 ^ 16 = 0 ∧ s.mem.fxFind (pa.toNat / 2 ^ 16) = some (r, b) ∧
        Healthy s pa.toNat (2 ^ 16)) ∧
    (∃ (s s1 : State) (i : Instr) (c : Fin 4096) (x : Chan) (pa : BitVec 40) (wide : Bool) (code sel w v cmp old : Nat)
      (a b : BitVec 64) (sl : Fin 3) (hi : Bool), ((code = 1 ∧ sel = 0 ∧ cmp = 0 ∧ i = .atomicIntAdd c pa wide a
      ∨ code = 2 ∧ sel = 0 ∧ cmp = 0 ∧ i = .atomicSwap c pa wide a
      ∨ code = 3 ∧ sel = 0 ∧ cmp = b.toNat % 2 ^ (8 * w) ∧ i = .atomicCompareAndSwap c pa wide a b
      ∨ code = 4 ∧ sel = sl.val ∧ cmp = 0 ∧ i = .atomicAndOrXor c pa wide sl a
      ∨ code = 5 ∧ sel = (if hi then 1 else 0) ∧ cmp = 0 ∧ i = .atomicMinMax c pa wide hi a
      ∨ code = 6 ∧ sel = 0 ∧ cmp = 0 ∧ wide = false ∧ i = .atomicFloatAdd c pa (a.setWidth 32))) ∧ w = (if wide then 8 else 4) ∧ v = a.toNat % 2 ^ (8 * w) ∧ s.chan c = some x ∧ s.wordsOk pa.toNat w w = true ∧ s.mem.fxFind (pa.toNat / 2 ^ 16) = none ∧ s.rse.inj = [] ∧ ((∀ e, SMap.lookup s.mem.shc (pa.toNat / 256) = some e → e.mask = 0)) ∧ s1 = (if (SMap.lookup s.mem.shc (pa.toNat / 256)).isNone then shcFill (pa.toNat / 256) x.part (taintPa pa.toNat w s)
      else shcTouch (pa.toNat / 256) id ((taintPa pa.toNat w s).memCtr fun c => Ctrs.wrap c 11 1)) ∧ pa.toNat / 32 ∉ s1.mem.poison ∧ old = leNat (Mem.readN s1.mem.bytes pa.toNat w)) := by
  refine ⟨?_, ?_, ?_, ?_, ?_, ?_, ?_⟩
  · exact ⟨memOn up, 0, List.replicate 256 0, by decide +kernel, healthy_of _ _ _ ⟨rfl, rfl, rfl, rfl, fun _ => rfl⟩⟩
  · exact ⟨memOn up, 0, List.replicate 256 0, by decide +kernel, healthy_of _ _ _ ⟨rfl, rfl, rfl, rfl, fun _ => rfl⟩⟩
  · exact ⟨memOn up, 0, List.replicate 256 0, by decide +kernel, healthy_of _ _ _ ⟨rfl, rfl, rfl, rfl, fun _ => rfl⟩⟩
  · exact ⟨memState, .fadd32 0 0 [0, 0, 0, 0], true, 4, 0, chanRelaxed, 0, [0, 0, 0, 0], .inl ⟨rfl, rfl, rfl⟩, by decide +kernel, rfl, by decide +kernel, by decide +kernel, healthy_of _ _ _ ⟨rfl, rfl, rfl, rfl, fun _ => rfl⟩⟩
  · exact ⟨fxState, .faddbf16 0 0 [0, 0], false, 2, 0, chan0 3, 0, [0, 0], 0, 0, 1, .inr ⟨rfl, rfl, rfl⟩, by decide +kernel, rfl, rfl, by decide +kernel, by decide +kernel, healthy_of _ _ _ ⟨rfl, rfl, rfl, rfl, fun _ => rfl⟩⟩
  · exact ⟨fxState, .final32 0, true, 0, 0, 0, .inl ⟨rfl, rfl⟩, rfl, rfl, by decide, by decide +kernel, healthy_of _ _ _ ⟨rfl, rfl, rfl, rfl, fun _ => rfl⟩⟩
  · exact ⟨memState, _, .atomicIntAdd 0 0 true 1, 0, chanRelaxed, 0, true, 1, 0, 8, 1, 0, _, 1, 0, 0, false, .inl ⟨rfl, rfl, rfl, rfl⟩, rfl, by decide, by decide +kernel, by decide +kernel, by decide +kernel, rfl, nofun, rfl, by decide +kernel, rfl⟩

end W15

namespace W16

def farRef : FarRef := ⟨false, 1, 0, 0⟩

def fullQuota : SMap Quota := [(0, { Quota.reset with localMax := 0x10000, hostSpill := true })]

def withPtu (f : Ptu → Ptu) (s : State) : State := { memOn s with ptu := f s.ptu }

def copied : Page := { page 0 with farcopy := true, far := some farRef }

def farPage : Page := { page 0 with tier := 2, far := some farRef }

def xfer0 (host : Bool) (pieces : NSet) : Xfer := ⟨.toLocal, 0, false, ⟨host, 1, 0, 0⟩, pieces, [], [], none⟩

def lent0 (reclaim : Bool) : Lent := ⟨0x200000, 0, List.range 32, [], reclaim, []⟩

def wants (s : State) : State := { s with tiles := [(0, { Tile.reset with lateLines := [(0, (Stall.frame, 0))] })] }

def evictFar : State := wants <| withPtu (fun q => { q with pages := [(0, copied)], quota := fullQuota }) up

def evictHost : State := wants <| withPtu (fun q => { q with pages := [(0, page 0)], quota := fullQuota, regions := [(0, [(0x100000, 0x10000)])] }) up

def movedIn : State := withPtu (fun q => { q with pages := [(0, farPage)], xfers := [(0, xfer0 false (List.range 16))], written := [farRef] }) up

def farXfer (host : Bool) : State := herd2 (withPtu (fun q => { q with pages := [(0, farPage)], xfers := [(0, xfer0 host [])] }) up)

def lender (reclaim : Bool) : State := herd2 (withPtu (fun q => { q with lent := [(0, lent0 reclaim)] }) up)

def lostOne : State := withPtu (fun q => { q with pages := [(0, farPage)], bound := 0 }) up

def recalled (ps : SMap Page) : State := withPtu (fun q => { q with pages := ps, reclaims := [(2 ^ 16, ⟨0⟩)], written := [farRef], bound := 0 }) up

theorem placed_out : placeOut (keyPart 0) pageSize evictHost = some (⟨true, 0, 0, 0⟩, evictHost) := by
  have h : placeFar (keyPart 0) pageSize pageSize evictHost = none := by rfl
  unfold placeOut
  rw [h]
  rfl

def evicting (r : FarRef) : Xfer := ⟨.evict, 0, false, r, [], [], [], some r⟩

def leaving (width : Nat) : State := { withPtu (fun q => { q with pages := [(0, page 0)], regions := [(0, [(0x100000, 0x10000)])], xfers := [(0, evicting ⟨true, 0, 0, 0⟩)] }) up with hif := { Hif.reset with pcieWidth := width } }

def capped : State := { lender false with mem := { (lender false).mem with regs := [(0, { RegRec.reset with ceil := 1 })] } }

def noticed : State := withPtu (fun q => { q with pages := [(0, page 0)], xfers := [(0, evicting farRef)] }) up

/-- What the clauses of PagingEventsTakeEffect assume can be met. -/
theorem witness_PagingEventsTakeEffect :
    (∃ (s : State) (part : Fin 4) (k : Nat) (p : Page), ∃ r, s.pageLeaving = none ∧
        ((s.accessWants part = true ∨ s.reclaimWants part = true)) ∧ s.takeFrame part 1 = none ∧
        s.oldest (s.evictable part 1) = some (k, p) ∧ SMap.lookup s.ptu.pages k = some p ∧ p.farcopy = true ∧
        p.far = some r) ∧
    (∃ (s : State) (part : Fin 4) (k : Nat) (p : Page), ∃ r v, s.pageLeaving = none ∧
        ((s.accessWants part = true ∨ s.reclaimWants part = true)) ∧ s.takeFrame part 1 = none ∧
        s.oldest (s.evictable part 1) = some (k, p) ∧ SMap.lookup s.ptu.pages k = some p ∧ p.farcopy = false ∧
        placeOut (keyPart k) pageSize s = some (r, v)) ∧
    (∃ (s : State) (part : Fin 4) (k : Nat) (p : Page) (r : FarRef), s.pageLeaving = some (k, r) ∧
        (SMap.lookup s.ptu.xfers k).bind (·.dest) = some r ∧ SMap.lookup s.ptu.pages k = some p ∧ s.placeUp r = false) ∧
    (∃ (s : State) (part : Fin 4) (k : Nat) (p : Page) (r : FarRef), s.pageLeaving = some (k, r) ∧
        (SMap.lookup s.ptu.xfers k).bind (·.dest) = some r ∧ SMap.lookup s.ptu.pages k = some p ∧ s.placeUp r = true) ∧
    (∃ (s : State) (part : Fin 4) (vpn : Nat) (x : Xfer) (p : Page), SMap.lookup s.ptu.xfers (vpnKey part vpn) = some x ∧
        SMap.lookup s.ptu.pages (vpnKey part vpn) = some p ∧ p.big = false ∧ x.kind = .toLocal ∧ 16 ≤ x.pieces.length ∧
        s.farWritten x.far = true ∧ x.bad = []) ∧
    (∃ (s : State) (link : Fin 32) (part : Fin 4) (vpn : Nat) (piece : Fin 16) (data : List Byte) (bad : Bool) (x : Xfer),
        SMap.lookup s.ptu.xfers (vpnKey part vpn) = some x ∧ x.far.host = false ∧
        link.val ∈ s.linkSet (s.lenderPos x.far.who) ∧ data.length = 4096) ∧
    (∃ (s : State) (part : Fin 4) (vpn : Nat) (data : List Byte) (error poisoned : Bool) (x : Xfer),
        SMap.lookup s.ptu.xfers (vpnKey part vpn) = some x ∧ x.far.host = true ∧ s.hif.pcieWidth ≠ 0 ∧
        data.length = pageSize) ∧
    (∃ (s : State) (link : Fin 32) (window off len : Nat) (data : List Byte) (bad : Bool) (w : Lent),
        SMap.lookup s.ptu.lent window = some w ∧ (s.link link).st = 3 ∧ data ≠ [] ∧ off + data.length ≤ w.size ∧
        w.reclaim = false ∧ off % pageSize + data.length ≤ pageSize ∧ chargeWindow w off data.length s ≠ none) ∧
    (∃ (s : State) (link : Fin 32) (window off len : Nat) (data : List Byte) (bad : Bool) (w : Lent),
        SMap.lookup s.ptu.lent window = some w ∧ (s.link link).st = 3 ∧ s.links.isolated = false ∧ 0 < len ∧
        off + len ≤ w.size ∧ off % pageSize + len ≤ pageSize ∧ chargeWindow w off len s ≠ none ∧
        Healthy s (w.pa off) len) ∧
    (∃ (s : State) (link : Fin 32) (write : Bool) (window off len : Nat) (data : List Byte) (bad : Bool) (w : Lent),
        SMap.lookup s.ptu.lent window = some w ∧ chargeWindow w off (if write then data.length else len) s = none) ∧
    (∃ (s : State) (borrower : Fin 1024) (window : Nat) (w : Lent), SMap.lookup s.ptu.lent window = some w ∧
        w.reclaim = true) ∧
    (∃ (s : State) (lender window k : Nat) (p : Page), s.reclaiming lender window = false ∧
        s.windowPages lender window = [(k, p)] ∧ SMap.lookup s.ptu.pages k = some p ∧
        ((∀ x ∈ s.ptu.xfers, x.2.kind = .evict → ∀ r, x.2.dest = some r → r.inWindow lender window = false))) ∧
    (∃ (s : State) (lender window k : Nat) (p : Page) (x : Xfer) (r : FarRef), s.reclaiming lender window = false ∧
        s.windowPages lender window = [] ∧ SMap.lookup s.ptu.pages k = some p ∧ SMap.lookup s.ptu.xfers k = some x ∧
        x.kind = .evict ∧ x.dest = some r ∧ r.inWindow lender window = true) ∧
    (∃ (s : State) (lender window k f : Nat) (p : Page) (r : FarRef) (data : List Byte),
        s.reclaiming lender window = true ∧ s.nextBlock lender window = some (.page k p) ∧
        SMap.lookup s.ptu.pages k = some p ∧ p.far = some r ∧ p.big = false ∧
        placeFar (keyPart k) pageSize pageSize s = none ∧ s.takeFrame (keyPart k) 1 = some f ∧
        s.copyWritten r 1 = true ∧ data.length = pageSize ∧ Quiet s ∧ Calm s) ∧
    (∃ (s : State) (lender window : Nat) (data : List Byte) (bad : Bool), s.reclaiming lender window = true ∧
        s.windowPages lender window = [] ∧ s.windowLeaves lender window = [] ∧
        ((∀ x ∈ s.ptu.xfers, ∀ r, x.2.dest = some r → r.inWindow lender window = false)) ∧ Quiet s ∧ Calm s) ∧
    (∃ (s : State) (lender window k : Nat) (p : Page) (r : Reclaim),
        SMap.lookup s.ptu.reclaims (lender * 2 ^ 16 + window) = some r ∧ r.startMs + s.ptu.bound ≤ s.pcm.ms ∧
        s.windowPages lender window = [(k, p)] ∧ s.windowLeaves lender window = [] ∧
        SMap.lookup s.ptu.pages k = some p ∧ Quiet s ∧ Calm s) := by
  refine ⟨?_, ?_, ?_, ?_, ?_, ?_, ?_, ?_, ?_, ?_, ?_, ?_, ?_, ?_, ?_, ?_⟩
  · exact ⟨evictFar, 0, 0, copied, farRef, by decide +kernel, .inl (by decide +kernel), by decide +kernel, by decide +kernel, rfl, rfl, rfl⟩
  · exact ⟨evictHost, 0, 0, page 0, ⟨true, 0, 0, 0⟩, evictHost, by decide +kernel, .inl (by decide +kernel), by decide +kernel, by decide +kernel, rfl, rfl, placed_out⟩
  · exact ⟨leaving 0, 0, 0, page 0, ⟨true, 0, 0, 0⟩, by decide +kernel, by decide +kernel, rfl, by decide +kernel⟩
  · exact ⟨leaving 16, 0, 0, page 0, ⟨true, 0, 0, 0⟩, by decide +kernel, by decide +kernel, rfl, by decide +kernel⟩
  · exact ⟨movedIn, 0, 0, xfer0 false (List.range 16), farPage, by decide +kernel, by decide +kernel, rfl, rfl, by decide, by decide +kernel, rfl⟩
  · exact ⟨farXfer false, 0, 0, 0, 15, List.replicate 4096 0, false, xfer0 false [], by decide +kernel, rfl, by decide +kernel, List.length_replicate⟩
  · exact ⟨{ farXfer true with hif := { Hif.reset with pcieWidth := 16 } }, 0, 0, List.replicate pageSize 0, false, false, xfer0 true [], by decide +kernel, rfl, (fun h => by cases h), List.length_replicate⟩
  · exact ⟨lender false, 0, 0, 0x1FFFFF, 0, [1], false, lent0 false, rfl, by decide +kernel, by decide, by decide, rfl, by decide, by rw [← Option.isSome_iff_ne_none]; decide +kernel⟩
  · exact ⟨lender true, 0, 0, 0x1FFFFF, 1, [], false, lent0 true, rfl, by decide +kernel, rfl, by decide, by decide, by decide, by rw [← Option.isSome_iff_ne_none]; decide +kernel, healthy_of _ _ _ ⟨rfl, rfl, rfl, rfl, fun _ => rfl⟩⟩
  · exact ⟨capped, 0, true, 0, 0, 0, [1], false, lent0 false, rfl, by decide +kernel⟩
  · exact ⟨lender true, 1, 0, lent0 true, rfl, rfl⟩
  · exact ⟨lostOne, 1, 0, 0, farPage, by decide +kernel, by decide +kernel, rfl, fun x h => by cases h⟩
  · exact ⟨noticed, 1, 0, 0, page 0, evicting farRef, farRef, by decide +kernel, by decide +kernel, rfl, rfl, rfl, rfl, by decide +kernel⟩
  · exact ⟨recalled [(0, farPage)], 1, 0, 0, 0, farPage, farRef, List.replicate pageSize 0, by decide +kernel, by decide +kernel, rfl, rfl, rfl, by rfl, by decide +kernel, by decide +kernel,
        List.length_replicate, quiet_of _ rfl, .inr rfl⟩
  · exact ⟨recalled [], 1, 0, [], false, by decide +kernel, by decide +kernel, by decide +kernel, (fun x h => by cases h), quiet_of _ rfl, .inr rfl⟩
  · exact ⟨recalled [(0, farPage)], 1, 0, 0, farPage, ⟨0⟩, rfl, by decide +kernel, by decide +kernel, by decide +kernel, rfl, quiet_of _ rfl, .inr rfl⟩

end W16

namespace W17

def ring0 : Ring := ⟨0, 2, 0, 1, 1, 0, 0, 0x10000, 0x10000, 0x20000, 0x30000⟩

def leaf0 : Leaf := ⟨0, 1, 2, false, false, false, 16, 0, none⟩

def poolA : LeafPool := ⟨0, 0, 5, 64, 0, 0, 0x8000, [0]⟩

def slotA : Slot := { Slot.of [] with layers := 1, heads := 1, maxTokens := 64, ring := some ring0, lens := [(0, 1)], leaves := [(0, leaf0)] }

def slotB : Slot := { slotA with lens := [(0, 16)] }

def poolB : LeafPool := { poolA with frames := 1 }

def attnWord (k : Nat) : BitVec 128 := BitVec.ofNat 128 (0x40 + k * 2 ^ 8)

def withLeafs (x : Slot) (p : LeafPool) (s : State) : State := { s with leafs := { s.leafs with pools := [(0, p)], slots := [(0, x)] } }

def attnState (k : Nat) (d : List Byte) (x : Slot) (p : LeafPool) : State :=
  withLeafs x p (withPage [] (running { tile0 ready0 (attnWord k) with scratch := Mem.writeN [] 0 d }))

theorem attnRuns_of (k : Nat) (d : List Byte) (x : Slot) (p : LeafPool) (h : At.kind (attnWord k) = k
    ∧ (baseAddr (((attnState k d x p).tile 0).thread 0) (At.dg (attnWord k)) (At.doff (attnWord k)) = 0
      ∧ d = Mem.readN ((attnState k d x p).tile 0).scratch 0 64)
    ∧ (attnState k d x p).slot (At.slot (attnWord k)) = some x ∧ (attnState k d x p).poolOf x = some p
    ∧ ((attnState k d x p).atInsn 0 0 (attnWord k) = true ∧ Ins.op (attnWord k) = 0x40 ∧ insReserved (attnWord k) = false
      ∧ (attnState k d x p).pcGood 0 ((attnState k d x p).nextPc 0 0) = true)
    ∧ attnKind 0 0 (attnWord k) d (attnState k d x p) = 0 ∧ attnVas k d x p = []) : AttnRuns (attnState k d x p) 0 0 (attnWord k) k d x p := by
  obtain ⟨h1, ⟨h2, h3⟩, h4, h5, ⟨h6, h7, h8, h9⟩, h10, h11⟩ := h
  refine ⟨h1, ⟨0, h2.symm, by decide, by decide, h3⟩, h4, h5, ⟨⟨h6, h7, h8, h9, .inr rfl⟩, rfl, rfl⟩, ?_, rfl, rfl, fun _ => rfl, h10, fun v hv => by rw [h11] at hv; cases hv⟩
  intro q hq
  obtain rfl := List.mem_singleton.1 hq
  rfl

/-- A descriptor's bytes from some of its fields. -/
def attnD (nheads flags nleaves addr0 addr1 stride0 stride1 : Nat) : List Byte :=
  natLe 3 0 ++ natLe 1 nheads ++ natLe 1 0 ++ natLe 1 flags ++ natLe 6 0 ++ natLe 4 nleaves ++ natLe 8 0 ++ natLe 4 addr0 ++ natLe 4 addr1
    ++ natLe 4 stride0 ++ natLe 4 stride1 ++ natLe 24 0

def dHead : List Byte := attnD 1 0 0 0 0 0 0

def dKeys : List Byte := attnD 0 0 1 0 0 0 0

def dFinal : List Byte := attnD 0 0 0 0x1000 0 128 0

def dSend : List Byte := attnD 1 0 1 0 0 0 0

def bwdKeys : List (Option Key) × Bool × State := KeySrc.keys ⟨0, poolA, slotA, 0, 0, none⟩ 0 1 (attnState kBwd dKeys slotA poolA)

def bwdB : List (Option Key) := (bwdKeys.1.drop (128 * 0)).take 128

theorem bwdBlocks : keyBlocks bwdKeys.1 = [bwdB] := by
  have h : bwdKeys.1.length = 16 := by decide +kernel
  unfold keyBlocks
  rw [h]
  rfl

theorem sendE : (quireOf dSend slotA poolA ring0 (attnState kQsend dSend slotA poolA)).isSome = true := by decide +kernel

def sent0 : List Byte × Bool × State := (quireOf dSend slotA poolA ring0 (attnState kQsend dSend slotA poolA)).get sendE

theorem sent_good : quireOf dSend slotA poolA ring0 (attnState kQsend dSend slotA poolA) = some (sent0.1, false, sent0.2.2) := by
  have h : sent0.2.1 = false := by decide +kernel
  rw [← h]
  exact (Option.some_get sendE).symm

def leafState (x : Slot) (p : LeafPool) : State := { withLeafs x p up with ptu := { Ptu.reset with pages := [(0, page 0), (1, page 1)] } }

def quireHead : List Byte := natLe 3 0 ++ [5] ++ natLe 60 0

def slotFar : Slot := { slotA with leaves := [(0, { leaf0 with farcopy := true, far := some ⟨false, 1, 0, 0⟩ })] }

def slotOut : Slot := { slotA with leaves := [(0, { leaf0 with tier := 2, motion := true, far := some ⟨false, 1, 0, 0⟩ })] }

def stalled : State := leafState { slotA with stalls := [(0, (0, 0, 0, 1))] } poolA

def slotSpill : Slot := { slotA with spillHost := true }

def spillState : State := { leafState slotSpill { poolA with lowWater := 64 } with ptu := { Ptu.reset with pages := [(0, page 0), (1, page 1)], regions := [(0, [(0x100000, 0x10000)])] } }

theorem spill_place : placeLeaf poolA true spillState = some (⟨true, 0, 0, 0⟩, spillState) := by
  have h : placeFar poolA.part poolA.leafBytes 64 spillState = none := by rfl
  unfold placeLeaf
  rw [h]
  rfl

def outLeaf (width : Nat) : State :=
  { leafState slotA poolA with leafs := { (leafState slotA poolA).leafs with evicting := [(0, 0, ⟨true, 0, 0, 0⟩)] }, hif := { Hif.reset with pcieWidth := width } }

/-- What the clauses of AttentionOperationsTakeEffect assume can be met. -/
theorem witness_AttentionOperationsTakeEffect :
    (∃ (s : State) (t : Fin 256) (th : Fin 8) (w : BitVec 128) (d : List Byte) (x : Slot) (p : LeafPool), AttnRuns s t th w kAppend d x p ∧ x.rotDims = 0 ∧ ((List.range (At.nheads d)).map fun i => newLeaves (x.len (At.layer d) (At.head0 d + i)) (At.rows d)).sum ≤ p.freeCount ∧ ((∀ i n, i < At.nheads d → n = x.len (At.layer d) (At.head0 d + i) → n % 16 ≠ 0 →
      (x.leaf (x.leafIdx (At.layer d) (At.head0 d + i) (n / 16))).tier < 2))) ∧
    (∃ (s : State) (t : Fin 256) (th : Fin 8) (w : BitVec 128) (d : List Byte) (x : Slot) (p : LeafPool) (h : Nat),
        AttnRuns s t th w kAppend d x p ∧ SMap.lookup x.stalls t = none ∧
        firstShort x (At.layer d) (At.rows d) ((List.range (At.nheads d)).map (· + At.head0 d)) p.freeCount = some h) ∧
    (∃ (s : State) (t : Fin 256) (th : Fin 8) (w : BitVec 128) (d : List Byte) (x : Slot) (p : LeafPool)
      (ks : List (Option Key)) (row : Nat → SoftRow), AttnRuns s t th w kFwd d x p ∧ x.rotDims = 0 ∧ At.src d = 0 ∧ (∀ e ∈ s.leafs.evicting, e.1 ≠ At.slot w) ∧ (∀ i ∈ namedLeaves d x [At.head0 d], (x.leaf i).tier < 2) ∧ (KeySrc.keys ⟨At.slot w, p, x, At.layer d, At.head0 d, none⟩ (At.firstLeaf d) (At.nleaves d) s).1 = ks ∧ (KeySrc.keys ⟨At.slot w, p, x, At.layer d, At.head0 d, none⟩ (At.firstLeaf d) (At.nleaves d) s).2.1 = false ∧ (∀ r, row r = (keyBlocks ks).foldl (fun y b =>
        foldRow d ((queries x [] (s.tile t).scratch d p.hd).getD r []) (rowKeys d r b) y)
      (if At.first d then ⟨negInf32, 0, List.replicate p.hd 0⟩
        else ⟨(s.tile t).vlane (At.vm d) r, (s.tile t).vlane (At.vl d) r, outRow (s.tile t).acc (At.acc d) r p.hd⟩))) ∧
    (∃ (s : State) (t : Fin 256) (th : Fin 8) (w : BitVec 128) (d : List Byte) (x : Slot) (p : LeafPool)
      (m l : Nat → BitVec 32), AttnRuns s t th w kFinal d x p ∧ attnRow (At.wideOut d) p.hd ≤ At.stride0 d ∧ At.addr1 d + 8 * At.rows d ≤ At.addr0 d ∧ (∀ r, l r = (s.tile t).vlane (At.vl d) r) ∧ (∀ r, m r = (s.tile t).vlane (At.vm d) r)) ∧
    (∃ (s : State) (t : Fin 256) (th : Fin 8) (w : BitVec 128) (d : List Byte) (x : Slot) (p : LeafPool),
        AttnRuns s t th w kPrep d x p) ∧
    (∃ (s : State) (t : Fin 256) (th : Fin 8) (w : BitVec 128) (d : List Byte) (x : Slot) (p : LeafPool)
      (ks b : List (Option Key)) (qs dOs : List (List Machine.Num)) (g : Nat → List (Option (Key × BitVec 32 × BitVec 32))), AttnRuns s t th w kBwd d x p ∧ p.hd ≤ 256 ∧ x.rotDims = 0 ∧ At.src d = 0 ∧ At.firstLeaf d + At.nleaves d ≤ 2 ^ 18 ∧ (∀ e ∈ s.leafs.evicting, e.1 ≠ At.slot w) ∧ (∀ i ∈ namedLeaves d x [At.head0 d], (x.leaf i).tier < 2) ∧ s.turnOf (x.usedBy (s.tile t).chan) 2 t = true ∧ (KeySrc.keys ⟨At.slot w, p, x, At.layer d, At.head0 d, none⟩ (At.firstLeaf d) (At.nleaves d) s).1 = ks ∧ (KeySrc.keys ⟨At.slot w, p, x, At.layer d, At.head0 d, none⟩ (At.firstLeaf d) (At.nleaves d) s).2.1 = false ∧ keyBlocks ks = [b] ∧ blockSkipped d b = false ∧ qs = queries x [] (s.tile t).scratch d p.hd ∧ dOs = (List.range (At.rows d)).map (fun r =>
      (readRow (s.tile t).scratch (At.wideIn d) (At.addr1 d + At.stride1 d * r) p.hd).map fun v => bf16Of (val32 v)) ∧ (∀ r, g r = (rowKeys d r b).map fun o => o.map fun y => (y, gradPair d ((s.tile t).vlane (At.vm d) r)
      ((s.tile t).vlane (At.vl d) r) ((s.tile t).vlane (At.vd d) r) (qs.getD r []) (dOs.getD r []) y))) ∧
    (∃ (s : State) (t : Fin 256) (th : Fin 8) (w : BitVec 128) (d : List Byte) (x : Slot) (p : LeafPool),
        AttnRuns s t th w kGfinal d x p ∧ x.rotDims = 0 ∧ attnRow (At.wideOut d) p.hd ≤ At.stride0 d ∧ At.qgrad d = true) ∧
    (∃ (s : State) (t : Fin 256) (th : Fin 8) (w : BitVec 128) (d : List Byte) (x : Slot) (p : LeafPool),
        AttnRuns s t th w kGfinal d x p ∧ x.rotDims = 0 ∧ attnRow (At.wideOut d) p.hd ≤ At.stride0 d ∧
        At.qgrad d = false ∧ At.src d = 0 ∧ attnRow (At.wideOut d) p.hd ≤ At.stride1 d ∧
        At.addr0 d + At.stride0 d * (16 * At.nleaves d) ≤ At.addr1 d) ∧
    (∃ (s : State) (t : Fin 256) (th : Fin 8) (w : BitVec 128) (a : Nat),
        a = baseAddr ((s.tile t).thread th) (At.dg w) (At.doff w) ∧ a % 64 = 0 ∧ a + 64 ≤ 0x100000 ∧
        (At.kind w = 0 ∨ 10 < At.kind w) ∧ IssuesTo s t th w 0x40 2 [] [] ∧ Quiet s ∧ s.rse.inj = [] ∧
        (s.tile t).poison = [] ∧ s.spine.newStag = true) ∧
    (∃ (s : State) (t : Fin 256) (n : Fin 4) (q : QInstr) (qs : List QInstr), Calm s ∧ (s.tile t).queue n = q :: qs ∧
        (if n = 2 then qs = [] else (s.tile t).queue 2 = []) ∧ q.ran = true ∧ s.drainWaits t q = false ∧
        (∀ m ∈ (s.tile t).queue 0, m.ran = true)) ∧
    (∃ (s : State) (t : Fin 256) (n : Fin 4) (q : QInstr) (qs : List QInstr), Calm s ∧ (s.tile t).queue n = q :: qs ∧
        (if n = 2 then qs = [] else (s.tile t).queue 2 = []) ∧ n ≠ 2 ∧ ((q.ran = false ∨ s.drainWaits t q = true))) := by
  refine ⟨?_, ?_, ?_, ?_, ?_, ?_, ?_, ?_, ?_, ?_, ?_⟩
  · exact ⟨_, 0, 0, _, dHead, slotA, poolA, attnRuns_of kAppend dHead slotA poolA (by decide +kernel), rfl, by decide +kernel, fun i n hi hn _ => by
        have h : i < 1 := hi
        obtain rfl : i = 0 := by omega
        subst hn
        decide +kernel⟩
  · exact ⟨_, 0, 0, _, dHead, slotB, poolB, 0, attnRuns_of kAppend dHead slotB poolB (by decide +kernel), rfl, by decide +kernel⟩
  · exact ⟨_, 0, 0, _, dKeys, slotA, poolA, _, _, attnRuns_of kFwd dKeys slotA poolA (by decide +kernel), rfl, by decide +kernel, (fun e h => by cases h), by decide +kernel, rfl, by decide +kernel, fun _ => rfl⟩
  · exact ⟨_, 0, 0, _, dFinal, slotA, poolA, _, _, attnRuns_of kFinal dFinal slotA poolA (by decide +kernel), by decide +kernel, by decide +kernel, fun _ => rfl, fun _ => rfl⟩
  · exact ⟨_, 0, 0, _, attnD 0 0 0 0 0 0 0, slotA, poolA, attnRuns_of kPrep _ slotA poolA (by decide +kernel)⟩
  · exact by
      refine ⟨_, 0, 0, _, dKeys, slotA, poolA, bwdKeys.1, bwdB, _, _, _,
          attnRuns_of kBwd dKeys slotA poolA (by decide +kernel), ?_, rfl, ?_, ?_, (fun e h => by cases h), ?_, ?_,
          rfl, ?_, bwdBlocks, ?_, rfl, rfl, fun _ => rfl⟩ <;>
        decide +kernel
  · exact ⟨_, 0, 0, _, attnD 1 0x10 0 0 0 128 0, slotA, poolA, attnRuns_of kGfinal _ slotA poolA (by decide +kernel), rfl, by decide +kernel, by decide +kernel⟩
  · exact by
      refine ⟨_, 0, 0, _, attnD 1 0 8 0 0x10000 128 128, slotA, poolA,
          attnRuns_of kGfinal _ slotA poolA (by decide +kernel), rfl, ?_, ?_, ?_, ?_, ?_⟩ <;>
        decide +kernel
  · exact ⟨{ attnState 0 dHead slotA poolA with spine := { Spine.reset with newStag := true } }, 0, 0, attnWord 0, 0, by decide +kernel, by decide, by decide, by decide +kernel,
        ⟨⟨by decide +kernel, by decide +kernel, by decide +kernel, by decide +kernel, .inr rfl⟩, rfl, rfl⟩, (fun q hq => by obtain rfl := List.mem_singleton.1 hq; rfl), rfl, rfl, rfl⟩
  · exact ⟨running { tile0 ready0 0 with queues := [(0, [queued0 0 true])] }, 0, 0, queued0 0 true, [], .inr rfl, by decide +kernel, by decide +kernel, rfl, by decide +kernel, by decide +kernel⟩
  · exact ⟨running { tile0 ready0 0 with queues := [(0, [queued0 0 false])] }, 0, 0, queued0 0 false, [], .inr rfl, by decide +kernel, by decide +kernel, by decide, .inl rfl⟩

/-- What the clauses of QuireAndLeafOperationsTakeEffect assume can be met. -/
theorem witness_QuireAndLeafOperationsTakeEffect :
    (∃ (s s2 : State) (t : Fin 256) (th : Fin 8) (w : BitVec 128) (d : List Byte) (x : Slot) (p : LeafPool) (g : Ring)
      (b : Nat) (bytes : List Byte), AttnRuns s t th w kQsend d x p ∧ x.ring = some g ∧ b = bufOf (At.src d) ∧ (∀ e ∈ s.leafs.evicting, e.1 ≠ At.slot w) ∧ (∀ i ∈ namedLeaves d x ((List.range (At.nheads d)).map (· + At.head0 d)), (x.leaf i).tier < 2) ∧ (((At.bwdq d || At.gradOnly d) = true → s.releasedBy (x.usedBy (s.tile t).chan) b = true)) ∧ x.sent % 2 ∈ x.credits ∧ quireOf d x p g s = some (bytes, false, s2)) ∧
    (∃ (s : State) (t : Fin 256) (th : Fin 8) (w : BitVec 128) (d : List Byte) (x : Slot) (p : LeafPool),
        AttnRuns s t th w kQrelease d x p) ∧
    (∃ (s : State) (t : Fin 256) (th : Fin 8) (w : BitVec 128) (d : List Byte) (x : Slot) (p : LeafPool) (ls : List Nat),
        AttnRuns s t th w kLfetch d x p ∧ ls = namedLeaves d x ((List.range (At.nheads d)).map (· + At.head0 d))) ∧
    (∃ (s : State) (t : Fin 256) (th : Fin 8) (w : BitVec 128) (d : List Byte) (x : Slot) (p : LeafPool),
        AttnRuns s t th w kTrunc d x p ∧ (s.tile t).leafWaits = none) ∧
    (∃ (s : State) (q : Fin 16) (h payload : List Byte) (x : Slot) (p : LeafPool) (g : Ring) (pa : Nat),
        s.slot q = some x ∧ s.poolOf x = some p ∧ x.ring = some g ∧ (x.buf (x.got % 2)).header = none ∧
        fieldAt h 32 4 ≤ s.cle.epoch ∧ quireCheck x p g h payload.length s = 0 ∧ Quiet s ∧ Calm s ∧
        Resident s p.part (g.bufVa (x.got % 2)) payload.length ∧ s.vaPa p.part (g.bufVa (x.got % 2)) = some pa ∧
        g.bufVa (x.got % 2) % pageSize + payload.length ≤ pageSize) ∧
    (∃ (s : State) (q : Fin 16) (b : Fin 2) (x : Slot), s.slot q = some x ∧ Quiet s ∧ Calm s) ∧
    (∃ (s : State) (q : Fin 16) (b : Fin 3) (x : Slot) (p : LeafPool) (g : Ring), s.slot q = some x ∧
        s.poolOf x = some p ∧ x.ring = some g ∧ s.bufFree x g b = true ∧ Calm s) ∧
    (∃ (s : State) (pool : Fin 8) (p o : LeafPool) (a q i : Nat) (x : Slot), ∃ r, s.leafLeaving pool = none ∧
        SMap.lookup s.leafs.pools pool = some p ∧ s.leafDemand pool p = true ∧ s.leafCandidates pool = [(a, q, i)] ∧
        s.slot q = some x ∧ s.poolOf x = some o ∧ Quiet s ∧ Calm s ∧ (x.leaf i).farcopy = true ∧ (x.leaf i).far = some r) ∧
    (∃ (s : State) (pool : Fin 8) (p o : LeafPool) (a q i : Nat) (x : Slot), ∃ r v, s.leafLeaving pool = none ∧
        SMap.lookup s.leafs.pools pool = some p ∧ s.leafDemand pool p = true ∧ s.leafCandidates pool = [(a, q, i)] ∧
        s.slot q = some x ∧ s.poolOf x = some o ∧ Quiet s ∧ Calm s ∧ (x.leaf i).farcopy = false ∧
        placeLeaf o x.spillHost s = some (r, v)) ∧
    (∃ (s : State) (pool : Fin 8) (o : LeafPool) (q i : Nat) (x : Slot) (r : FarRef),
        s.leafLeaving pool = some (q, i, r) ∧ s.slot q = some x ∧ s.poolOf x = some o ∧ Quiet s ∧ Calm s ∧
        r.host = true ∧ s.hif.pcieWidth = 0) ∧
    (∃ (s : State) (pool : Fin 8) (o : LeafPool) (q i : Nat) (x : Slot) (r : FarRef),
        s.leafLeaving pool = some (q, i, r) ∧ s.slot q = some x ∧ s.poolOf x = some o ∧ Quiet s ∧ Calm s ∧
        ((r.host = true → s.hif.pcieWidth ≠ 0))) ∧
    (∃ (s : State) (q : Fin 16) (layer head leaf f : Nat) (data : List Byte) (x : Slot) (p : LeafPool) (l : Leaf) (r : FarRef),
        s.slot q = some x ∧ s.poolOf x = some p ∧ l = x.leaf (x.leafIdx layer head leaf) ∧ p.freeFrame = some f ∧
        l.far = some r ∧ r.host = false ∧ layer < x.layers ∧ head < x.heads ∧ leaf < x.perTrack ∧ l.motion = true ∧
        2 ≤ l.tier ∧ Quiet s ∧ Calm s) ∧
    (∃ (s : State) (q : Fin 16) (x : Slot) (a layer head len : Nat) (es : List (Nat × Nat × Nat × Nat)),
        s.slot q = some x ∧
        (x.stalls.map (·.2)).filter (fun e => decide (e.1 + s.leafs.bound ≤ s.spine.tick)) = (a, layer, head, len) :: es ∧
        (∀ e ∈ es, a ≤ e.1) ∧ s.spine.newStag = true) := by
  refine ⟨?_, ?_, ?_, ?_, ?_, ?_, ?_, ?_, ?_, ?_, ?_, ?_, ?_⟩
  · exact ⟨_, _, 0, 0, _, dSend, slotA, poolA, ring0, _, _, attnRuns_of kQsend dSend slotA poolA (by decide +kernel), rfl, rfl, (fun e h => by cases h), by decide +kernel, (fun h => absurd h (by decide +kernel)), by decide +kernel, sent_good⟩
  · exact ⟨_, 0, 0, _, attnD 0 0 0 0 0 0 0, slotA, poolA, attnRuns_of kQrelease _ slotA poolA (by decide +kernel)⟩
  · exact ⟨_, 0, 0, _, dHead, slotA, poolA, _, attnRuns_of kLfetch _ slotA poolA (by decide +kernel), rfl⟩
  · exact ⟨_, 0, 0, _, dHead, slotA, poolA, attnRuns_of kTrunc _ slotA poolA (by decide +kernel), rfl⟩
  · exact ⟨leafState slotA poolA, 0, quireHead, List.replicate 64 0, slotA, poolA, ring0, 0x10000, rfl, rfl, rfl, rfl, by decide +kernel, by decide +kernel, quiet_of _ rfl, .inr rfl,
        (fun c hc => by obtain rfl := List.mem_singleton.1 hc; exact ⟨_, _, rfl, rfl, rfl, rfl, rfl⟩), by decide +kernel, by decide +kernel⟩
  · exact ⟨leafState slotA poolA, 0, 0, slotA, rfl, quiet_of _ rfl, .inr rfl⟩
  · exact ⟨withLeafs { slotA with bufs := [(2, ⟨none, [0], 0, true⟩)] } poolA (running (tile0 ready0 0)), 0, 2, { slotA with bufs := [(2, ⟨none, [0], 0, true⟩)] }, poolA, ring0, rfl, rfl, rfl, by decide +kernel, .inr rfl⟩
  · exact ⟨leafState slotFar { poolA with lowWater := 64 }, 0, { poolA with lowWater := 64 }, { poolA with lowWater := 64 }, 0, 0, 0, slotFar, ⟨false, 1, 0, 0⟩, rfl, rfl, by decide +kernel, by decide +kernel, rfl, rfl, quiet_of _ rfl, .inr rfl, rfl, rfl⟩
  · exact ⟨spillState, 0, { poolA with lowWater := 64 }, { poolA with lowWater := 64 }, 0, 0, 0, slotSpill, ⟨true, 0, 0, 0⟩, spillState, rfl, rfl, by decide +kernel, by decide +kernel, rfl, rfl, quiet_of _ rfl, .inr rfl, rfl, spill_place⟩
  · exact ⟨outLeaf 0, 0, poolA, 0, 0, slotA, ⟨true, 0, 0, 0⟩, by decide +kernel, rfl, rfl, quiet_of _ rfl, .inr rfl, rfl, rfl⟩
  · exact ⟨outLeaf 16, 0, poolA, 0, 0, slotA, ⟨true, 0, 0, 0⟩, by decide +kernel, rfl, rfl, quiet_of _ rfl, .inr rfl, fun _ h => by cases h⟩
  · exact by
      refine ⟨leafState slotOut poolA, 0, 0, 0, 0, 1, [], slotOut, poolA, _, ⟨false, 1, 0, 0⟩, rfl, rfl, rfl, ?_, ?_, rfl,
          ?_, ?_, ?_, ?_, ?_, quiet_of _ rfl, .inr rfl⟩ <;>
        decide +kernel
  · exact ⟨{ stalled with leafs := { stalled.leafs with bound := 0 }, spine := { Spine.reset with newStag := true } }, 0, { slotA with stalls := [(0, (0, 0, 0, 1))] }, 0, 0, 0, 1, [], rfl, by decide +kernel, (fun e h => by cases h), rfl⟩

end W17

namespace W18

/-! ### Flits whose codewords are written out -/

/-- Continue with a byte that has been computed. -/
def forced {α : Type} (v : Byte) (k : Byte → α) : α :=
  match v.toNat with
  | 0 => k 0
  | n + 1 => k (BitVec.ofNat 8 (n + 1))

theorem forced_eq {α : Type} (v : Byte) (k : Byte → α) : forced v k = k v := by
  have h : BitVec.ofNat 8 v.toNat = v := by simp
  unfold forced
  split <;> rename_i e
  · rw [e] at h
    rw [← h]
    rfl
  · rw [e] at h
    rw [← h]

def gfRun : List Byte → Byte → Byte → Byte
  | [], _, v => v
  | c :: cs, x, v => forced (gfMul v x ^^^ c) fun v => gfRun cs x v

theorem gfRun_eq (x : Byte) : ∀ (p : List Byte) (v : Byte), gfRun p x v = p.foldl (fun v c => gfMul v x ^^^ c) v
  | [], _ => rfl
  | c :: cs, v => by rw [gfRun, forced_eq, gfRun_eq x cs, List.foldl_cons]

def syndromesOf (w : List Byte) : List Byte := (List.range 16).map fun i => forced (gfPow i) fun x => gfRun w x 0

theorem syndromesOf_eq (w : List Byte) : syndromesOf w = rsSyndromes w :=
  List.map_congr_left fun i _ => by rw [forced_eq, gfRun_eq]; rfl

/-- Zeros at the front of a codeword change nothing. -/
theorem gfRun_zeros (x : Byte) (p : List Byte) : ∀ n, gfRun (List.replicate n 0 ++ p) x 0 = gfRun p x 0
  | 0 => rfl
  | n + 1 => by
    have h : ∀ x : Byte, gfMul 0 x ^^^ 0 = 0 := by decide +kernel
    rw [List.replicate_succ, List.cons_append, gfRun, forced_eq, h, gfRun_zeros x p n]

theorem syndromes_zeros (p : List Byte) (n : Nat) : syndromesOf (List.replicate n 0 ++ p) = syndromesOf p :=
  List.map_congr_left fun i _ => by rw [forced_eq, forced_eq, gfRun_zeros]

/-- Continue with a 64-bit word that has been computed. -/
def forced64 {α : Type} (v : BitVec 64) (k : BitVec 64 → α) : α :=
  match v.toNat with
  | 0 => k 0
  | n + 1 => k (BitVec.ofNat 64 (n + 1))

theorem forced64_eq {α : Type} (v : BitVec 64) (k : BitVec 64 → α) : forced64 v k = k v := by
  have h : BitVec.ofNat 64 v.toNat = v := by simp
  unfold forced64
  split <;> rename_i e
  · rw [e] at h
    rw [← h]
    rfl
  · rw [e] at h
    rw [← h]

def crcBits : Nat → BitVec 64 → BitVec 64
  | 0, c => c
  | n + 1, c => forced64 (crc64Bit c) fun c => crcBits n c

def crcRun : List Byte → BitVec 64 → BitVec 64
  | [], c => c
  | b :: bs, c => crcRun bs (crcBits 8 (c ^^^ (BitVec.setWidth 64 b <<< 56)))

theorem crcBits_eq : ∀ (n : Nat) (c : BitVec 64), crcBits n c = (List.range n).foldl (fun c _ => crc64Bit c) c
  | 0, _ => rfl
  | n + 1, c => by
    rw [crcBits, forced64_eq, crcBits_eq n, List.range_succ_eq_map, List.foldl_cons, List.foldl_map]

theorem crcRun_eq : ∀ (bs : List Byte) (c : BitVec 64), crcRun bs c = bs.foldl (fun c b =>
    (List.range 8).foldl (fun c _ => crc64Bit c) (c ^^^ (BitVec.setWidth 64 b <<< 56))) c
  | [], _ => rfl
  | b :: bs, c => by rw [crcRun, crcRun_eq bs, crcBits_eq, List.foldl_cons]

/-- The flit of two codewords (R378). -/
def woven (w0 w1 : List Byte) : List Byte :=
  (List.range 448).map fun i => (if i / 8 % 2 = 0 then w0 else w1).getD (i / 16 * 8 + i % 8) 0

def wordOf (f : List Byte) (c : Nat) : List Byte := (List.range 224).map fun j => f.getD (16 * (j / 8) + 8 * c + j % 8) 0

theorem wordOf_woven (w0 w1 : List Byte) (h0 : w0.length = 224) (h1 : w1.length = 224) :
    wordOf (woven w0 w1) 0 = w0 ∧ wordOf (woven w0 w1) 1 = w1 := by
  have key : ∀ c j, c < 2 → j < 224 → (woven w0 w1).getD (16 * (j / 8) + 8 * c + j % 8) 0 = (if c = 0 then w0 else w1).getD j 0 := by
    intro c j hc hj
    have a : 16 * (j / 8) + 8 * c + j % 8 < 448 := by omega
    have b : (16 * (j / 8) + 8 * c + j % 8) / 8 % 2 = c := by omega
    have d : (16 * (j / 8) + 8 * c + j % 8) / 16 * 8 + (16 * (j / 8) + 8 * c + j % 8) % 8 = j := by omega
    rw [woven, List.getD_eq_getElem?_getD, List.getElem?_map, List.getElem?_range a]
    simp only [Option.map_some, Option.getD_some, b, d]
  have word : ∀ c (w : List Byte), c < 2 → w.length = 224 → (if c = 0 then w0 else w1) = w → wordOf (woven w0 w1) c = w := by
    intro c w hc hw he
    apply List.ext_getElem
    · simp [wordOf, hw]
    · intro j h2 h3
      have hj : j < 224 := by simpa [wordOf] using h2
      simp only [wordOf, List.getElem_map, List.getElem_range]
      rw [key c j hc hj, he, List.getD_eq_getElem?_getD, List.getElem?_eq_getElem h3, Option.getD_some]
  exact ⟨word 0 w0 (by decide) h0 rfl, word 1 w1 (by decide) h1 rfl⟩

theorem rsDecode_clean {w : List Byte} (h : (syndromesOf w).all (· == 0) = true) : rsDecode w = some (w, 0) := by
  rw [syndromesOf_eq] at h
  unfold rsDecode
  simp only [h, if_true]

/-- A flit of two clean codewords whose CRC matches decodes without a correction. -/
theorem flit_good (w0 w1 body payload : List Byte) (crc : Nat) (h : FlitHead) (l0 : w0.length = 224) (l1 : w1.length = 224)
    (s0 : (syndromesOf w0).all (· == 0) = true) (s1 : (syndromesOf w1).all (· == 0) = true)
    (hb : (w0.take 208 ++ w1.take 208).take 408 = body) (hc : fieldAt (w0.take 208 ++ w1.take 208) 408 8 = crc)
    (hr : (crcRun body (BitVec.allOnes 64) ^^^ BitVec.allOnes 64).toNat = crc) (hh : FlitHead.of body = h) (hp : body.drop 8 = payload) :
    flitDecode (woven w0 w1) = .good h payload 0 := by
  obtain ⟨e0, e1⟩ := wordOf_woven w0 w1 l0 l1
  have d0 : rsDecode (wordOf (woven w0 w1) 0) = some (w0, 0) := by rw [e0]; exact rsDecode_clean s0
  have d1 : rsDecode (wordOf (woven w0 w1) 1) = some (w1, 0) := by rw [e1]; exact rsDecode_clean s1
  have hr : (crc64 body).toNat = crc := by rw [← hr, crcRun_eq]; rfl
  unfold wordOf at d0 d1
  unfold flitDecode
  simp only [d0, d1, hb, hc, hr, hh, hp, if_true]

/-- A flit whose first codeword has one syndrome that is not 0, the last, does not decode. -/
theorem flit_bad (w0 w1 : List Byte) (l0 : w0.length = 224) (l1 : w1.length = 224) (s0 : syndromesOf w0 = List.replicate 15 0 ++ [1]) :
    flitDecode (woven w0 w1) = .uncorrectable := by
  have e0 := (wordOf_woven w0 w1 l0 l1).1
  have hl : 8 < (rsLocator (List.replicate 15 0 ++ [1])).2 := by decide +kernel
  have d0 : rsDecode (wordOf (woven w0 w1) 0) = none := by
    rw [e0]
    unfold rsDecode
    rw [← syndromesOf_eq, s0]
    simp only [hl, if_true]
    rfl
  unfold wordOf at d0
  unfold flitDecode
  simp only [d0]

/-- The codewords of a data flit with SEQ 0, FIRST 31 and a payload of zeros, and of an idle flit of zeros. -/
def dataWord0 : List Byte := [1, 0, 0, 0, 0, 124, 0, 0] ++ List.replicate 200 0 ++ [14, 248, 212, 213, 219, 216, 242, 229, 101, 173, 231, 255, 55, 29, 251, 159]

def dataWord1 : List Byte := List.replicate 200 0 ++ [65, 231, 214, 239, 126, 7, 62, 15, 246, 163, 23, 120, 252, 210, 162, 74, 65, 161, 123, 191, 193, 212, 190, 164]

def idleWord0 : List Byte := List.replicate 224 0 ++ []

def idleWord1 : List Byte := List.replicate 200 0 ++ [170, 198, 152, 67, 113, 138, 190, 97, 229, 249, 83, 130, 90, 86, 197, 21, 140, 190, 152, 208, 230, 212, 122, 176]

def badWord : List Byte := List.replicate 208 0 ++ [12, 156, 89, 254, 199, 122, 95, 120, 214, 214, 58, 126, 170, 157, 102, 184]

theorem data_good : flitDecode (woven dataWord0 dataWord1) = .good ⟨1, 0, 0, false, false, 0, 0, 31⟩ (List.replicate 400 0) 0 :=
  flit_good dataWord0 dataWord1 _ _ _ _ (by decide +kernel) (by decide +kernel) (by decide +kernel) (by rw [dataWord1, syndromes_zeros]; decide +kernel) rfl rfl (by decide +kernel)
    (by decide +kernel) (by decide +kernel)

theorem idle_good : flitDecode (woven idleWord0 idleWord1) = .good ⟨0, 0, 0, false, false, 0, 0, 0⟩ (List.replicate 400 0) 0 :=
  flit_good idleWord0 idleWord1 _ _ _ _ (by decide +kernel) (by decide +kernel) (by rw [idleWord0, syndromes_zeros]; decide +kernel) (by rw [idleWord1, syndromes_zeros]; decide +kernel) rfl rfl (by decide +kernel)
    (by decide +kernel) (by decide +kernel)

theorem bad_flit : flitDecode (woven badWord (List.replicate 224 0)) = .uncorrectable := flit_bad badWord (List.replicate 224 0) (by decide +kernel) List.length_replicate (by rw [badWord, syndromes_zeros]; decide +kernel)

def helloWord0 : List Byte := [2, 0, 0, 0, 0, 124, 0, 0, 1, 0, 64, 150, 1, 0, 1, 0] ++ List.replicate 192 0 ++ [36, 129, 199, 199, 211, 244, 80, 16, 45, 213, 219, 227, 88, 252, 232, 231]

def helloWord1 : List Byte := List.replicate 200 0 ++ [161, 26, 238, 147, 77, 144, 40, 184, 15, 231, 0, 194, 21, 119, 160, 176, 43, 54, 129, 188, 155, 189, 59, 238]

def greetWord0 : List Byte := [2, 0, 0, 0, 0, 124, 0, 0, 1, 0, 0, 0, 0, 0, 0, 0] ++ List.replicate 192 0 ++ [169, 2, 2, 234, 33, 165, 195, 238, 123, 213, 161, 148, 111, 190, 42, 245]

def greetWord1 : List Byte := List.replicate 200 0 ++ [245, 27, 5, 36, 181, 114, 205, 115, 83, 122, 10, 121, 248, 81, 47, 144, 228, 28, 25, 2, 127, 127, 118, 111]

def pingWord0 : List Byte := [2, 0, 0, 0, 0, 124, 0, 0, 2, 0, 0, 0, 0, 0, 0, 0] ++ List.replicate 192 0 ++ [211, 89, 200, 147, 108, 46, 123, 49, 77, 39, 220, 15, 5, 84, 209, 156]

def pingWord1 : List Byte := List.replicate 200 0 ++ [116, 69, 153, 215, 192, 198, 108, 165, 154, 190, 255, 202, 190, 107, 187, 45, 59, 231, 217, 222, 180, 80, 105, 180]

def pongWord0 : List Byte := [2, 0, 0, 0, 0, 124, 0, 0, 3, 0, 0, 0, 0, 0, 0, 0] ++ List.replicate 192 0 ++ [14, 155, 142, 79, 87, 87, 19, 143, 95, 130, 247, 141, 35, 249, 115, 187]

def pongWord1 : List Byte := List.replicate 200 0 ++ [122, 157, 180, 225, 74, 10, 92, 41, 249, 13, 11, 55, 120, 144, 204, 105, 45, 90, 129, 166, 67, 148, 172, 41]

def holdWord0 : List Byte := [2, 0, 0, 0, 0, 124, 0, 0, 4, 0, 0, 0, 0, 0, 0, 0] ++ List.replicate 192 0 ++ [39, 239, 65, 97, 246, 37, 22, 146, 33, 222, 38, 36, 209, 157, 58, 78]

def holdWord1 : List Byte := List.replicate 200 0 ++ [229, 206, 75, 153, 192, 79, 223, 74, 195, 3, 10, 35, 158, 252, 179, 245, 2, 195, 72, 208, 63, 130, 105, 163]

def moveWord0 : List Byte := [2, 0, 0, 0, 0, 124, 0, 0, 5, 0, 0, 0, 0, 0, 0, 0] ++ List.replicate 192 0 ++ [250, 45, 7, 189, 205, 92, 126, 44, 51, 123, 13, 166, 247, 48, 152, 105]

def moveWord1 : List Byte := List.replicate 200 0 ++ [235, 22, 102, 175, 74, 131, 239, 198, 160, 176, 254, 222, 88, 7, 196, 177, 20, 126, 16, 168, 200, 70, 172, 62]

def goodHello : List Byte := [1, 0] ++ natLe 2 0x9640 ++ natLe 2 1 ++ natLe 2 1 ++ natLe 24 0

/-- A control flit with FIRST 31 whose message begins with some bytes. -/
theorem control_is (w0 w1 m : List Byte) (crc k : Nat) (l0 : w0.length = 224) (l1 : w1.length = 224)
    (s0 : (syndromesOf w0).all (· == 0) = true) (s1 : (syndromesOf w1).all (· == 0) = true)
    (hc : fieldAt (w0.take 208 ++ w1.take 208) 408 8 = crc)
    (hr : (crcRun ((w0.take 208 ++ w1.take 208).take 408) (BitVec.allOnes 64) ^^^ BitVec.allOnes 64).toNat = crc)
    (hh : FlitHead.of ((w0.take 208 ++ w1.take 208).take 408) = ⟨2, 0, 0, false, false, 0, 0, 31⟩)
    (hk : fieldAt (((w0.take 208 ++ w1.take 208).take 408).drop 8) 0 1 = k) (hm : m = (((w0.take 208 ++ w1.take 208).take 408).drop 8).take 32) :
    ControlIs (woven w0 w1) ⟨2, 0, 0, false, false, 0, 0, 31⟩ m k :=
  ⟨_, flit_good w0 w1 _ _ crc _ l0 l1 s0 s1 rfl hc hr hh rfl, rfl, rfl, hk, hm⟩

theorem hello_is : ControlIs (woven helloWord0 helloWord1) ⟨2, 0, 0, false, false, 0, 0, 31⟩ goodHello 1 :=
  control_is helloWord0 helloWord1 _ _ _ (by decide +kernel) (by decide +kernel) (by decide +kernel) (by rw [helloWord1, syndromes_zeros]; decide +kernel) rfl
    (by decide +kernel) (by decide +kernel) (by decide +kernel) (by decide +kernel)

theorem greet_is : ControlIs (woven greetWord0 greetWord1) ⟨2, 0, 0, false, false, 0, 0, 31⟩ (padTo 32 [1]) 1 :=
  control_is greetWord0 greetWord1 _ _ _ (by decide +kernel) (by decide +kernel) (by decide +kernel) (by rw [greetWord1, syndromes_zeros]; decide +kernel) rfl
    (by decide +kernel) (by decide +kernel) (by decide +kernel) (by decide +kernel)

theorem ping_is : ControlIs (woven pingWord0 pingWord1) ⟨2, 0, 0, false, false, 0, 0, 31⟩ (padTo 32 [2]) 2 :=
  control_is pingWord0 pingWord1 _ _ _ (by decide +kernel) (by decide +kernel) (by decide +kernel) (by rw [pingWord1, syndromes_zeros]; decide +kernel) rfl
    (by decide +kernel) (by decide +kernel) (by decide +kernel) (by decide +kernel)

theorem pong_is : ControlIs (woven pongWord0 pongWord1) ⟨2, 0, 0, false, false, 0, 0, 31⟩ (padTo 32 [3]) 3 :=
  control_is pongWord0 pongWord1 _ _ _ (by decide +kernel) (by decide +kernel) (by decide +kernel) (by rw [pongWord1, syndromes_zeros]; decide +kernel) rfl
    (by decide +kernel) (by decide +kernel) (by decide +kernel) (by decide +kernel)

theorem hold_is : ControlIs (woven holdWord0 holdWord1) ⟨2, 0, 0, false, false, 0, 0, 31⟩ (padTo 32 [4]) 4 :=
  control_is holdWord0 holdWord1 _ _ _ (by decide +kernel) (by decide +kernel) (by decide +kernel) (by rw [holdWord1, syndromes_zeros]; decide +kernel) rfl
    (by decide +kernel) (by decide +kernel) (by decide +kernel) (by decide +kernel)

theorem move_is : ControlIs (woven moveWord0 moveWord1) ⟨2, 0, 0, false, false, 0, 0, 31⟩ (padTo 32 [5]) 5 :=
  control_is moveWord0 moveWord1 _ _ _ (by decide +kernel) (by decide +kernel) (by decide +kernel) (by rw [moveWord1, syndromes_zeros]; decide +kernel) rfl
    (by decide +kernel) (by decide +kernel) (by decide +kernel) (by decide +kernel)

/-- A flit of two clean codewords whose CRC does not match. -/
theorem flit_crc (w0 w1 : List Byte) (l0 : w0.length = 224) (l1 : w1.length = 224) (s0 : (syndromesOf w0).all (· == 0) = true)
    (s1 : (syndromesOf w1).all (· == 0) = true) (hn : fieldAt (w0.take 208 ++ w1.take 208) 408 8
      ≠ (crcRun ((w0.take 208 ++ w1.take 208).take 408) (BitVec.allOnes 64) ^^^ BitVec.allOnes 64).toNat) : flitDecode (woven w0 w1) = .badCrc 0 := by
  obtain ⟨e0, e1⟩ := wordOf_woven w0 w1 l0 l1
  have d0 : rsDecode (wordOf (woven w0 w1) 0) = some (w0, 0) := by rw [e0]; exact rsDecode_clean s0
  have d1 : rsDecode (wordOf (woven w0 w1) 1) = some (w1, 0) := by rw [e1]; exact rsDecode_clean s1
  have hn : fieldAt (w0.take 208 ++ w1.take 208) 408 8 ≠ (crc64 ((w0.take 208 ++ w1.take 208).take 408)).toNat := by rw [crcRun_eq] at hn; exact hn
  unfold wordOf at d0 d1
  unfold flitDecode
  simp only [d0, d1, hn, if_false]

theorem zero_flit : flitDecode (woven idleWord0 idleWord0) = .badCrc 0 :=
  flit_crc idleWord0 idleWord0 (by decide +kernel) (by decide +kernel) (by rw [idleWord0, syndromes_zeros]; decide +kernel) (by rw [idleWord0, syndromes_zeros]; decide +kernel)
    (by decide +kernel)

def onLink (x : Link) (s : State) : State := { s with links := { Links.reset with links := [(0, x)] } }

def onTable (x : Link) (s : State) : State := { s with links := { links2 with links := [(0, x)] } }

def trainingAt (step : Nat) : Link := { Link.reset with st := 1, step := step }

def echoed : Link := { trainingAt 7 with echoes := 16 }

def lastEcho : Link := { trainingAt 7 with echoes := 15, hello := some (Hello.of goodHello) }

def outLink : Link := { Link.reset with st := 5, joined := true, outSince := some 0 }

def outState : State := { up with links := { links2 with links := [(0, outLink)], bound := 0 } }

def outRunning : State := { outState with spine := { Spine.reset with running := true } }

def packet0 : Packet := ⟨1, 0, 0, 1, List.replicate 8 0, []⟩

def sendLink : Link := { link0 with queues := [(0, [packet0])] }

theorem only0 : ∀ l, l < 32 → (outRunning.posEntry l).map (·.enable) = some true → outRunning.outFor l = true := by decide +kernel

/-- What the clauses of LinkTrainingTakesEffect assume can be met. -/
theorem witness_LinkTrainingTakesEffect :
    (∃ (s : State) (l : Nat), s.mem.trained = true ∧ s.mem.selfRefresh = false ∧ s.nextRelease = some l) ∧
    (∃ (s : State) (l : Fin 32), (((s.link l).st = 1 ∧ (s.link l).step ≤ 3 ∨ (s.link l).st = 5 ∨ (s.link l).st = 6))) ∧
    (∃ (s : State) (l : Fin 32) (reversed : Bool) (polarity : BitVec 8), s.mem.selfRefresh = false ∧
        (s.link l).training = true ∧ (s.link l).step = 1) ∧
    (∃ (s : State) (l : Fin 32) (reversed : Bool) (polarity : BitVec 8), s.mem.selfRefresh = false ∧ (s.link l).st = 8 ∧
        (s.link l).dropped = false) ∧
    (∃ (s : State) (l : Fin 32) (y : Link), (s.link l).training = true ∧ (s.link l).step = 3 ∧
        y = { s.link l with step := 4 }) ∧
    (∃ (s : State) (l : Fin 32), (s.link l).greets = true) ∧
    (∃ (s : State) (l : Fin 32) (flit m : List Byte) (h : FlitHead) (y : Link),
        (((s.link l).greets = true ∨ (s.link l).st = 3)) ∧ ControlIs flit h m 2 ∧ y = heard (s.link l) h ∧ Calm s) ∧
    (∃ (s : State) (l : Fin 32) (flit m : List Byte) (h : FlitHead), (s.link l).greets = true ∧ ControlIs flit h m 1 ∧
        s.posEntry l = none ∧ Calm s) ∧
    (∃ (s : State) (l : Fin 32) (flit m : List Byte) (h : FlitHead) (e : PosEntry) (y : Link),
        ∃ r, (s.link l).training = true ∧ 4 ≤ (s.link l).step ∧ ControlIs flit h m 1 ∧ s.posEntry l = some e ∧ Calm s ∧
        y = ({ heard (s.link l) h with hello := some (Hello.of m) } : Link).measure ∧
        refuseReason s e (Hello.of m) y = some r) ∧
    (∃ (s : State) (l : Fin 32) (flit m : List Byte) (h : FlitHead) (e : PosEntry) (y : Link),
        (s.link l).training = true ∧ 4 ≤ (s.link l).step ∧ ControlIs flit h m 1 ∧ s.posEntry l = some e ∧ Calm s ∧
        y = ({ heard (s.link l) h with hello := some (Hello.of m) } : Link).measure ∧
        refuseReason s e (Hello.of m) y = none ∧ 16 ≤ y.echoes) ∧
    (∃ (s : State) (l : Fin 32) (flit m : List Byte) (h : FlitHead) (trip : Nat) (y z : Link),
        (s.link l).training = true ∧ 4 ≤ (s.link l).step ∧ (s.link l).echoes < 15 ∧ ControlIs flit h m 3 ∧
        s.posEntry l = none ∧ Calm s ∧ y = heard (s.link l) h ∧
        z = { y with echoes := y.echoes + 1, minTrip := if y.echoes = 0 then trip else min y.minTrip trip }) ∧
    (∃ (s : State) (l : Fin 32) (flit m : List Byte) (h : FlitHead) (trip n : Nat) (o : Hello) (y : Link),
        (s.link l).training = true ∧ 4 ≤ (s.link l).step ∧ (s.link l).echoes = 15 ∧ (s.link l).hello = some o ∧
        ControlIs flit h m 3 ∧ s.posEntry l = none ∧ Calm s ∧ y = heard (s.link l) h ∧
        n = oneWay (min y.minTrip trip) o.turnaround) ∧
    (∃ (s : State) (l : Fin 32) (y : Link), (s.link l).st = 2 ∧
        ((∀ k, k < l.val → (s.link k).st = 0 ∨ (s.link k).st = 3 ∨ (s.link k).st = 6 ∨ (s.link k).st = 7 ∨ (s.link k).signal = false)) ∧
        y = { s.link l with st := 3, step := 7, outSince := none, joined := !s.spine.running }) ∧
    (∃ (s : State) (l : Fin 32) (flit m : List Byte) (h : FlitHead), (s.link l).st = 3 ∧ ControlIs flit h m 4 ∧ Calm s) ∧
    (∃ (s : State) (l : Fin 32) (flit m : List Byte) (h : FlitHead) (o : Hello), (s.link l).st = 3 ∧
        (s.link l).hello = some o ∧ ControlIs flit h m 5 ∧ Calm s) ∧
    (∃ (s : State) (l : Fin 32) (flit : List Byte) (i : Instr),
        ((i = .hello l flit ∧ (s.link l).greets = true ∨ i = .ping ⟨l, flit⟩ ∨ i = .hold ⟨l, flit⟩ ∨ i = .positionChange l flit)) ∧
        ((s.link l).st = 3 ∨ i = .hello l flit) ∧ flitDecode flit = .badCrc 0 ∧ Calm s) ∧
    (∃ (s : State) (l : Fin 32), (s.link l).st = 4) ∧
    (∃ (s : State) (l : Fin 32) (bits errors : List Nat), (s.link l).st = 9) := by
  refine ⟨?_, ?_, ?_, ?_, ?_, ?_, ?_, ?_, ?_, ?_, ?_, ?_, ?_, ?_, ?_, ?_, ?_, ?_⟩
  · exact ⟨memOn up, 0, rfl, rfl, by decide +kernel⟩
  · exact ⟨onLink (trainingAt 3) up, 0, .inl ⟨by decide +kernel, by decide +kernel⟩⟩
  · exact ⟨onLink (trainingAt 1) up, 0, true, 255, by decide +kernel, by decide +kernel, rfl⟩
  · exact ⟨onLink { Link.reset with st := 8 } up, 0, true, 255, by decide +kernel, by decide +kernel, by decide +kernel⟩
  · exact ⟨onLink (trainingAt 3) up, 0, _, by decide +kernel, by decide +kernel, rfl⟩
  · exact ⟨onLink (trainingAt 4) up, 0, by decide +kernel⟩
  · exact ⟨onLink link0 up, 0, _, _, _, _, .inr (by decide +kernel), ping_is, rfl, .inr rfl⟩
  · exact ⟨onLink (trainingAt 7) up, 0, _, _, _, by decide +kernel, greet_is, by decide +kernel, .inr rfl⟩
  · exact ⟨onTable (trainingAt 7) up, 0, _, _, _, PosEntry.of table2.image 0, _, 1, by decide +kernel, by decide +kernel, greet_is, by decide +kernel, .inr rfl, rfl, by decide +kernel⟩
  · exact ⟨onTable echoed up, 0, _, _, _, PosEntry.of table2.image 0, _, by decide +kernel, by decide +kernel, hello_is, by decide +kernel, .inr rfl, rfl, by decide +kernel, by decide +kernel⟩
  · exact ⟨onLink (trainingAt 7) up, 0, _, _, _, 0, _, _, by decide +kernel, by decide +kernel, by decide +kernel, pong_is, by decide +kernel, .inr rfl, rfl, rfl⟩
  · exact ⟨onLink lastEcho up, 0, _, _, _, 0, _, Hello.of goodHello, _, by decide +kernel, by decide +kernel, by decide +kernel, by decide +kernel, pong_is, by decide +kernel, .inr rfl, rfl, rfl⟩
  · exact ⟨{ up with links := { Links.reset with links := [(0, link0), (1, { Link.reset with st := 2 })] } }, 1, _, by decide +kernel, (fun k hk => by
        have h : k = 0 := Nat.lt_one_iff.1 hk
        subst h
        exact .inr (.inl (by decide +kernel))), rfl⟩
  · exact ⟨onLink link0 up, 0, _, _, _, by decide +kernel, hold_is, .inr rfl⟩
  · exact ⟨onLink { link0 with hello := some (Hello.of goodHello) } up, 0, _, _, _, Hello.of goodHello, by decide +kernel, by decide +kernel, move_is, .inr rfl⟩
  · exact ⟨onLink link0 up, 0, _, .ping ⟨0, woven idleWord0 idleWord0⟩, .inr (.inl rfl), .inl (by decide +kernel), zero_flit, .inr rfl⟩
  · exact ⟨onLink { Link.reset with st := 4 } up, 0, by decide +kernel⟩
  · exact ⟨onLink { Link.reset with st := 9 } up, 0, [], [], by decide +kernel⟩

/-- What the clauses of LinkTransportTakesEffect assume can be met. -/
theorem witness_LinkTransportTakesEffect :
    (∃ (s : State) (l : Fin 32) (i : Instr), ((i = .signalLoss l ∨ i = .ackTimeout l ∧ (s.link l).replay ≠ [])) ∧
        (s.link l).st = 3 ∧ Still s) ∧
    (∃ (s : State) (pos : Fin 1024), s.everIn pos ≠ [] ∧ (∀ l ∈ s.everIn pos, s.outFor l = true) ∧
        pos.val ∉ s.links.lostPos ∧ pos.val ≠ s.rse.mirror.twinPos ∧ pos.val ≠ s.rse.mirror.mirrorOf ∧ Still s) ∧
    (∃ s : State, s.spine.running = true ∧ s.links.isolated = false ∧ s.runningChans = [] ∧ Calm s ∧
        (∃ l e, l < 32 ∧ s.posEntry l = some e ∧ e.enable = true ∧ l ∉ s.links.off) ∧
        ((∀ l e, l < 32 → s.posEntry l = some e → e.enable = true → l ∉ s.links.off → s.outFor l = true))) ∧
    (∃ (s : State) (l : Fin 32) (v : Nat) (p : Packet), (s.link l).st = 3 ∧ s.links.isolated = false ∧
        (s.link l).choose = some (v, p) ∧ (s.link l).full = false ∧ (s.link l).txSlots.length < 400) ∧
    (∃ (s : State) (l : Fin 32) (v : Nat) (p : Packet), (s.link l).st = 3 ∧ s.links.isolated = false ∧
        (s.link l).choose = some (v, p) ∧ (s.link l).full = false ∧ s.rse.inj = [] ∧
        SMap.getD (s.link l).queues v [] = [p] ∧ ((∀ k, k ≠ v → SMap.getD (s.link l).queues k [] = [])) ∧
        (s.link l).txSlots = [] ∧ (s.link l).txFirst = 31 ∧ packetSlots (stamped p s) ≠ [] ∧
        (packetSlots (stamped p s)).length ≤ 400) ∧
    (∃ (s : State) (l : Fin 32), (s.link l).st = 3 ∧ s.links.isolated = false ∧
        (((s.link l).full = true ∨ (s.link l).txSlots = [] ∧ (s.link l).choose = none))) ∧
    (∃ (s : State) (l : Fin 32) (ack : BitVec 12) (y z : Link) (n : Nat), (s.link l).st = 3 ∧
        y = (s.link l).acked ack.toNat ∧ n = (if y.ackSeen = some ack.toNat then y.naks + 1 else 1) ∧ n < 8 ∧
        z = { y with ackSeen := some ack.toNat, naks := n } ∧ s.rse.inj = [] ∧ Calm s) ∧
    (∃ (s : State) (l : Fin 32) (ack : BitVec 12) (y : Link), (s.link l).st = 3 ∧ y = (s.link l).acked ack.toNat ∧
        y.ackSeen = some ack.toNat ∧ 7 ≤ y.naks ∧ Still s) ∧
    (∃ (s s1 : State) (l : Fin 32) (flit payload : List Byte) (h : FlitHead), (s.link l).st = 3 ∧ flitDecode flit = .good h payload 0 ∧ h.type = 1 ∧ h.nak = false ∧ h.seq = (s.link l).rxNext ∧ s1 = s.modLink l (fun _ => { heard (s.link l) h with
      rxNext := ((s.link l).rxNext + 1) % 4096, episode := false, ctrs := Ctrs.wrap (s.link l).ctrs 1 1 }) ∧ Calm (takePayload l h.first payload s1)) ∧
    (∃ (s : State) (l : Fin 32) (flit payload : List Byte) (h : FlitHead), (s.link l).st = 3 ∧
        flitDecode flit = .good h payload 0 ∧ h.type = 1 ∧ h.ackv = false ∧ h.seq ≠ (s.link l).rxNext ∧ Calm s) ∧
    (∃ (s : State) (l : Fin 32) (flit : List Byte), (s.link l).st = 3 ∧ flitDecode flit = .uncorrectable ∧
        (s.link l).badRun < 7 ∧ (s.link l).episode = true ∧ Calm s) ∧
    (∃ (s : State) (l : Fin 32) (flit payload : List Byte) (h : FlitHead), (s.link l).st = 3 ∧
        flitDecode flit = .good h payload 0 ∧ h.type = 0 ∧ h.nak = false ∧ Calm s) := by
  refine ⟨?_, ?_, ?_, ?_, ?_, ?_, ?_, ?_, ?_, ?_, ?_, ?_⟩
  · exact ⟨onLink link0 up, 0, _, .inl rfl, by decide +kernel, .inr ⟨rfl, rfl⟩⟩
  · exact ⟨outState, 1, by decide +kernel, by decide +kernel, by decide +kernel, by decide +kernel, by decide +kernel, .inr ⟨rfl, rfl⟩⟩
  · exact ⟨outRunning, rfl, rfl, by decide +kernel, .inr rfl, ⟨0, PosEntry.of table2.image 0, by decide, by decide +kernel, by decide +kernel, by decide +kernel⟩,
        fun l e hl he hen _ => only0 l hl (by rw [he]; exact congrArg some hen)⟩
  · exact ⟨onLink sendLink up, 0, 0, packet0, by decide +kernel, rfl, by decide +kernel, by decide +kernel, by decide +kernel⟩
  · exact by
      refine ⟨onLink sendLink up, 0, 0, packet0, ?_, rfl, ?_, ?_, rfl, ?_,
          fun k hk => by
        have h : (onLink sendLink up).link (0 : Fin 32) = sendLink := by decide +kernel
        rw [h]
        cases k with
        | zero => exact absurd rfl hk
        | succ n => rfl,
          ?_, ?_, ?_, ?_⟩ <;>
        decide +kernel
  · exact ⟨onLink link0 up, 0, by decide +kernel, rfl, .inr (by decide +kernel)⟩
  · exact ⟨onLink link0 up, 0, 0, _, _, _, by decide +kernel, rfl, rfl, by decide +kernel, rfl, rfl, .inr rfl⟩
  · exact ⟨onLink { link0 with ackSeen := some 0, naks := 7 } up, 0, 0, _, by decide +kernel, rfl, by decide +kernel, by decide +kernel, .inr ⟨rfl, rfl⟩⟩
  · exact ⟨onLink link0 up, _, 0, _, _, _, by decide +kernel, data_good, rfl, rfl, by decide +kernel, rfl, .inr (by decide +kernel)⟩
  · exact ⟨onLink { link0 with rxNext := 1 } up, 0, _, _, _, by decide +kernel, data_good, rfl, rfl, by decide +kernel, .inr rfl⟩
  · exact ⟨onLink { link0 with episode := true } up, 0, _, by decide +kernel, bad_flit, by decide +kernel, by decide +kernel, .inr rfl⟩
  · exact ⟨onLink link0 up, 0, _, _, _, by decide +kernel, idle_good, rfl, rfl, .inr rfl⟩

end W18

namespace W19

def status1 : StatusRec := ⟨0, 100, 0, 1, 1, 0, 0, true, true⟩

def stag0 : Spine := { Spine.reset with running := true, stag := true, children := [(1, status1)] }

def sched0 : Sched := ⟨1, 0, [], []⟩

def syncPkt : Packet := spinePkt 1 (natLe 4 (2 ^ 16))

def withRse (f : Rse → Rse) (s : State) : State := { s with rse := f s.rse }

def govDone1 (s : State) : State := { s with num := { s.num with govDone := true } }

def stuck : State :=
  { running (tile0 ready0 0) with
    chans := { (running (tile0 ready0 0)).chans with table := [(0, { run0 with header := some ⟨true, 1, 64, 64, List.replicate 8 0⟩ })] }
    spine := { stag0 with newStag := true, started := true, sched := some sched0, tick := 2 ^ 41 } }

/-- What the clauses of SpineTimeAndCommitsTakeEffect assume can be met. -/
theorem witness_SpineTimeAndCommitsTakeEffect :
    (∃ s : State, s.spine.stag = true ∧ s.spine.tick % 64 = 0) ∧
    (∃ (s : State) (l : Fin 32) (p : Packet) (hops e : Nat), ArrivesOn s l p 1 ∧ skindOf p = 1 ∧
        some (fieldAt p.data 2 2) = s.links.table.map (·.herdId) ∧ fieldAt p.data 4 4 = s.spine.gen ∧
        fieldAt p.cword 1 1 / 16 % 4 = s.spine.cand ∧ s.spine.stag = false ∧ s.spine.parent = some p.srcPos ∧
        s.linkSet p.srcPos ≠ [] ∧ hops = fieldAt p.cword 1 1 % 16 ∧ hops ≤ s.spine.hops ∧
        e = fieldAt p.cword 2 6 * 1000 + fieldAt p.data 0 2 + (s.link l).latency ∧ Calm s ∧ s.spine.running = false) ∧
    (∃ (s : State) (l : Fin 32) (p : Packet) (hops e : Nat), ArrivesOn s l p 1 ∧ skindOf p = 1 ∧
        some (fieldAt p.data 2 2) = s.links.table.map (·.herdId) ∧ fieldAt p.data 4 4 = s.spine.gen ∧
        fieldAt p.cword 1 1 / 16 % 4 = s.spine.cand ∧ s.spine.stag = false ∧ s.spine.parent = some p.srcPos ∧
        s.linkSet p.srcPos ≠ [] ∧ hops = fieldAt p.cword 1 1 % 16 ∧ hops ≤ s.spine.hops ∧
        e = fieldAt p.cword 2 6 * 1000 + fieldAt p.data 0 2 + (s.link l).latency ∧ Calm s ∧ s.spine.running = true ∧
        ((e : Int) - s.spine.time).natAbs ≤ 1000) ∧
    (∃ (s : State) (k : Nat), s.candIndex = some k ∧ s.spine.running = true ∧ s.spine.stag = false ∧
        s.spine.lastSync + 200 + 100 * k ≤ s.spine.tick) ∧
    (∃ (s : State) (p k : Nat) (ks : List Nat), s.spine.stag = false ∧ s.spine.parent = some p ∧ s.linkSet p = k :: ks) ∧
    (∃ (s : State) (m : Nat), s.spine.stag = true ∧ s.spine.running = true ∧ s.spine.newStag = true ∧
        s.spine.faults = [] ∧ (noteReady s).aggregate.count = s.herdSize ∧ (noteReady s).aggregate.applied = m ∧
        s.spine.committed = some m) ∧
    (∃ (s : State) (l : Fin 32) (p : Packet), ArrivesOn s l p 1 ∧ skindOf p = 2 ∧ s.spine.stag = false ∧ Calm s) ∧
    (∃ (s : State) (a : StatusRec) (sn c : Nat), s.spine.stag = true ∧ s.spine.running = true ∧ s.spine.newStag = false ∧
        s.spine.faults = [] ∧ s.spine.started = true ∧ a = (noteReady s).aggregate ∧
        sn = (s.spine.fTick + (s.spine.sched.map (·.commitOffset)).getD 0) % 2 ^ 48 ∧
        c = max sn (a.readyTick + 1) % 2 ^ 48 ∧ a.count = s.herdSize ∧ a.ready = true ∧ c ≤ a.clean + 1 ∧
        c ≤ s.spine.tick ∧ s.spine.stopAfter ≠ some s.spine.step ∧ NoRequests s) ∧
    (∃ (s : State) (l : Fin 32) (p : Packet) (n c f : Nat), n = fieldAt p.data 0 8 ∧ c = fieldAt p.data 8 6 ∧
        f = fieldAt p.data 14 6 ∧ OrderOn s l p 3 n f ∧ Calm s ∧ s.spine.running = true ∧ s.spine.step = n ∧
        s.spine.tick ≤ f ∧ NoRequests s) ∧
    (∃ (s : State) (l : Fin 32) (p : Packet) (n c f : Nat), n = fieldAt p.data 0 8 ∧ c = fieldAt p.data 8 6 ∧
        f = fieldAt p.data 14 6 ∧ OrderOn s l p 3 n f ∧ Calm s ∧ s.spine.running = false ∧ s.rse.takeover = none ∧
        s.spine.sched.isSome = true) ∧
    (∃ (s : State) (l : Fin 32) (p : Packet) (n c f : Nat), n = fieldAt p.data 0 8 ∧ c = fieldAt p.data 8 6 ∧
        f = fieldAt p.data 14 6 ∧ OrderOn s l p 3 n f ∧ Calm s ∧ s.spine.running = false ∧ s.rse.takeover = none ∧
        s.spine.sched = none) ∧
    (∃ s : State, s.spine.running = true ∧ s.spine.started = false ∧ s.rse.window = 0 ∧ s.spine.fTick ≤ s.spine.tick ∧
        s.cle.heldPkts = [] ∧ Calm s) := by
  refine ⟨?_, ?_, ?_, ?_, ?_, ?_, ?_, ?_, ?_, ?_, ?_, ?_⟩
  · exact ⟨member stag0, rfl, by decide⟩
  · exact by
      refine ⟨member { spine0 with running := false }, 0, syncPkt, _, _, arrives0 _ _ _, ?_, ?_, ?_, ?_, rfl, rfl, ?_, rfl,
          ?_, rfl, .inr rfl, rfl⟩ <;>
        decide +kernel
  · exact by
      refine ⟨member spine0, 0, syncPkt, _, _, arrives0 _ _ _, ?_, ?_, ?_, ?_, rfl, rfl, ?_, rfl, ?_, rfl, .inr rfl, rfl,
          ?_⟩ <;>
        decide +kernel
  · exact ⟨member { spine0 with cands := [0], tick := 300 }, 1, by decide +kernel, rfl, rfl, by decide⟩
  · exact ⟨member spine0, 1, 0, [], rfl, rfl, by decide +kernel⟩
  · exact ⟨member { stag0 with newStag := true, committed := some 0 }, 0, rfl, rfl, rfl, rfl, by decide +kernel, by decide +kernel, rfl⟩
  · exact ⟨member spine0, 0, spinePkt 2 [], arrives0 _ _ _, by decide +kernel, rfl, .inr rfl⟩
  · exact ⟨govDone1 (member { stag0 with started := true, sched := some sched0, tick := 100, readyTick := some 0 }), _, _, _, rfl, rfl, rfl, rfl, rfl, rfl, rfl, rfl, by decide +kernel, by decide +kernel, by decide +kernel, by decide +kernel,
        (fun h => by cases h), no_requests _ rfl⟩
  · exact ⟨member spine0, 0, spinePkt 3 [], 0, _, _, by decide +kernel, rfl, rfl, ⟨arrives0 _ _ _, by decide +kernel, by decide +kernel⟩, .inr rfl, rfl, rfl, by decide +kernel, no_requests _ rfl⟩
  · exact ⟨member { spine0 with running := false, sched := some sched0 }, 0, spinePkt 3 [], _, _, _, rfl, rfl, rfl, ⟨arrives0 _ _ _, by decide +kernel, by decide +kernel⟩, .inr rfl, rfl, rfl, rfl⟩
  · exact ⟨member { spine0 with running := false }, 0, spinePkt 3 [], _, _, _, rfl, rfl, rfl, ⟨arrives0 _ _ _, by decide +kernel, by decide +kernel⟩, .inr rfl, rfl, rfl, rfl⟩
  · exact ⟨member spine0, rfl, rfl, rfl, by decide, rfl, .inr rfl⟩

/-- What the clauses of SpineOrdersTakeEffect assume can be met. -/
theorem witness_SpineOrdersTakeEffect :
    (∃ (s : State) (l : Fin 32) (p : Packet) (f : FaultRec), ArrivesOn s l p 1 ∧ skindOf p = 6 ∧ s.spine.running = true ∧
        f = ⟨fieldAt p.data 6 2, fieldAt p.data 8 1, fieldAt p.data 9 1, fieldAt p.data 0 6, 0xFFFF⟩ ∧
        s.spine.stag = true ∧ s.spine.newStag = true) ∧
    (∃ (s : State) (l : Fin 32) (p : Packet) (f : FaultRec), ∃ q k ks, ArrivesOn s l p 1 ∧ skindOf p = 6 ∧
        s.spine.running = true ∧
        f = ⟨fieldAt p.data 6 2, fieldAt p.data 8 1, fieldAt p.data 9 1, fieldAt p.data 0 6, 0xFFFF⟩ ∧
        s.spine.stag = false ∧ s.spine.parent = some q ∧ s.linkSet q = k :: ks ∧ Calm s) ∧
    (∃ (s : State) (l : Fin 32) (p : Packet) (f : FaultRec), ∃ m fp, ArrivesOn s l p 1 ∧ skindOf p = 6 ∧
        s.spine.running = true ∧
        f = ⟨fieldAt p.data 6 2, fieldAt p.data 8 1, fieldAt p.data 9 1, fieldAt p.data 0 6, 0xFFFF⟩ ∧
        s.spine.stag = true ∧ s.spine.newStag = false ∧ s.spine.faults = [] ∧ f.cls ≤ 1 ∧ s.spine.answered ≤ f.stamp ∧
        s.rse.window = 0 ∧ s.rse.replays < s.rse.limits.replay ∧ s.rse.repairs = [] ∧ NoRequests s ∧ m = s.lastCommit ∧
        s.spine.step ≠ m ∧
        fp = max (s.spine.tick + s.spine.spineRound + s.spine.rewindTicks) (s.spine.answered + 1) % 2 ^ 48) ∧
    (∃ (s : State) (l : Fin 32) (p : Packet) (m fp : Nat), m = fieldAt p.data 0 8 ∧ fp = fieldAt p.data 14 6 ∧
        OrderOn s l p 4 m fp ∧ s.spine.running = true ∧ s.rse.window ≠ 2 ∧ s.spine.step ≠ m ∧ s.rse.repairs = [] ∧
        NoRequests s ∧ Calm s) ∧
    (∃ (s : State) (l : Fin 32) (p : Packet) (m : Nat), m = fieldAt p.data 0 8 ∧ OrderOn s l p 5 m 0 ∧
        s.spine.running = true ∧ s.spine.step ≠ m ∧ (orderFault p.data).cls ≠ 2 ∧ s.ptu.lostLenders = [] ∧
        NoRequests s ∧ Calm s) ∧
    (∃ (s : State) (l : Fin 32) (p : Packet) (pos f g : Nat), pos = fieldAt p.data 0 2 ∧ f = fieldAt p.data 2 2 ∧
        g = fieldAt p.data 4 4 ∧ OrderOn s l p 7 g 0 ∧ s.spine.running = true ∧ s.rse.window = 0 ∧ s.myPos ≠ f ∧ Calm s) ∧
    (∃ s : State, s.rse.window = 1 ∧ s.rse.restoring = true ∧ s.rse.repairs = [] ∧ s.rse.late = false) ∧
    (∃ s : State, s.rse.window = 1 ∧ s.rse.restoring = true ∧ s.rse.repairs = [] ∧ s.rse.late = true ∧
        s.cle.heldPkts = [] ∧ Calm s) ∧
    (∃ s : State, s.rse.window = 1 ∧ s.spine.running = true ∧ s.spine.started = false ∧ s.spine.fTick ≤ s.spine.tick ∧
        s.rse.restoring = true) ∧
    (∃ s : State, s.rse.window = 1 ∧ s.spine.running = true ∧ s.spine.started = false ∧ s.spine.fTick ≤ s.spine.tick ∧
        s.rse.restoring = false ∧ s.cle.heldPkts = [] ∧ Calm s) ∧
    (∃ (s : State) (c : Fin 4096) (x : Chan) (w : Nat), s.chan c = some x ∧ s.spine.running = true ∧
        s.spine.started = true ∧ x.running = true ∧ x.started = true ∧ (x.header.map (·.periodic)).getD false = true ∧
        s.chanDone x = false ∧
        w = (if s.rse.limits.watchdog = 0 then 2 * (s.spine.sched.map (·.commitOffset)).getD 0 else s.rse.limits.watchdog) ∧
        s.spine.fTick + w ≤ s.spine.tick ∧ s.spine.stag = true ∧ s.spine.newStag = true) := by
  refine ⟨?_, ?_, ?_, ?_, ?_, ?_, ?_, ?_, ?_, ?_, ?_⟩
  · exact ⟨member { stag0 with newStag := true }, 0, spinePkt 6 [], _, arrives0 _ _ _, by decide +kernel, rfl, rfl, rfl, rfl⟩
  · exact ⟨member spine0, 0, spinePkt 6 [], _, 1, 0, [], arrives0 _ _ _, by decide +kernel, rfl, rfl, rfl, rfl, by decide +kernel, .inr rfl⟩
  · exact ⟨member { stag0 with step := 1 }, 0, spinePkt 6 [], _, _, _, arrives0 _ _ _, by decide +kernel, rfl, rfl, rfl, rfl, rfl, by decide +kernel, by decide +kernel, rfl, by decide +kernel, rfl, no_requests _ rfl, rfl, by decide +kernel, rfl⟩
  · exact ⟨member { spine0 with step := 1 }, 0, spinePkt 4 [], 0, _, by decide +kernel, rfl, ⟨arrives0 _ _ _, by decide +kernel, by decide +kernel⟩, rfl, by decide, by decide, rfl, no_requests _ rfl, .inr rfl⟩
  · exact ⟨member { spine0 with step := 1 }, 0, spinePkt 5 [], 0, by decide +kernel, ⟨arrives0 _ _ _, by decide +kernel, by decide +kernel⟩, rfl, by decide, by decide +kernel, rfl, no_requests _ rfl, .inr rfl⟩
  · exact ⟨member spine0, 0, spinePkt 7 (natLe 4 (2 ^ 16)), _, _, _, rfl, rfl, rfl, ⟨arrives0 _ _ _, by decide +kernel, by decide +kernel⟩, rfl, rfl, by decide +kernel, .inr rfl⟩
  · exact ⟨withRse (fun x => { x with window := 1, restoring := true }) (member spine0), rfl, rfl, rfl, rfl⟩
  · exact ⟨withRse (fun x => { x with window := 1, restoring := true, late := true }) (member spine0), rfl, rfl, rfl, rfl, rfl, .inr rfl⟩
  · exact ⟨withRse (fun x => { x with window := 1, restoring := true }) (member spine0), rfl, rfl, rfl, by decide, rfl⟩
  · exact ⟨withRse (fun x => { x with window := 1 }) (member spine0), rfl, rfl, rfl, by decide, rfl, rfl, .inr rfl⟩
  · exact ⟨stuck, 0, { run0 with header := some ⟨true, 1, 64, 64, List.replicate 8 0⟩ }, _, by decide +kernel, rfl, rfl, rfl, rfl, rfl, by decide +kernel, rfl, by decide +kernel, rfl, rfl⟩

end W19

namespace W20

def collEntry (op : Nat) : Entry := ⟨op, 0, 0, false, 0, 0, 0, false, false, 2, 0, 0, 0, 0, 2, 32, 0, 0, 0, 0, 0⟩

def collSt (op : Nat) (pos : List Nat) (r : Run) : State :=
  { member { spine0 with started := true, sched := some ⟨1, 0, [collEntry op], []⟩ } with
    cle := { Cle.reset with groups := [(0, ⟨0, 0, pos⟩)], runs := [(0, r)] } }

def collDigest (op : Nat) : Nat := ((collSt op [0, 1] Run.reset).digest (collEntry op) Run.reset).toNat

def collPkt (op kind rank : Nat) (body : List Byte) : Packet :=
  ⟨if op = 7 then 3 else 2, 1, 1, 0, natLe 4 (collDigest op) ++ natLe 1 kind ++ natLe 3 0, natLe 12 0 ++ natLe 2 rank ++ natLe 2 0 ++ body⟩

def begun : Run := { Run.reset with started := true }

def begunWith (c : Chunk) : Run := { begun with chunks := [(0, c)] }

def taken0 : Chunk := { Chunk.reset with admitted := true }

def newStagged (s : State) : State := { s with spine := { s.spine with newStag := true } }

def full0 : Chunk := { taken0 with kids := [(1, [(0, .fin false 1 0), (1, .fin false 1 0)])] }

def two32 : List Byte := natLe 4 0x3F800000 ++ natLe 4 0x40000000

def tripleBody (op : Nat) : List Byte := natLe 8 1 ++ natLe 4 (collDigest op) ++ natLe 2 1 ++ natLe 2 1

/-- What the clauses of CollectiveEventsTakeEffect assume can be met. -/
theorem witness_CollectiveEventsTakeEffect :
    (∃ (s : State) (entry k due : Nat) (r : Run) (e : Entry), s.spine.running = true ∧ s.spine.started = true ∧
        s.runsOf entry = [k] ∧ SMap.lookup s.cle.runs k = some r ∧ s.entryOf k = some e ∧ r.started = false ∧
        r.summed = false ∧ due = s.spine.fTick + (if k < 4096 then e.start else 0) ∧ due ≤ s.spine.tick ∧ Calm s ∧
        (∃ q ∈ (s.nodeFor e 0).kids, SMap.lookup r.kids q = none)) ∧
    (∃ (s : State) (entry k due : Nat) (r : Run) (e : Entry), ∃ q, s.spine.running = true ∧ s.spine.started = true ∧
        s.runsOf entry = [k] ∧ SMap.lookup s.cle.runs k = some r ∧ s.entryOf k = some e ∧ r.started = false ∧
        r.summed = false ∧ due = s.spine.fTick + (if k < 4096 then e.start else 0) ∧ due ≤ s.spine.tick ∧ Calm s ∧
        (∀ c ∈ (s.nodeFor e 0).kids, (SMap.lookup r.kids c).isSome = true) ∧ (s.nodeFor e 0).up = some q) ∧
    (∃ (s : State) (sect : Fin 4) (k j : Nat) (e : Entry) (r : Run), s.nextChunk sect = some (k, e, r, j) ∧
        RunOpen s k e r ∧ s.claimed sect + s.claimOf e r j ≤ sectionBytes ∧ Calm s) ∧
    (∃ (s : State) (l : Fin 32) (p : Packet) (k j : Nat) (e : Entry) (r : Run), CollOn s l p 2 k ∧ RunOpen s k e r ∧
        e.op ≠ 6 ∧ j = fieldAt p.data 4 4 ∧
        (s.nodeAt e j).up = some (relRank (s.groupSize e) (s.nodeAt e j).root (fieldAt p.data 12 2)) ∧ Calm s) ∧
    (∃ (s : State) (l : Fin 32) (p : Packet) (k j off n q : Nat) (e : Entry) (r : Run) (vs : List Machine.Num) (c : Chunk),
        CollOn s l p 0 k ∧ RunOpen s k e r ∧ j = fieldAt p.data 4 4 ∧ off = fieldAt p.data 8 4 ∧ c = r.chunk j ∧
        n = (e.chunkSpan (s.groupSize e) j).2 ∧ q = relRank (s.groupSize e) (s.nodeAt e j).root (fieldAt p.data 12 2) ∧
        q ∈ (s.nodeAt e j).kids ∧ j < e.chunkCount (s.groupSize e) ∧ e.op ≠ 6 ∧ c.valued = false ∧ c.done = false ∧
        vs = wireDecode r.fmt r.texp (elemsIn r.fmt false (p.data.drop 16).length (n - off)) (p.data.drop 16) ∧ Calm s ∧
        c.admitted = false) ∧
    (∃ (s : State) (l : Fin 32) (p : Packet) (k j off n q : Nat) (e : Entry) (r : Run) (vs : List Machine.Num) (c : Chunk),
        CollOn s l p 0 k ∧ RunOpen s k e r ∧ j = fieldAt p.data 4 4 ∧ off = fieldAt p.data 8 4 ∧ c = r.chunk j ∧
        n = (e.chunkSpan (s.groupSize e) j).2 ∧ q = relRank (s.groupSize e) (s.nodeAt e j).root (fieldAt p.data 12 2) ∧
        q ∈ (s.nodeAt e j).kids ∧ j < e.chunkCount (s.groupSize e) ∧ e.op ≠ 6 ∧ c.valued = false ∧ c.done = false ∧
        vs = wireDecode r.fmt r.texp (elemsIn r.fmt false (p.data.drop 16).length (n - off)) (p.data.drop 16) ∧ Calm s ∧
        c.admitted = true ∧ (s.nodeAt e j).up = none ∧ ((e.op = 1 ∨ e.op = 3)) ∧
        ((r.step ≠ s.spine.step ∨ s.bindsFor k (e.chunkSpan (s.groupSize e) j).1 n = [])) ∧
        (∀ i ∈ (s.nodeAt e j).kids, n ≤ (if i = q then valueMap off vs (SMap.getD c.kids q []) else SMap.getD c.kids i []).length)) ∧
    (∃ (s : State) (l : Fin 32) (p : Packet) (i : Instr) (k j off n m : Nat) (e : Entry) (r : Run) (c : Chunk)
      (d : SMap Machine.Num), ((i = .downData l p ∧ p.cls = 2 ∧ e.op ≠ 6 ∨ i = .pipelineTransfer l p ∧ p.cls = 3 ∧ e.op = 7)) ∧ CollOn s l p 1 k ∧ RunOpen s k e r ∧ j = fieldAt p.data 4 4 ∧ off = fieldAt p.data 8 4 ∧ c = r.chunk j ∧ n = (e.chunkSpan (s.groupSize e) j).2 ∧ (fieldAt p.cword 5 1).testBit 0 = false ∧ c.done = false ∧ (s.nodeAt e j).up = some (relRank (s.groupSize e) (s.nodeAt e j).root (fieldAt p.data 12 2)) ∧ (s.nodeAt e j).q ≠ 0 ∧ j < e.chunkCount (s.groupSize e) ∧ m = elemsIn r.fmt false (p.data.drop 16).length (n - off) ∧ d = valueMap off (wireDecode r.fmt r.texp m ((p.data.drop 16).take (wireLen r.fmt m))) c.down ∧ Calm s ∧ c.admitted = false) ∧
    (∃ (s : State) (l : Fin 32) (p : Packet) (i : Instr) (k j off n m : Nat) (e : Entry) (r : Run) (c : Chunk)
      (d : SMap Machine.Num), ((i = .downData l p ∧ p.cls = 2 ∧ e.op ≠ 6 ∨ i = .pipelineTransfer l p ∧ p.cls = 3 ∧ e.op = 7)) ∧ CollOn s l p 1 k ∧ RunOpen s k e r ∧ j = fieldAt p.data 4 4 ∧ off = fieldAt p.data 8 4 ∧ c = r.chunk j ∧ n = (e.chunkSpan (s.groupSize e) j).2 ∧ (fieldAt p.cword 5 1).testBit 0 = false ∧ c.done = false ∧ (s.nodeAt e j).up = some (relRank (s.groupSize e) (s.nodeAt e j).root (fieldAt p.data 12 2)) ∧ (s.nodeAt e j).q ≠ 0 ∧ j < e.chunkCount (s.groupSize e) ∧ m = elemsIn r.fmt false (p.data.drop 16).length (n - off) ∧ d = valueMap off (wireDecode r.fmt r.texp m ((p.data.drop 16).take (wireLen r.fmt m))) c.down ∧ Calm s ∧ c.admitted = true ∧ n ≤ d.length ∧ ((e.op = 4 ∨ e.op = 5 ∨ e.op = 7))) ∧
    (∃ (s : State) (l : Fin 32) (p : Packet) (k q : Nat) (e : Entry) (r : Run) (tr : List Triple × Bool),
        CollOn s l p 3 k ∧ SMap.lookup s.cle.runs k = some r ∧ s.entryOf k = some e ∧
        q = relRank (s.groupSize e) 0 (fieldAt p.data 12 2) ∧ q ∈ (s.nodeFor e 0).kids ∧
        tr = triplesOf (p.data.drop 16) ∧ Calm s ∧ r.started = false) ∧
    (∃ (s : State) (l : Fin 32) (p : Packet) (k q : Nat) (e : Entry) (r : Run) (tr : List Triple × Bool),
        CollOn s l p 3 k ∧ SMap.lookup s.cle.runs k = some r ∧ s.entryOf k = some e ∧
        q = relRank (s.groupSize e) 0 (fieldAt p.data 12 2) ∧ q ∈ (s.nodeFor e 0).kids ∧
        tr = triplesOf (p.data.drop 16) ∧ Calm s ∧ r.started = true ∧ r.summed = false ∧ (s.nodeFor e 0).up = none ∧
        ((∀ c ∈ (s.nodeFor e 0).kids, c ≠ q → (SMap.lookup r.kids c).isSome = true)) ∧
        (mergeTriples ([⟨s.digest e r, 1, s.myPos⟩] :: (SMap.put r.kids q tr.1).map (·.2)) (r.overflow || tr.2)).1.length = 1) ∧
    (∃ (s : State) (l : Fin 32) (p : Packet) (k : Nat) (e : Entry) (r : Run), CollOn s l p 4 k ∧
        SMap.lookup s.cle.runs k = some r ∧ s.entryOf k = some e ∧
        (s.nodeFor e 0).up = some (relRank (s.groupSize e) 0 (fieldAt p.data 12 2)) ∧ r.sealed = false ∧
        r.aborted = false ∧ Calm s) ∧
    (∃ (s : State) (l : Fin 32) (p : Packet) (k : Nat) (e : Entry) (r : Run), CollOn s l p 5 k ∧
        SMap.lookup s.cle.runs k = some r ∧ s.entryOf k = some e ∧
        (s.nodeFor e 0).up = some (relRank (s.groupSize e) 0 (fieldAt p.data 12 2)) ∧ r.sealed = false ∧
        r.aborted = false ∧ s.spine.newStag = true) ∧
    (∃ (s : State) (entry k j n : Nat) (e : Entry) (r : Run) (c : Chunk), s.runsOf entry = [k] ∧ RunOpen s k e r ∧
        c = r.chunk j ∧ n = (e.chunkSpan (s.groupSize e) j).2 ∧ (s.nodeAt e j).up = none ∧ ((e.op = 1 ∨ e.op = 3)) ∧
        c.admitted = true ∧ c.valued = false ∧ c.done = false ∧
        ((r.step = s.spine.step → k < 4096 → c.covered (s.bindsFor k (e.chunkSpan (s.groupSize e) j).1 n) = true)) ∧
        (∀ q ∈ (s.nodeAt e j).kids, n ≤ (SMap.getD c.kids q []).length) ∧ Calm s) := by
  refine ⟨?_, ?_, ?_, ?_, ?_, ?_, ?_, ?_, ?_, ?_, ?_, ?_, ?_⟩
  · exact ⟨collSt 3 [0, 1] Run.reset, 0, 0, _, Run.reset, _, rfl, rfl, rfl, rfl, rfl, rfl, rfl, rfl, by decide, .inr rfl, 1, by decide, rfl⟩
  · exact ⟨collSt 3 [1, 0] Run.reset, 0, 0, _, Run.reset, _, 0, rfl, rfl, rfl, rfl, rfl, rfl, rfl, rfl, by decide, .inr rfl, by decide, rfl⟩
  · exact ⟨collSt 3 [0, 1] begun, 0, 0, 0, _, begun, rfl, ⟨rfl, rfl, rfl, rfl, rfl, rfl, rfl, rfl, rfl⟩, by decide +kernel, .inr rfl⟩
  · exact ⟨collSt 3 [1, 0] begun, 0, collPkt 3 2 0 [], 0, _, _, begun, ⟨.inl ⟨rfl, by decide +kernel, rfl⟩, by decide +kernel, by decide +kernel⟩,
        ⟨rfl, rfl, rfl, rfl, rfl, rfl, rfl, rfl, rfl⟩, by decide, rfl, by decide +kernel, .inr rfl⟩
  · exact by
      refine ⟨collSt 3 [0, 1] begun, 0, collPkt 3 0 1 two32, 0, _, _, _, _, _, begun, _, _,
          ⟨.inl ⟨rfl, by decide +kernel, rfl⟩, by decide +kernel, by decide +kernel⟩,
          ⟨rfl, rfl, rfl, rfl, rfl, rfl, rfl, rfl, rfl⟩, rfl, rfl, rfl, rfl, rfl, ?_, ?_, ?_, ?_, ?_, rfl, .inr rfl,
          ?_⟩ <;>
        decide +kernel
  · exact by
      refine ⟨collSt 3 [0, 1] (begunWith taken0), 0, collPkt 3 0 1 two32, 0, _, _, _, _, _, begunWith taken0, _, _,
          ⟨.inl ⟨rfl, by decide +kernel, rfl⟩, by decide +kernel, by decide +kernel⟩,
          ⟨rfl, rfl, rfl, rfl, rfl, rfl, rfl, rfl, rfl⟩, rfl, rfl, rfl, rfl, rfl, ?_, ?_, ?_, ?_, ?_, rfl, .inr rfl,
          ?_, ?_, .inr rfl, .inr (by decide +kernel), ?_⟩ <;>
        decide +kernel
  · exact by
      refine ⟨collSt 5 [1, 0] begun, 0, collPkt 5 1 0 two32, .downData 0 (collPkt 5 1 0 two32), 0, _, _, _, _, _, begun, _,
          _, .inl ⟨rfl, rfl, by decide⟩, ⟨.inl ⟨rfl, by decide +kernel, rfl⟩, by decide +kernel, by decide +kernel⟩,
          ⟨rfl, rfl, rfl, rfl, rfl, rfl, rfl, rfl, rfl⟩, rfl, rfl, rfl, rfl, ?_, ?_, ?_, ?_, ?_, rfl, rfl, .inr rfl,
          ?_⟩ <;>
        decide +kernel
  · exact by
      refine ⟨collSt 7 [1, 0] (begunWith taken0), 0, collPkt 7 1 0 two32, .pipelineTransfer 0 (collPkt 7 1 0 two32), 0, _,
          _, _, _, _, begunWith taken0, _, _, .inr ⟨rfl, rfl, rfl⟩,
          ⟨.inr ⟨rfl, by decide +kernel, rfl⟩, by decide +kernel, by decide +kernel⟩,
          ⟨rfl, rfl, rfl, rfl, rfl, rfl, rfl, rfl, rfl⟩, rfl, rfl, rfl, rfl, ?_, ?_, ?_, ?_, ?_, rfl, rfl, .inr rfl,
          ?_, ?_, .inr (.inr rfl)⟩ <;>
        decide +kernel
  · exact ⟨collSt 3 [0, 1] Run.reset, 0, collPkt 3 3 1 (tripleBody 3), 0, _, _, Run.reset, _, ⟨.inl ⟨rfl, by decide +kernel, rfl⟩, by decide +kernel, by decide +kernel⟩, rfl, rfl, rfl, by decide +kernel, rfl, .inr rfl, rfl⟩
  · exact by
      refine ⟨collSt 3 [0, 1] begun, 0, collPkt 3 3 1 (tripleBody 3), 0, 1, _, begun, _,
          ⟨.inl ⟨rfl, by decide +kernel, rfl⟩, by decide +kernel, by decide +kernel⟩, rfl, rfl, ?_, ?_, rfl,
          .inr rfl, rfl, rfl, ?_, ?_, ?_⟩ <;>
        decide +kernel
  · exact ⟨collSt 3 [1, 0] begun, 0, collPkt 3 4 0 [], 0, _, begun, ⟨.inl ⟨rfl, by decide +kernel, rfl⟩, by decide +kernel, by decide +kernel⟩, rfl, rfl, by decide +kernel, rfl, rfl, .inr rfl⟩
  · exact ⟨newStagged (collSt 3 [1, 0] begun), 0, collPkt 3 5 0 (natLe 8 0 ++ natLe 8 0), 0, _, begun, ⟨.inl ⟨rfl, by decide +kernel, rfl⟩, by decide +kernel, by decide +kernel⟩, rfl, rfl, by decide +kernel, rfl, rfl, rfl⟩
  · exact ⟨collSt 3 [0, 1] (begunWith full0), 0, 0, 0, _, _, begunWith full0, _, rfl, ⟨rfl, rfl, rfl, rfl, rfl, rfl, rfl, rfl, rfl⟩, rfl, rfl, by decide +kernel, .inr rfl, rfl, rfl, rfl, (fun _ _ => by decide +kernel),
        by decide +kernel, .inr rfl⟩

end W20

namespace W21

def mirror1 (n : Nat) : MirrorRec := { MirrorRec.reset with twinPos := 1, mirrorOf := 1, n := n }

def rseOf (x : Rse) (s : State) : State := { s with rse := x }

def herdUp : State := herd2 up

def stream3 : Stream := { Stream.reset with part3 := sha3 [] }

def taking1 (a b : Stream) : Takeover := ⟨1, 2, 0, 0, 0, 0, true, 0, false, a, b⟩

def takeSt (n : Nat) (a b : Stream) : State := rseOf { Rse.reset with window := 2, mirror := mirror1 n, takeover := some (taking1 a b) } herdUp

def statePkt (part : Nat) : Packet := ⟨8, 3, 1, 0, natLe 6 0 ++ natLe 2 part, [1, 2, 3, 4]⟩

def stream3d : Stream := { stream3 with done := true }

theorem hash3 : sha3 ([] ++ stream3.part1 ++ stream3.part2) = stream3.part3 := by
  rw [show ([] : List Byte) ++ stream3.part1 ++ stream3.part2 = [] from rfl]
  unfold stream3
  with_reducible rfl

theorem fetch0 (part a : Nat) (s : State) : vaRead part a 0 s = ([], false, s) := rfl

def scrub1 : Scrub := ⟨0, 0, 0, 0, hostPtr 0, 0, 0, 0, 0, 0, 0, 0, 0, 1⟩

def linkInj (a : Bool) : Inj := ⟨9, 1, 0, 0, 1, 0, false, a⟩

def injSt (st : Nat) (a : Bool) : State :=
  rseOf { Rse.reset with inj := [(0, linkInj a)] } { up with links := { links2 with links := [(0, { link0 with st := st })] } }

def manifestSt : State :=
  rseOf { Rse.reset with mirror := mirror1 0, manifests := [(1, 0, 0, 1)], takeover := some { taking1 stream3 stream3 with manifestDone := false } }
    { withPage [] up with ptu := { Ptu.reset with pages := [(0, { page 0 with motion := true })] } }

def waitsCalm : Manifest → Bool
  | .waits s => s.spine.faults.isEmpty
  | _ => false

theorem manifest_waits : ∃ s', runManifest 1 manifestSt = .waits s' ∧ Calm s' := by
  have h : waitsCalm (runManifest 1 manifestSt) = true := by decide +kernel
  generalize runManifest 1 manifestSt = m at h
  cases m with
  | waits s => exact ⟨s, rfl, .inr (List.isEmpty_iff.1 h)⟩
  | _ => cases h

/-- What the clauses of ResilienceEventsTakeEffect assume can be met. -/
theorem witness_ResilienceEventsTakeEffect :
    (∃ (s u : State) (mirror : Bool) (block : Nat) (data : List Byte), (mirror, block) ∈ s.rse.repairs ∧
        u = writeBlock s.rse.mirror.part (blockPieces (s.bankAt mirror).1 (s.bankAt mirror).2 block) (padTo 49664 data) s ∧
        Calm s) ∧
    (∃ (s s' : State) (l : Fin 32) (mirror bad : Bool) (k : Nat) (ks : List Nat) (b : Nat × Nat) (d : List Byte),
        s.peerOf l ≠ 0xFFFF ∧ (if mirror then s.rse.mirror.twinPos else s.rse.mirror.mirrorOf) = s.peerOf l ∧
        (s.link l).st = 3 ∧ s.linkSet (s.peerOf l) = k :: ks ∧ s.links.isolated = false ∧ b = s.bankAt (!mirror) ∧
        4096 ≤ bankBytes b.2 ∧ vaRead s.rse.mirror.part b.1 (bankBytes b.2) s = (d, bad, s') ∧ Calm s) ∧
    (∃ (s s' : State) (l : Fin 32) (mirror bad : Bool) (n k : Nat) (ks : List Nat) (b : Nat × Nat) (d : List Byte),
        s.peerOf l ≠ 0xFFFF ∧ (if mirror then s.rse.mirror.twinPos else s.rse.mirror.mirrorOf) = s.peerOf l ∧
        (s.link l).st = 3 ∧ s.linkSet (s.peerOf l) = k :: ks ∧ s.links.isolated = false ∧ b = s.bankAt (!mirror) ∧
        8192 * (n + 1) ≤ b.2 ∧ vaRead s.rse.mirror.part (b.1 + 32768 * n) 32768 s = (d, bad, s') ∧ Calm s) ∧
    (∃ (s : State) (l : Fin 32) (p : Packet) (x : Takeover) (y : Stream) (mirror : Bool), ArrivesOn s l p 8 ∧
        s.taking = some x ∧ x.manifestDone = true ∧ s.streamOf x p.srcPos = some mirror ∧
        y = (if mirror then x.mirror else x.own) ∧ Calm s ∧ fieldAt p.cword 6 1 = 1) ∧
    (∃ (s : State) (l : Fin 32) (p : Packet) (x : Takeover) (y : Stream) (mirror : Bool), ∃ pa, ArrivesOn s l p 8 ∧
        s.taking = some x ∧ x.manifestDone = true ∧ s.streamOf x p.srcPos = some mirror ∧
        y = (if mirror then x.mirror else x.own) ∧ Calm s ∧ fieldAt p.cword 6 1 = 0 ∧
        fieldAt p.cword 0 6 + p.data.length ≤ bankBytes (s.bankAt mirror).2 ∧
        s.vaPa s.rse.mirror.part ((s.bankAt mirror).1 + fieldAt p.cword 0 6) = some pa ∧
        pa % pageSize + p.data.length ≤ pageSize) ∧
    (∃ (s : State) (l : Fin 32) (p : Packet) (mirror : Bool) (pa : Nat), ArrivesOn s l p 8 ∧ s.taking = none ∧
        s.repairAt p.srcPos (fieldAt p.cword 0 6) = some mirror ∧ fieldAt p.cword 6 1 = 0 ∧
        s.vaPa s.rse.mirror.part ((s.bankAt mirror).1 + fieldAt p.cword 0 6) = some pa ∧
        pa % pageSize + p.data.length ≤ pageSize ∧ Calm s) ∧
    (∃ (s s' : State) (x : Takeover), s.taking = some x ∧ x.manifestDone = false ∧ runManifest x.pos s = .waits s' ∧
        Calm s') ∧
    (∃ (s s' : State) (x : Takeover), s.taking = some x ∧ x.manifestDone = false ∧ runManifest x.pos s = .ran s' ∧
        s'.rse.mirror.twinPos ≠ 0xFFFF ∧ s'.rse.mirror.mirrorOf ≠ 0xFFFF ∧ Calm s') ∧
    (∃ (s s' : State) (mirror bad : Bool) (x : Takeover) (y : Stream) (d : List Byte), s.taking = some x ∧
        y = (if mirror then x.mirror else x.own) ∧ x.manifestDone = true ∧ y.done = false ∧
        vaRead s.rse.mirror.part (s.bankAt mirror).1 (bankBytes (s.bankAt mirror).2) s = (d, bad, s') ∧
        s'.rse.takeover = s.rse.takeover ∧ Calm s' ∧ sha3 (d ++ y.part1 ++ y.part2) = y.part3 ∧
        (if mirror then x.own else x.mirror).done = false) ∧
    (∃ (s s' : State) (mirror bad : Bool) (x : Takeover) (y : Stream) (d : List Byte), s.taking = some x ∧
        y = (if mirror then x.mirror else x.own) ∧ x.manifestDone = true ∧ y.done = false ∧
        vaRead s.rse.mirror.part (s.bankAt mirror).1 (bankBytes (s.bankAt mirror).2) s = (d, bad, s') ∧
        s'.rse.takeover = s.rse.takeover ∧ Calm s' ∧ sha3 (d ++ y.part1 ++ y.part2) = y.part3 ∧
        (if mirror then x.own else x.mirror).done = true) ∧
    (∃ (s s' : State) (mirror bad : Bool) (x : Takeover) (y : Stream) (d : List Byte), s.taking = some x ∧
        y = (if mirror then x.mirror else x.own) ∧ x.manifestDone = true ∧ y.done = false ∧
        vaRead s.rse.mirror.part (s.bankAt mirror).1 (bankBytes (s.bankAt mirror).2) s = (d, bad, s') ∧
        s'.rse.takeover = s.rse.takeover ∧ Calm s' ∧ sha3 (d ++ y.part1 ++ y.part2) ≠ y.part3 ∧ y.retried = false) ∧
    (∃ (s : State) (x : Takeover), s.rse.window = 2 ∧ s.rse.takeover = some x ∧ x.failed = false ∧ s.rse.ordered = none ∧
        s.spine.stag = false ∧ Calm s) ∧
    (∃ (s : State) (o : Nat × Nat), s.rse.window = 2 ∧ s.rse.takeover = none ∧ s.rse.ordered = some o ∧
        s.spine.stag = true ∧ s.spine.running = true ∧ s.spine.newStag = true ∧ s.ptu.lostLenders = []) ∧
    (∃ (s s' : State) (x : Scrub) (r : Scrub × State), s.rse.scrub = some x ∧ x.state = 1 ∧
        r = scrubTo (x.len / pageSize) x s ∧ endScrub r.1 2 r.2 = .ok s' ∧ Calm s') ∧
    (∃ (s : State) (slot : Fin 16) (e : Inj), SMap.lookup s.rse.inj slot = some e ∧ e.site = 9 ∧ e.active = false ∧
        e.after ≤ s.spine.tick ∧ ((∀ l, l < 32 → e.loc.testBit l = true → (s.link l).st ≠ 3)) ∧ Calm s) ∧
    (∃ (s : State) (slot : Fin 16) (e : Inj), ∃ l, SMap.lookup s.rse.inj slot = some e ∧ e.site = 9 ∧ e.active = false ∧
        e.after ≤ s.spine.tick ∧ l < 32 ∧ e.loc = 2 ^ l ∧ (s.link l).st = 3 ∧ Still s) ∧
    (∃ (s : State) (slot : Fin 16) (e : Inj), SMap.lookup s.rse.inj slot = some e ∧ e.site = 9 ∧ e.active = true) ∧
    (∃ (s : State) (i : Instr) (c : Nat),
        ((c = 3 ∧ i = .camloWatchdogExpiry ∨ ∃ f : Fin 6, c = f.val ∧ c ≠ 0 ∧ i = .fatalEvent f)) ∧ 7 ≤ s.sys.bootStep ∧
        s.rse.fatal = none ∧ NoRequests s ∧ Still s) ∧
    (∃ (s : State) (i : Instr) (c : Nat),
        ((c = 3 ∧ i = .camloWatchdogExpiry ∨ ∃ f : Fin 6, c = f.val ∧ c ≠ 0 ∧ i = .fatalEvent f)) ∧ 7 ≤ s.sys.bootStep ∧
        s.rse.fatal ≠ none ∧ s.rse.dumping = true ∧ Calm s) ∧
    (∃ (s : State) (d : Dump), s.rse.dumping = true ∧ s.rse.dump = some d) := by
  refine ⟨?_, ?_, ?_, ?_, ?_, ?_, ?_, ?_, ?_, ?_, ?_, ?_, ?_, ?_, ?_, ?_, ?_, ?_, ?_, ?_⟩
  · exact ⟨rseOf { Rse.reset with repairs := [(false, 0)] } up, _, false, 0, [], List.mem_singleton.2 rfl, rfl, .inr rfl⟩
  · exact ⟨rseOf { Rse.reset with mirror := mirror1 1024 } herdUp, _, 0, true, _, 0, [], _, _, by decide +kernel, by decide +kernel, rfl, by decide +kernel, rfl, rfl, by decide, rfl, .inr rfl⟩
  · exact ⟨rseOf { Rse.reset with mirror := mirror1 8192 } herdUp, _, 0, true, _, 0, 0, [], _, _, by decide +kernel, by decide +kernel, rfl, by decide +kernel, rfl, rfl, by decide, rfl, .inr rfl⟩
  · exact ⟨takeSt 0 stream3 stream3, 0, statePkt 1, taking1 stream3 stream3, _, false, ⟨rfl, by decide +kernel, rfl⟩, rfl, rfl, by decide +kernel, rfl, .inr rfl, by decide⟩
  · exact by
      refine ⟨withPage [] (takeSt 1024 stream3 stream3), 0, statePkt 0, taking1 stream3 stream3, _, false, 0,
          ⟨rfl, by decide +kernel, rfl⟩, rfl, rfl, ?_, rfl, .inr rfl, ?_, ?_, ?_, ?_⟩ <;>
        decide +kernel
  · exact ⟨withPage [] (rseOf { Rse.reset with mirror := mirror1 1024, repairs := [(false, 0)] } herdUp), 0, statePkt 0, false, 0, ⟨rfl, by decide +kernel, rfl⟩, rfl, by decide +kernel, by decide, by decide +kernel, by decide +kernel, .inr rfl⟩
  · exact by
      obtain ⟨s', h, hc⟩ := manifest_waits
      exact ⟨manifestSt, s', { taking1 stream3 stream3 with manifestDone := false }, rfl, rfl, h, hc⟩
  · exact ⟨rseOf { Rse.reset with mirror := mirror1 0, manifests := [(1, 0, 0, 0)], takeover := some { taking1 stream3 stream3 with manifestDone := false } } up, _, _, rfl, rfl, rfl, by decide, by decide, .inr rfl⟩
  · exact ⟨takeSt 0 stream3 stream3, takeSt 0 stream3 stream3, true, false, taking1 stream3 stream3, stream3, [], rfl, rfl, rfl, rfl, fetch0 _ _ _, rfl, .inr rfl, hash3, rfl⟩
  · exact ⟨takeSt 0 stream3d stream3, takeSt 0 stream3d stream3, true, false, taking1 stream3d stream3, stream3, [], rfl, rfl, rfl, rfl, fetch0 _ _ _, rfl, .inr rfl, hash3, rfl⟩
  · exact ⟨takeSt 0 stream3 Stream.reset, takeSt 0 stream3 Stream.reset, true, false, taking1 stream3 Stream.reset, Stream.reset, [], rfl, rfl, rfl, rfl, fetch0 _ _ _, rfl, .inr rfl,
        (fun h => by rw [show ([] : List Byte) ++ Stream.reset.part1 ++ Stream.reset.part2 = [] from rfl, sha3_nil] at h; cases h), rfl⟩
  · exact ⟨takeSt 0 stream3 stream3, _, rfl, rfl, rfl, rfl, rfl, .inr rfl⟩
  · exact ⟨rseOf { Rse.reset with window := 2, ordered := some (1, 0) } (member { Spine.reset with stag := true, running := true, newStag := true }), _, rfl, rfl, rfl, rfl, rfl, rfl, rfl⟩
  · exact ⟨rseOf { Rse.reset with scrub := some scrub1 } up, _, _, _, rfl, rfl, rfl, rfl, .inr rfl⟩
  · exact ⟨injSt 6 false, 0, _, rfl, rfl, rfl, by decide, by decide +kernel, .inr rfl⟩
  · exact ⟨injSt 3 false, 0, _, 0, rfl, rfl, rfl, by decide, by decide, rfl, rfl, .inr ⟨rfl, rfl⟩⟩
  · exact ⟨injSt 3 true, 0, _, rfl, rfl, rfl⟩
  · exact ⟨up, .fatalEvent 1, 1, .inr ⟨1, rfl, by decide, rfl⟩, by decide, rfl, no_requests _ rfl, .inr ⟨rfl, rfl⟩⟩
  · exact ⟨rseOf { Rse.reset with fatal := some 1, dumping := true } up, .camloWatchdogExpiry, 3, .inl ⟨rfl, rfl⟩, by decide, by decide, rfl, .inr rfl⟩
  · exact ⟨rseOf { Rse.reset with dumping := true, dump := some ⟨[], [], 0⟩ } up, _, rfl, rfl⟩

end W21

namespace W22

def pins (x : Sys) : State := { State.reset with sys := x }

def sleep (st : Nat) (goal : Option Nat) (x : Sys) : State := { pins x with pcm := { State.reset.pcm with sstate := st, sleepTo := goal } }

def bootSys : Sys := { Sys.reset with bootStep := 8, ready := true, running := none }

/-- What the clauses of ResetEventsTakeEffect assume can be met. -/
theorem witness_ResetEventsTakeEffect :
    (∃ (s : State) (mode : Bool) (addr : BitVec 2), s.sys.pwrGood = false) ∧
    (∃ s : State, s.sys.perstN = true ∧ s.powered = true ∧ s.pcm.sstate ≠ 3) ∧
    (∃ s : State, s.sys.perstN = true ∧ s.powered = true ∧ s.pcm.sstate = 3) ∧
    (∃ s : State, s.sys.mainGood = true ∧ s.sys.mainEn = true ∧ s.pcm.sstate ≠ 3) ∧
    (∃ s : State, s.sys.mainGood = true ∧ ((s.sys.mainEn = false ∨ s.pcm.sstate = 3))) ∧
    (∃ s : State, s.sys.mainGood = false ∧ s.pcm.sstate = 3 ∧ s.sys.waking = true ∧ s.sys.mainEn = true) ∧
    (∃ s : State, s.sys.mainGood = false ∧ s.pcm.sstate ≠ 3 ∧ s.sys.pwrGood = true) ∧
    (∃ s : State, s.sys.mainGood = false ∧
        ((s.pcm.sstate = 3 ∧ (s.sys.waking = false ∨ s.sys.mainEn = false) ∨ s.pcm.sstate ≠ 3 ∧ s.sys.pwrGood = false))) ∧
    (∃ s : State, s.pcm.sstate = 3 ∧ s.sys.waking = true ∧ s.sys.mainEn = true ∧ s.sys.mainGood = false ∧
        s.sys.mainEnRose + 100 ≤ s.pcm.ms) ∧
    (∃ (s : State) (i : Instr) (kind : ResetKind),
        ((i = .hotReset ∧ kind = .hot ∨ i = .flr ∧ kind = .flr ∧ s.configOpen = true)) ∧ s.reachable = true ∧
        s.sys.running = none ∧ NoRequests s ∧ ((s.spine.running = false ∧ Calm s ∨ s.spine.newStag = true))) ∧
    (∃ (s : State) (i : Instr) (kind : ResetKind),
        ((i = .hotReset ∧ kind = .hot ∨ i = .flr ∧ kind = .flr ∧ s.configOpen = true)) ∧ s.reachable = true ∧
        s.sys.running ≠ none ∧ Calm s) ∧
    (∃ (s : State) (i : Instr), ((i = .devResetStart ∧ s.sys.devPending = true ∧ s.sys.ready = true
      ∨ i = .mgmtDevMessage ∧ s.reachable = true ∧ s.mgmtReady = true)) ∧ NoRequests s ∧ s.mem.shc = []) ∧
    (∃ s : State, s.reachable = true ∧ s.mgmtReady = false) ∧
    (∃ (s : State) (n : Nat), s.pcm.sleepTo = some n ∧ s.atWork = true ∧ s.pcm.sstate ≠ 2) ∧
    (∃ (s : State) (n : Nat), s.pcm.sleepTo = some n ∧ ((n = 0 ∨ s.atWork = false)) ∧ n ≤ 1 ∧ s.pcm.sstate ≠ 2) ∧
    (∃ (s : State) (n : Nat), s.pcm.sleepTo = some n ∧ ((n = 0 ∨ s.atWork = false)) ∧ n ≤ 1 ∧ s.pcm.sstate = 2) ∧
    (∃ (s : State) (n : Nat), s.pcm.sleepTo = some n ∧ ((n = 0 ∨ s.atWork = false)) ∧ n = 2 ∧ s.pcm.sstate ≠ 2 ∧
        s.mem.shc = []) ∧
    (∃ (s : State) (n : Nat), s.pcm.sleepTo = some n ∧ ((n = 0 ∨ s.atWork = false)) ∧ 3 ≤ n) ∧
    (∃ s : State, s.pcm.sstate = 3) := by
  refine ⟨?_, ?_, ?_, ?_, ?_, ?_, ?_, ?_, ?_, ?_, ?_, ?_, ?_, ?_, ?_, ?_, ?_, ?_, ?_⟩
  · exact ⟨pins { Sys.reset with pwrGood := false }, true, 1, rfl⟩
  · exact ⟨pins Sys.reset, rfl, by decide, by decide⟩
  · exact ⟨sleep 3 none Sys.reset, rfl, by decide, rfl⟩
  · exact ⟨pins Sys.reset, rfl, rfl, by decide⟩
  · exact ⟨sleep 3 none Sys.reset, rfl, .inr rfl⟩
  · exact ⟨sleep 3 none { Sys.reset with mainGood := false, waking := true }, rfl, rfl, rfl, rfl⟩
  · exact ⟨pins { Sys.reset with mainGood := false }, rfl, by decide, rfl⟩
  · exact ⟨sleep 3 none { Sys.reset with mainGood := false }, rfl, .inl ⟨rfl, .inl rfl⟩⟩
  · exact ⟨{ pins { Sys.reset with mainGood := false, waking := true } with pcm := { State.reset.pcm with sstate := 3, ms := 100 } }, rfl, rfl, rfl, rfl, by decide⟩
  · exact ⟨pins bootSys, .flr, .flr, .inr ⟨rfl, rfl, by decide⟩, by decide, rfl, no_requests _ rfl, .inl ⟨rfl, .inr rfl⟩⟩
  · exact ⟨pins { bootSys with running := some .hot }, .hotReset, .hot, .inl ⟨rfl, rfl⟩, by decide, by decide, .inr rfl⟩
  · exact ⟨pins { bootSys with devPending := true }, .devResetStart, .inl ⟨rfl, rfl, rfl⟩, no_requests _ rfl, rfl⟩
  · exact ⟨pins Sys.reset, by decide, by decide⟩
  · exact ⟨{ sleep 0 (some 1) bootSys with spine := { State.reset.spine with running := true } }, 1, rfl, by decide, by decide⟩
  · exact ⟨sleep 0 (some 1) bootSys, 1, rfl, .inr (by decide), by decide, by decide⟩
  · exact ⟨sleep 2 (some 0) bootSys, 0, rfl, .inl rfl, by decide, rfl⟩
  · exact ⟨sleep 0 (some 2) bootSys, 2, rfl, .inr (by decide), rfl, by decide, rfl⟩
  · exact ⟨sleep 0 (some 3) bootSys, 3, rfl, .inr (by decide), by decide⟩
  · exact ⟨sleep 3 none Sys.reset, rfl⟩

end W22

namespace W23

def pcmOf (f : Pcm → Pcm) (s : State) : State := { s with pcm := f s.pcm }

def tileAt (x : TilePwr) (s : State) : State := pcmOf (fun p => { p with tiles := [(0, x)] }) s

def railUp : State := { up with sec := railSec }

theorem rail0 (r : Nat) : railUp.groupOf r = some 0 := rail_group _ rfl r

/-- What the clauses of PowerEventsTakeEffect assume can be met. -/
theorem witness_PowerEventsTakeEffect :
    (∃ (s : State) (k : Fin 256) (x : TilePwr), x = s.tilePwr k ∧ x.stretched = false) ∧
    (∃ (s : State) (k : Fin 256) (cycles : Nat), (s.tilePwr k).stretched = true) ∧
    (∃ (s : State) (k : Fin 256) (x : TilePwr), x = s.tilePwr k ∧ x.change ≠ none ∧ x.relock = none ∧
        x.stretched = false ∧ ((∀ e, x.stretchEnd = some e → e + 10 ≤ s.pcm.us)) ∧
        (∀ p ∈ s.pcm.tiles, p.2.relock = none)) ∧
    (∃ (s : State) (k : Fin 256) (x : TilePwr) (f : Nat), x = s.tilePwr k ∧ x.relock = some f) ∧
    (∃ (s : State) (energy : List Nat) (e sum : Nat), e = s.gained energy ∧
        sum = (((e :: s.pcm.samples).take 100).foldl (· + ·) 0)) ∧
    (∃ (s : State) (due : Nat), due = s.target * (s.pcm.ms % 1000) * 1000) ∧
    (∃ (s : State) (al : Option Nat),
        al = s.budget.map (fun b => max 1200 ((b * 1000000 - s.pcm.minuteE) / ((60 - (s.minuteNow.map (·.2)).getD 0) * 1000000)))) ∧
    (∃ (s : State) (e : Nat), e = s.pcm.minuteE) ∧
    (∃ (s : State) (ts ss ds : List Nat), ts.length = 256 ∧ ss.length = 20 ∧ ds.length = 4 ∧
        (∀ v ∈ ts ++ ss ++ ds, v < 256) ∧ (∀ v ∈ ts ++ ds, v < 110) ∧ (∀ v ∈ ss, v < 105)) ∧
    (∃ (s : State) (ts ss ds : List Nat), ts.length = 256 ∧ ss.length = 20 ∧ ds.length = 4 ∧
        (∀ v ∈ ts ++ ss ++ ds, v < 256) ∧ (((∃ v ∈ ts ++ ds, 110 ≤ v) ∨ ∃ v ∈ ss, 105 ≤ v)) ∧ Still s ∧ NoRequests s) ∧
    (∃ (s : State) (r : Fin 12) (g w : Nat), s.groupOf r = some g) ∧
    (∃ (s : State) (r : Fin 12) (g : Nat), s.groupOf r = some g) ∧
    (∃ (s : State) (r : Nat), r < 12 ∧ s.groupOf r ≠ none) ∧
    (∃ (s : State) (id : BitVec 16), s.mgmtReady = true) ∧
    (∃ (s : State) (w : Nat), s.mgmtReady = true ∧ (fieldAt s.sec.record 37 1).testBit 1 = true ∧
        ((w = 0 ∨ 1200 ≤ w ∧ w ≤ 3000))) ∧
    (∃ (s : State) (e : PldmEvent) (es : List PldmEvent), s.mgmtReady = true ∧ s.pcm.events = e :: es) ∧
    (∃ s : State, ∃ id : BitVec 16, s.mgmtReady = false) ∧
    (∃ s : State, ∃ w : Nat, s.mgmtReady = false) := by
  refine ⟨?_, ?_, ?_, ?_, ?_, ?_, ?_, ?_, ?_, ?_, ?_, ?_, ?_, ?_, ?_, ?_, ?_, ?_⟩
  · exact ⟨up, 0, _, rfl, rfl⟩
  · exact ⟨tileAt { TilePwr.reset with stretched := true } up, 0, 100, rfl⟩
  · exact ⟨tileAt { TilePwr.reset with change := some 40 } up, 0, _, rfl, by decide, rfl, rfl, (fun e h => by cases h), by decide⟩
  · exact ⟨tileAt { TilePwr.reset with relock := some 40 } up, 0, _, 40, rfl, rfl⟩
  · exact ⟨up, [1000], _, _, rfl, rfl⟩
  · exact ⟨up, _, rfl⟩
  · exact ⟨up, _, rfl⟩
  · exact ⟨up, _, rfl⟩
  · exact ⟨up, List.replicate 256 50, List.replicate 20 50, List.replicate 4 50, List.length_replicate, rfl, rfl, by decide +kernel, by decide +kernel, by decide +kernel⟩
  · exact ⟨up, List.replicate 256 110, List.replicate 20 50, List.replicate 4 50, List.length_replicate, rfl, rfl, by decide +kernel, .inl ⟨110, List.mem_append_left _ (List.mem_replicate.2 ⟨by decide, rfl⟩), by decide⟩,
        .inr ⟨rfl, rfl⟩, no_requests _ rfl⟩
  · exact ⟨railUp, 0, 0, 100, rail0 _⟩
  · exact ⟨railUp, 0, 0, rail0 _⟩
  · exact ⟨railUp, 0, by decide, by rw [rail0]; exact fun h => by cases h⟩
  · exact ⟨up, 1, rfl⟩
  · exact ⟨{ up with sec := { Sec.reset with record := List.replicate 37 0 ++ [2] } }, 1200, rfl, by decide, .inr (by decide)⟩
  · exact ⟨pcmOf (fun p => { p with events := [.sensor33 1] }) up, _, _, rfl, rfl⟩
  · exact ⟨State.reset, 1, by decide⟩
  · exact ⟨State.reset, 1200, by decide⟩

end W23

namespace W24

def setup0 : IgeSetup := ⟨0, true, true, 4, 64, 0, 1, 1, 0, 0, 1, 64, 0x400, 0x800, 32, 0, 0, 1, 2, 0, 0⟩

/-- One sample of four plain bytes; a cache region at 128 whose entry for it is as given. -/
def igeMem (len : Nat) (cacheEntry : List Byte) : List Byte :=
  (natLe 6 0 ++ natLe 2 0 ++ natLe 4 len ++ natLe 4 0) ++ natLe 16 0 ++ natLe 32 0 ++ padTo 64 [65, 66, 67, 68] ++ cacheEntry

def igeSt (m : List Byte) (f : Ige → Ige) : State :=
  { withPage m up with ige := f { Ige.reset with setup := some setup0, running := true, open_ := true } }

def accepted0 : List Byte := natLe 8 0 ++ natLe 4 1 ++ natLe 4 1 ++ natLe 4 7

def rejected0 : List Byte := natLe 12 0 ++ natLe 4 (2 + 4 * 2)

def igeData : IgeRead → List Byte
  | .data d _ => d
  | .stop _ => []

def igeState : IgeRead → State
  | .data _ s => s
  | .stop s => s

def igeOk : IgeRead → Bool
  | .data _ _ => true
  | .stop _ => false

theorem data_of {r : IgeRead} (h : igeOk r = true) : r = .data (igeData r) (igeState r) := by
  cases r with
  | data d s => rfl
  | stop s => cases h

theorem cached_of {u : IgeSetup} {i : Nat} {s : State} {v : Option Verdict} (h : (cacheGet u i s).1 = v) : cacheGet u i s = (v, (cacheGet u i s).2) := by
  rw [← h]

def withCache (g : Ige) : Ige := { g with cache := some (128, 64) }

def sampled (g : Ige) : Ige := { g with dict := [[65], [66], [67], [68]], sample := some (0, 0, 4) }

/-- What the clauses of IngestEventsTakeEffect assume can be met. -/
theorem witness_IngestEventsTakeEffect :
    (∃ (s s1 : State) (u : IgeSetup) (idx : Nat) (toks : List Nat), s.ige.setup = some u ∧ s.igeFree = true ∧ Calm s ∧
        idx = sampleIndex s.ige.cur.pos u.n u.seed s.ige.cur.epoch ∧ cacheGet u idx s = (some (.accept toks), s1)) ∧
    (∃ (s s1 : State) (u : IgeSetup) (idx reason units : Nat), s.ige.setup = some u ∧ s.igeFree = true ∧ Calm s ∧
        idx = sampleIndex s.ige.cur.pos u.n u.seed s.ige.cur.epoch ∧
        cacheGet u idx s = (some (.reject reason units), s1) ∧
        ((s.ige.skips + 1 ≠ s.ige.limits.replace ∨ s.spine.newStag = true))) ∧
    (∃ (s s1 s2 : State) (u : IgeSetup) (idx stored : Nat) (claimed : Option Nat) (d : List Byte), s.ige.setup = some u ∧
        s.igeFree = true ∧ idx = sampleIndex s.ige.cur.pos u.n u.seed s.ige.cur.epoch ∧ cacheGet u idx s = (none, s1) ∧
        readSample u idx s1 = .data d s2 ∧ Calm s2 ∧ stored = fieldAt d 8 4 ∧
        claimed = claimedSize ((d.getD 6 0).getLsbD 0) stored (fieldAt d 12 4) (d.drop 16) ∧
        capReason s2.ige.limits stored claimed = none) ∧
    (∃ (s s1 s2 : State) (u : IgeSetup) (idx stored : Nat) (claimed : Option Nat) (d : List Byte),
        ∃ r, s.ige.setup = some u ∧ s.igeFree = true ∧ idx = sampleIndex s.ige.cur.pos u.n u.seed s.ige.cur.epoch ∧
        cacheGet u idx s = (none, s1) ∧ readSample u idx s1 = .data d s2 ∧ Calm s2 ∧ stored = fieldAt d 8 4 ∧
        claimed = claimedSize ((d.getD 6 0).getLsbD 0) stored (fieldAt d 12 4) (d.drop 16) ∧
        capReason s2.ige.limits stored claimed = some r ∧
        ((s2.ige.skips + 1 ≠ s2.ige.limits.replace ∨ s2.spine.newStag = true))) ∧
    (∃ (s s1 : State) (u : IgeSetup) (p idx claimed : Nat) (d : List Byte), ∃ toks, s.ige.setup = some u ∧
        s.ige.sample = some (p, idx, claimed) ∧ s.ige.running = true ∧ readSample u idx s = .data d s1 ∧ Calm s1 ∧
        decodeSample s1.ige.limits s1.ige.dict (d.take 16) (d.drop 16) claimed = .accept toks) ∧
    (∃ (s s1 : State) (u : IgeSetup) (p idx claimed : Nat) (d : List Byte), ∃ r n, s.ige.setup = some u ∧
        s.ige.sample = some (p, idx, claimed) ∧ s.ige.running = true ∧ readSample u idx s = .data d s1 ∧ Calm s1 ∧
        decodeSample s1.ige.limits s1.ige.dict (d.take 16) (d.drop 16) claimed = .reject r n ∧
        ((s1.ige.skips + 1 ≠ s1.ige.limits.replace ∨ s1.spine.newStag = true))) ∧
    (∃ (s s1 : State) (u : IgeSetup) (r : List Byte), s.ige.setup = some u ∧ s.ige.running = true ∧ s.ige.open_ = false ∧
        igeRead u.part u.releaseVa 8 s = .data r s1 ∧ leNat r + u.nbuf ≤ s1.ige.cur.j) ∧
    (∃ (s s1 : State) (u : IgeSetup) (r : List Byte), ∃ (s2 b : State) (toks : List Nat), s.ige.setup = some u ∧ s.ige.running = true ∧ s.ige.open_ = false ∧ igeRead u.part u.releaseVa 8 s = .data r s1 ∧ s1.ige.cur.j < leNat r + u.nbuf ∧ carriedWords u { s1 with ige := { s1.ige with waitsRelease := false } } = .words toks s2 ∧ b = { s2 with ige := { s2.ige with
        cur := { s2.ige.cur with limitsGen := s2.ige.limitsGen }, open_ := true, fill := 0, skips := 0
        marks := if s2.ige.cur.j % u.mbPerStep = 0 then
            SMap.put s2.ige.marks (s2.ige.startStep + s2.ige.cur.j / u.mbPerStep)
              { s2.ige.cur with limitsGen := s2.ige.limitsGen }
          else s2.ige.marks } }) ∧
    (∃ (s : State) (u : IgeSetup) (j : Nat) (rest : List Nat) (c : Chan), s.ige.setup = some u ∧ s.ige.full = j :: rest ∧
        s.chan u.channel = some c) := by
  refine ⟨?_, ?_, ?_, ?_, ?_, ?_, ?_, ?_, ?_⟩
  · exact ⟨igeSt (igeMem 4 accepted0) withCache, _, setup0, 0, [7], rfl, by decide +kernel, .inr rfl, by decide +kernel, cached_of (by decide +kernel)⟩
  · exact ⟨igeSt (igeMem 4 rejected0) withCache, _, setup0, 0, 2, 0, rfl, by decide +kernel, .inr rfl, by decide +kernel, cached_of (by decide +kernel), .inl (by decide)⟩
  · exact ⟨igeSt (igeMem 4 []) id, igeSt (igeMem 4 []) id, _, setup0, 0, _, _, _, rfl, by decide +kernel, by decide +kernel, rfl, data_of (by decide +kernel), .inr (by decide +kernel), rfl, rfl, by decide +kernel⟩
  · exact ⟨igeSt (igeMem 4 []) (fun g => { g with limits := { IgeLimits.reset with cap := 3 } }), igeSt (igeMem 4 []) (fun g => { g with limits := { IgeLimits.reset with cap := 3 } }), _, setup0, 0, _, _, _, 2,
        rfl, by decide +kernel, by decide +kernel, rfl, data_of (by decide +kernel), .inr (by decide +kernel), rfl, rfl, by decide +kernel, .inl (by decide +kernel)⟩
  · exact ⟨igeSt (igeMem 4 []) sampled, _, setup0, 0, 0, 4, _, [0, 1, 2, 3], rfl, rfl, rfl, data_of (by decide +kernel), .inr (by decide +kernel), by decide +kernel⟩
  · exact ⟨igeSt (igeMem 4 []) (fun g => sampled { g with limits := { IgeLimits.reset with budget := 2 } }), _, setup0, 0, 0, 4, _, 1, 0, rfl, rfl, rfl, data_of (by decide +kernel), .inr (by decide +kernel), by decide +kernel,
        .inl (by decide +kernel)⟩
  · exact ⟨igeSt [] (fun g => { g with open_ := false, cur := { IgeState.reset with j := 4 } }), _, setup0, _, rfl, rfl, rfl, data_of (by decide +kernel), by decide +kernel⟩
  · exact ⟨igeSt [] (fun g => { g with open_ := false }), _, setup0, _, _, _, [], rfl, rfl, rfl, data_of (by decide +kernel), by decide +kernel, by rfl, rfl⟩
  · exact ⟨withChan (chan0 3) (igeSt [] (fun g => { g with full := [0] })), setup0, 0, [], chan0 3, rfl, rfl, rfl⟩

end W24

namespace W25

def bootAt (n : Nat) (x : Sec) (flash : Mem) : State := { State.reset with sys := { Sys.reset with bootStep := n }, sec := x, flash := flash }

def record0 : List Byte := goodRecord 0 []

theorem record0_length : record0.length = 4108 := goodRecord_length 0 []

theorem record0_head : recordLength (record0.take 64) = 4108 := leNat_of_natLe 4 4108 (by decide)

theorem read_head (bs : List Byte) (n : Nat) (hn : n ≤ bs.length) : Mem.readN (Mem.writeN [] 0 bs) 0 n = bs.take n := by
  have h : Mem.readN (Mem.writeN [] 0 bs) 0 n = (Mem.readN (Mem.writeN [] 0 bs) 0 bs.length).take n := by
    simp [Mem.readN, ← List.map_take, List.take_range, Nat.min_eq_left hn]
  rw [h, Mem.readN_writeN]

theorem record0_read (m : Mem) (h : m = Mem.writeN [] 0 record0) : Mem.readN m 0 (recordLength (Mem.readN m 0 64)) = record0 := by
  rw [h, read_head record0 64 (by rw [record0_length]; decide), record0_head, ← record0_length, Mem.readN_writeN]

theorem record0_ok : recordFault record0 0 true = none := by
  rw [recordFault, record0, goodRecord_form, goodRecord_id _ _ (by decide)]
  rfl

theorem image0_read (m : Mem) (h : m = Mem.writeN [] 0x600000 image0) : Mem.readN m 0x600000 4096 = image0 := by
  rw [h, ← image0_length, Mem.readN_writeN]

theorem image0_good (m : Mem) (h : m = Mem.writeN [] 0x600000 image0) :
    imageFault (Mem.readN m 0x600000 4096) (Mem.readN m 0x601000 (bodyLength (Mem.readN m 0x600000 4096))) [] true = none := by
  have e : image0.take 4096 = image0 := by rw [← image0_length, List.take_length]
  have d : image0.drop 4096 = [] := by rw [← image0_length, List.drop_length]
  have f := image0_fault
  rw [image0_read m h, image0_body]
  rw [e, d] at f
  exact f

def withSpdm (x : Spdm) : State := { up with sec := { Sec.reset with spdmDoe := x } }

def agreed : Spdm := ⟨true, true, true, []⟩

theorem boot3 (f : Mem) (hf : f = Mem.writeN [] 0 record0) :
    ∃ (s : State) (sigValid : Bool) (r : List Byte), s.sec.recovery = false ∧ s.sys.bootStep = 3 ∧ r = Mem.readN s.flash 0 (recordLength (Mem.readN s.flash 0 64)) ∧ recordFault r s.sec.deviceId.toNat sigValid = none :=
  ⟨bootAt 3 Sec.reset f, true, Mem.readN f 0 (recordLength (Mem.readN f 0 64)), rfl, rfl, rfl, by rw [record0_read f hf]; exact record0_ok⟩

theorem boot4 (f : Mem) (hf : f = Mem.writeN [] 0x600000 image0) :
    ∃ (s : State) (sigValid : Bool) (h body : List Byte), s.sec.recovery = false ∧ s.sys.bootStep = 4 ∧ h = Mem.readN s.flash 0x600000 4096 ∧ body = Mem.readN s.flash 0x601000 (bodyLength h) ∧ imageFault h body s.sec.record sigValid = none :=
  ⟨bootAt 4 Sec.reset f, true, Mem.readN f 0x600000 4096, _, rfl, rfl, rfl, rfl, image0_good f hf⟩

/-- What the clauses of BootEventsTakeEffect assume can be met. -/
theorem witness_BootEventsTakeEffect :
    (∃ (s : State) (idPub : List Byte), s.sec.recovery = false ∧ ((s.sys.bootStep = 1 ∨ s.sys.bootStep = 2))) ∧
    (∃ (s : State) (sigValid : Bool) (r : List Byte), s.sec.recovery = false ∧ s.sys.bootStep = 3 ∧
        r = Mem.readN s.flash 0 (recordLength (Mem.readN s.flash 0 64)) ∧
        recordFault r s.sec.deviceId.toNat sigValid = none) ∧
    (∃ (s : State) (sigValid : Bool) (r : List Byte), ∃ e, s.sec.recovery = false ∧ s.sys.bootStep = 3 ∧
        r = Mem.readN s.flash 0 (recordLength (Mem.readN s.flash 0 64)) ∧
        recordFault r s.sec.deviceId.toNat sigValid = some e) ∧
    (∃ (s : State) (sigValid : Bool) (h body : List Byte), s.sec.recovery = false ∧ s.sys.bootStep = 4 ∧
        h = Mem.readN s.flash 0x600000 4096 ∧ body = Mem.readN s.flash 0x601000 (bodyLength h) ∧
        imageFault h body s.sec.record sigValid = none) ∧
    (∃ (s : State) (sigValid : Bool) (h body : List Byte), ∃ e, s.sec.recovery = false ∧ s.sys.bootStep = 4 ∧
        h = Mem.readN s.flash 0x600000 4096 ∧ body = Mem.readN s.flash 0x601000 (bodyLength h) ∧
        imageFault h body s.sec.record sigValid = some e) ∧
    (∃ s : State, s.sec.recovery = false ∧ s.sys.bootStep = 5) ∧
    (∃ (s : State) (ids : List StackId) (declared : List Nat) (stackOk : BitVec 20) (refOk : BitVec 4),
        s.sec.recovery = false ∧ s.sys.bootStep = 7 ∧ s.pcm.diesOn = false ∧ ids.length = 20 ∧
        declared = ids.map (·.rate) ∧ (∀ d ∈ declared, d < 8) ∧ Calm s) ∧
    (∃ s : State, s.sec.recovery = false ∧ s.sys.bootStep = 7 ∧ s.pcm.diesOn = true) ∧
    (∃ (s : State) (code : List Byte), 7 ≤ s.sys.bootStep ∧ sha3 code = (s.sec.header.drop 32).take 32) ∧
    (∃ (s : State) (code : List Byte), 7 ≤ s.sys.bootStep ∧ sha3 code ≠ (s.sec.header.drop 32).take 32 ∧ Still s ∧
        NoRequests s) := by
  refine ⟨?_, ?_, ?_, ?_, ?_, ?_, ?_, ?_, ?_, ?_⟩
  · exact ⟨bootAt 1 Sec.reset [], [], rfl, .inl rfl⟩
  · exact boot3 _ rfl
  · exact ⟨bootAt 3 Sec.reset [], true, _, 1, rfl, rfl, rfl, by decide +kernel⟩
  · exact boot4 _ rfl
  · exact ⟨bootAt 4 Sec.reset [], true, _, _, 1, rfl, rfl, rfl, rfl, by decide +kernel⟩
  · exact ⟨bootAt 5 Sec.reset [], rfl, rfl⟩
  · exact ⟨bootAt 7 Sec.reset [], List.replicate 20 ⟨32, 4, 4, 4, 48, 4⟩, List.replicate 20 4, 0xFFFFF, 15, rfl, rfl, rfl, rfl, by decide, by decide, .inr rfl⟩
  · exact ⟨{ bootAt 7 Sec.reset [] with pcm := { State.reset.pcm with diesOn := true } }, rfl, rfl, rfl⟩
  · exact ⟨bootAt 7 { Sec.reset with header := List.replicate 32 0 ++ emptySha } [], [], by decide, sha3_nil⟩
  · exact ⟨bootAt 7 Sec.reset [], [], by decide, (fun h => by rw [sha3_nil] at h; exact absurd h (by decide)), .inr ⟨rfl, rfl⟩, no_requests _ rfl⟩

/-- What the clauses of ManagementRequestsAreAnswered assume can be met. -/
theorem witness_ManagementRequestsAreAnswered :
    (∃ (s : State) (mctp : Bool) (m : List Byte), SpdmAsked s mctp m 0x84 0x10) ∧
    (∃ (s : State) (mctp : Bool) (m : List Byte), SpdmAsked s mctp m 0xE1 0x12 ∧ (s.spdm mctp).version = true) ∧
    (∃ (s : State) (mctp : Bool) (m : List Byte), SpdmAsked s mctp m 0xE3 0x12 ∧ (s.spdm mctp).caps = true) ∧
    (∃ (s : State) (mctp : Bool) (m : List Byte), (s.spdm mctp).algs = true ∧ SpdmAsked s mctp m 0x81 0x12) ∧
    (∃ (s : State) (mctp : Bool) (m : List Byte), (s.spdm mctp).algs = true ∧ SpdmAsked s mctp m 0x82 0x12) ∧
    (∃ (s : State) (mctp : Bool) (m : List Byte), (s.spdm mctp).algs = true ∧ SpdmAsked s mctp m 0x83 0x12 ∧
        fieldAt m 2 1 = 0 ∧ ((fieldAt m 3 1 = 0 ∨ fieldAt m 3 1 = 1 ∨ fieldAt m 3 1 = 0xFF))) ∧
    (∃ (s : State) (mctp : Bool) (m : List Byte), (s.spdm mctp).algs = true ∧ SpdmAsked s mctp m 0xE0 0x12 ∧
        ((fieldAt m 3 1 ≤ 6 ∨ fieldAt m 3 1 = 0xFF))) ∧
    (∃ (s : State) (mctp : Bool) (m : List Byte), spdmRequests.contains (fieldAt m 1 1) = false ∧
        (if mctp then s.mgmtReady && s.pcm.sstate != 3 else s.configOpen) = true) ∧
    (∃ (s : State) (mctp : Bool) (m : List Byte) (v : Nat), v ≠ 0x12 ∧ SpdmAsked s mctp m 0x83 v) ∧
    (∃ (s : State) (mctp : Bool) (m : List Byte), SpdmAsked s mctp m 0x83 0x12 ∧ (s.spdm mctp).algs = false) ∧
    (∃ (s : State) (index : BitVec 8), s.configOpen = true) ∧
    (∃ (s : State) (command : BitVec 8) (data : List Byte), s.mgmtReady = true) ∧
    (∃ (s : State) (command : BitVec 8) (data : List Byte), s.mgmtReady = false) ∧
    (∃ (s : State) (addr : BitVec 7), s.sys.mgmtMode = true ∧ s.sys.pwrGood = true) ∧
    (∃ (s : State) (vendor : Bool) (ir : BitVec 8) (dr : List Byte), s.sys.pwrGood = true ∧
        ((ir = 0xFF ∨ vendor = true ∧ s.sec.debug < 2))) ∧
    (∃ (s : State) (vendor : Bool) (ir : BitVec 8) (dr : List Byte), s.sys.pwrGood = true ∧ ir ≠ 0xFF ∧
        ((vendor = false ∨ 2 ≤ s.sec.debug))) := by
  refine ⟨?_, ?_, ?_, ?_, ?_, ?_, ?_, ?_, ?_, ?_, ?_, ?_, ?_, ?_, ?_, ?_⟩
  · exact ⟨up, false, [0x10, 0x84, 0, 0], by decide, rfl, rfl⟩
  · exact ⟨withSpdm ⟨true, false, false, []⟩, false, [0x12, 0xE1, 0, 0], ⟨by decide, rfl, rfl⟩, rfl⟩
  · exact ⟨withSpdm ⟨true, true, false, []⟩, false, [0x12, 0xE3, 0, 0], ⟨by decide, rfl, rfl⟩, rfl⟩
  · exact ⟨withSpdm agreed, false, [0x12, 0x81, 0, 0], rfl, by decide, rfl, rfl⟩
  · exact ⟨withSpdm agreed, false, [0x12, 0x82, 0, 0], rfl, by decide, rfl, rfl⟩
  · exact ⟨withSpdm agreed, false, [0x12, 0x83, 0, 1], rfl, ⟨by decide, rfl, rfl⟩, rfl, .inr (.inl rfl)⟩
  · exact ⟨withSpdm agreed, false, [0x12, 0xE0, 0, 6], rfl, ⟨by decide, rfl, rfl⟩, .inl (by decide)⟩
  · exact ⟨up, false, [0x12, 0x7F, 0, 0], by decide +kernel, by decide⟩
  · exact ⟨up, false, [0x11, 0x83, 0, 0], 0x11, by decide, by decide, rfl, rfl⟩
  · exact ⟨up, false, [0x12, 0x83, 0, 0], ⟨by decide, rfl, rfl⟩, rfl⟩
  · exact ⟨up, 0, by decide⟩
  · exact ⟨up, 1, [], by decide⟩
  · exact ⟨State.reset, 1, [], by decide⟩
  · exact ⟨{ up with sys := { Sys.reset with mgmtMode := true } }, 1, rfl, rfl⟩
  · exact ⟨up, false, 0xFF, [], rfl, .inl rfl⟩
  · exact ⟨up, false, 1, [], rfl, by decide, .inl rfl⟩

end W25

namespace W26

def readyAt7 : State := { State.reset with sys := { Sys.reset with bootStep := 7 }, pcm := { State.reset.pcm with diesOn := true } }

theorem inv_reset : Inv State.reset := ⟨⟨by decide, by decide, by decide⟩, by decide, by decide⟩

/-- What StepTakesTheFrontCommand assumes can be met. -/
theorem witness_StepTakesTheFrontCommand :
    ∃ s : State, s.pending = [] :=
  ⟨State.reset, rfl⟩

/-- What EveryStepKeepsTheInvariant assumes can be met. -/
theorem witness_EveryStepKeepsTheInvariant :
    ∃ s s' : State, Inv s ∧ step s = .next s' :=
  ⟨State.reset, _, inv_reset, rfl⟩

/-- What CommandsLeaveQueueAndFlash assumes can be met. -/
theorem witness_CommandsLeaveQueueAndFlash :
    ∃ (c : Instr) (s t : State), exec c s = .next t :=
  ⟨.debugNonceExpiry, up, _, rfl⟩

/-- What OnlyFirmwareReadyRaisesReady assumes can be met. -/
theorem witness_OnlyFirmwareReadyRaisesReady :
    ∃ (c : Instr) (s t : State), exec c s = .next t ∧ s.sys.ready = false ∧ t.sys.ready = true :=
  ⟨.firmwareReady, readyAt7, _, rfl, rfl, rfl⟩

/-- What FinishedCommandsAreAnswered assumes can be met. -/
theorem witness_FinishedCommandsAreAnswered :
    ∃ (s s' : State) (mb : Fin 16) (st : Nat) (res : List Nat), s'.hif.mbs = s.hif.mbs ∧ s'.hif.mbDone = s.hif.mbDone :=
  ⟨up, up, 0, 0, [], rfl, rfl⟩

/-- What the clauses of UnusedArgumentWordsAreRefused assume can be met. -/
theorem witness_UnusedArgumentWordsAreRefused :
    (∃ (c : Instr) (mb : Fin 16) (code n : Nat) (s : State), mailboxRow c = some (mb, code, n) ∧ s.owns mb code = false) ∧
    (∃ (c : Instr) (mb : Fin 16) (code n : Nat) (s : State), mailboxRow c = some (mb, code, n) ∧ s.owns mb code = true ∧
        (s.mailbox mb).zeroFrom n = false) := by
  refine ⟨?_, ?_⟩
  · exact ⟨.mbEcho 0, 0, 2, 15, up, rfl, by decide⟩
  · exact ⟨.mbStatus 0, 0, 3, 1, held 3 [0, 1] up, rfl, by decide, by decide⟩

/-- What the clauses of InterleaveReachesEveryByteOnce assume can be met. -/
theorem witness_InterleaveReachesEveryByteOnce :
    (∃ (pa G i j b X g5 k u slot w q : Nat), pa < 0xF000000000 ∧ G = pa / 2 ^ 16 ∧ i = pa / 2 ^ 8 % 256 ∧
        j = pa / 2 ^ 5 % 8 ∧ b = pa % 32 ∧ X = G / 5 ∧ g5 = G % 5 ∧ k = (256 * g5 + i) / 160 ∧
        u = (256 * g5 + i) % 160 ∧ slot = (u + 53 * X + X / 32) % 160 ∧ w = 8 * j + slot / 20 ∧ q = 8 * X + k) ∧
    (∃ pa, pa < 0xF000000000) ∧
    (∃ stack channel pc bank row col byte : Nat, stack < 20 ∧ channel < 32 ∧ pc < 2 ∧ bank < 64 ∧ row < 12288 ∧
        col < 32 ∧ byte < 32) ∧
    (∃ x y, x < 0xF000000000 ∧ y < 0xF000000000 ∧ (hbmMap x).stack = (hbmMap y).stack ∧
        (hbmMap x).channel = (hbmMap y).channel ∧ (hbmMap x).pc = (hbmMap y).pc ∧ (hbmMap x).bank = (hbmMap y).bank ∧
        (hbmMap x).row = (hbmMap y).row ∧ (hbmMap x).col = (hbmMap y).col ∧ (hbmMap x).byte = (hbmMap y).byte) ∧
    (∃ G stack octet : Nat, stack < 20 ∧ octet < 8) ∧
    (∃ line n : Nat, n < 256) := by
  refine ⟨?_, ?_, ?_, ?_, ?_, ?_⟩
  · exact ⟨0xEFFFFFFFFF, _, _, _, _, _, _, _, _, _, _, _, by decide, rfl, rfl, rfl, rfl, rfl, rfl, rfl, rfl, rfl, rfl, rfl⟩
  · exact ⟨0xEFFFFFFFFF, by decide⟩
  · exact by
      refine ⟨19, 31, 1, 63, 12287, 31, 31, ?_, ?_, ?_, ?_, ?_, ?_, ?_⟩ <;>
        decide +kernel
  · exact ⟨0, 0, by decide, by decide, rfl, rfl, rfl, rfl, rfl, rfl, rfl⟩
  · exact ⟨1, 19, 7, by decide, by decide⟩
  · exact ⟨1, 255, by decide⟩

/-- What ShuffleIsAPermutation assumes can be met. -/
theorem witness_ShuffleIsAPermutation :
    ∃ (n : Nat) (seed : BitVec 64) (epoch p q y : Nat), p < n ∧ q < n ∧
        sampleIndex p n seed epoch = sampleIndex q n seed epoch ∧ y < n :=
  ⟨5, 7, 1, 4, 4, 4, by decide, by decide, rfl, by decide⟩

/-- What MemoryReadsBackWhatWasWritten assumes can be met. -/
theorem witness_MemoryReadsBackWhatWasWritten :
    ∃ (s : State) (pa : Nat) (data : List Byte), ∃ a, Healthy s pa data.length ∧ ((a < pa ∨ pa + data.length ≤ a)) :=
  ⟨memOn State.reset, 64, [1], 0, healthy_of _ _ _ ⟨rfl, rfl, rfl, rfl, fun _ => rfl⟩, .inl (by decide)⟩

/-- What the clauses of ClearedGranulesReadAsZero assume can be met. -/
theorem witness_ClearedGranulesReadAsZero :
    (∃ (s t : State) (g n : Nat), ∃ pa len, t = markUnwritten g n s ∧ s.rse.inj = [] ∧ g * 65536 ≤ pa ∧
        pa + len ≤ (g + n) * 65536) ∧
    (∃ (s t : State) (g n pa : Nat) (data : List Byte) (a len : Nat), t = markUnwritten g n s ∧ s.rse.inj = [] ∧
        g * 65536 ≤ pa ∧ pa + data.length ≤ (g + n) * 65536 ∧ g * 65536 ≤ a ∧ a + len ≤ (g + n) * 65536 ∧
        (a + len ≤ pa ∨ pa + data.length ≤ a)) ∧
    (∃ (s t : State) (g n : Nat), ∃ a, t = markUnwritten g n s ∧ s.rse.inj = [] ∧ ((a < g * 65536 ∨ (g + n) * 65536 ≤ a))) := by
  refine ⟨?_, ?_, ?_⟩
  · exact ⟨up, _, 0, 1, 0, 64, rfl, rfl, by decide, by decide⟩
  · exact ⟨up, _, 0, 1, 0, [1], 1, 63, rfl, rfl, by decide, by decide, by decide, by decide, .inr (by decide)⟩
  · exact ⟨up, _, 0, 1, 65536, rfl, rfl, .inr (by decide)⟩

/-- What ScalarFormatsRoundTrip assumes can be met. -/
theorem witness_ScalarFormatsRoundTrip :
    ∃ (f : FpFmt) (code : Nat) (sat : Bool) (rnd : Rnd), f ∈ [fp32, fp16, bf16, e4m3, e5m2, e3m2, e2m3, e2m1] ∧
        code < 2 ^ (1 + f.ebits + f.mbits) ∧ ((∀ r, rnd = .sr r → r < 2 ^ 16)) ∧ decodeFp f code ≠ .nan ∧
        ((sat = true → ∀ neg, decodeFp f code ≠ .inf neg)) :=
  ⟨fp32, 0x3F800000, true, .rne, by decide, by decide, (fun r h => by cases h), by decide +kernel, fun _ neg => by cases neg <;> decide +kernel⟩

/-- What ClosedDebugWindowReadsZero assumes can be met. -/
theorem witness_ClosedDebugWindowReadsZero :
    ∃ (s : State) (off : BitVec 24) (width : Nat) (data : BitVec 64), s.decodes = true ∧ s.sec.debug = 0 :=
  ⟨up, 0, 8, 0, by decide, rfl⟩

end W26

namespace W27

theorem nop_next : ∃ u, exec (.nop 0 0 0) (atWord 0) = .next u ∧ u ≠ atWord 0 := by
  refine ⟨_, rfl, fun h => ?_⟩
  have e := congrArg (fun z : State => ((z.tile 0).thread 0).pc.toNat) h
  revert e
  decide +kernel

/-- What the clauses of EverySignalHasOneLand assume can be met. -/
theorem witness_EverySignalHasOneLand :
    (∃ y x y' x' : Nat, 1 ≤ y ∧ y ≤ 104 ∧ 1 ≤ x ∧ x ≤ 104 ∧ 1 ≤ y' ∧ y' ≤ 104 ∧ 1 ≤ x' ∧ x' ≤ 104 ∧
        land y x = land y' x' ∧ land y x ≠ .vss ∧ (∀ r, land y x ≠ .rail r)) ∧
    (∃ (n u : Nat) (tx pos : Bool), n < 32 ∧ u < 8) ∧
    (∃ (u : Nat) (tx pos : Bool), u < 8) ∧
    (∃ (die : Nat) (pos : Bool), die < 4) := by
  refine ⟨?_, ?_, ?_, ?_⟩
  · exact by
      refine ⟨1, 75, 1, 75, ?_, ?_, ?_, ?_, ?_, ?_, ?_, ?_, rfl, ?_,
          fun r h => by
        have e : land 1 75 ≠ .rail r := by rw [show land 1 75 = .lane (.link 10) 5 true true from by decide +kernel]; exact fun h => by cases h
        exact e h⟩ <;>
        decide +kernel
  · exact ⟨31, 7, true, false, by decide, by decide⟩
  · exact ⟨7, false, true, by decide⟩
  · exact ⟨3, true, by decide⟩

/-- What the clauses of ReadyThreadsIssueInTurn assume can be met. -/
theorem witness_ReadyThreadsIssueInTurn :
    (∃ (x : Tile) (th : Nat), x.pick = none ∧ th < 8) ∧
    (∃ (x : Tile) (th : Nat), x.pick = some th) ∧
    (∃ (x : Tile) (k th : Nat), x.pick = some k ∧ th < 8 ∧ x.canIssue th = true) ∧
    (∃ (s u : State) (t : Fin 256) (th : Fin 8) (w : BitVec 128) (i : Instr), Calm s ∧ i ∈ [ .nop t th w, .endThread t th w, .br t th w, .loop t th w, .waitev t th w, .sigev t th w, .tickwait t th w,
      .smovi t th w, .salu t th w, .sld t th w, .sst t th w, .mma t th w, .mconv t th w, .mzero t th w,
      .mdrain t th w, .reservedOpcode t th w, .vchain t th w, .desc t th w, .append t th w, .fwd t th w,
      .attnFinal t th w, .bwdPrep t th w, .bwd t th w, .gfinal t th w, .qsend t th w, .qrelease t th w,
      .lfetch t th w, .trunc t th w, .attnReservedKind t th w ] ∧ exec i s = .next u ∧ u ≠ s) := by
  refine ⟨?_, ?_, ?_, ?_⟩
  · exact ⟨Tile.reset, 7, by decide +kernel, by decide⟩
  · exact ⟨tile0 ready0 0, 0, by decide +kernel⟩
  · exact ⟨{ tile0 ready0 0 with threads := [(0, ready0), (3, ready0)] }, 0, 3, by decide +kernel, by decide, by decide +kernel⟩
  · exact by
      obtain ⟨u, h, n⟩ := nop_next
      exact ⟨atWord 0, u, 0, 0, 0, .nop 0 0 0, .inr rfl, List.mem_cons_self, h, n⟩

end W27

end Sys2Proof.Tests
end

section
/-! PROOFS. The scope of the block: the mailbox commands of the index, the counters that they read and clear, and that
every command has a next state. -/

namespace Sys2Proof

/-- A filter on the keys keeps what is listed at the keys that it accepts. -/
theorem SMap.lookup_filter_key {α : Type} (m : SMap α) (q : Nat → Bool) (k : Nat) :
    SMap.lookup (m.filter fun p => q p.1) k = if q k then SMap.lookup m k else none := by
  induction m with
  | nil => simp [SMap.lookup]
  | cons p m ih =>
    obtain ⟨j, v⟩ := p
    by_cases hk : j = k
    · subst hk
      cases hq : q j <;> simp [SMap.lookup, hq, ih]
    · cases hq : q j <;> simp [SMap.lookup, hq, hk, ih]

end Sys2Proof

namespace Sys2Proof.Safety

open Sys2Proof.Machine

theorem Holds.calm {s : State} {mb : Fin 16} {code n : Nat} (h : Holds s mb code n) : Calm s :=
  have ⟨_, _, hc⟩ := h
  hc

theorem ReportAt.calm {s s' : State} {w : Nat} {data : List Byte} (h : ReportAt s s' w data) : Calm s' :=
  have ⟨_, _, hc⟩ := h
  hc

end Sys2Proof.Safety

namespace Sys2Proof.Machine

open Sys2Proof.Safety

/-! ### Mailbox rows (R547, R549) -/

/-- A row of the index is executed as its mailbox's command: the row's code, its count of argument words, and a reply of
its own. -/
theorem exec_eq_runCmd_of_mailboxRow {c : Instr} {mb : Fin 16} {code n : Nat}
    (h : mailboxRow c = some (mb, code, n)) (s : State) : ∃ f, exec c s = runCmd mb code n f s := by
  cases c <;> cases h <;> dsimp only [exec] <;> exact ⟨_, rfl⟩

theorem runCmd_of_not_owns {s : State} {mb : Fin 16} {code : Nat} (h : s.owns mb code = false) (n : Nat)
    (f : (Nat → Nat) → State → Reply) : runCmd mb code n f s = .next s := by
  simp [runCmd, h]

theorem runCmd_of_not_zeroFrom {s : State} {mb : Fin 16} {code n : Nat} (h : s.owns mb code = true)
    (hz : (s.mailbox mb).zeroFrom n = false) (f : (Nat → Nat) → State → Reply) :
    runCmd mb code n f s = .next (finishCmd mb St.badArg [] s) := by
  simp [runCmd, h, hz]

/-- Settles O50: every row runs through runCmd, which checks the mailbox's code and the unused words before anything else. -/
theorem unusedArgumentWordsAreRefused : Obligations.UnusedArgumentWordsAreRefused := by
  intro c mb code n s hrow
  obtain ⟨f, hf⟩ := exec_eq_runCmd_of_mailboxRow hrow s
  rw [hf]
  exact ⟨fun h => runCmd_of_not_owns h n f,
    fun h hz => ⟨runCmd_of_not_zeroFrom h hz f, finishCmd_core mb St.badArg [] s⟩⟩

/-! ### Counters (R17, R18) -/

theorem runCmd_reportCtrs {c : State → List Byte} {s s' : State} {mb : Fin 16} {code : Nat} (h : Holds s mb code 1)
    (hr : ReportAt s s' (argOf s mb 0) (c s)) : runCmd mb code 1 (reportCtrs c) s = .next (finishCmd mb St.ok [] s') :=
  runCmd_ok h (report_ok hr []) hr.calm

/-- Settles O8: each row is reportCtrs of its unit's counters. -/
theorem counterReadsReportEveryCounter : Obligations.CounterReadsReportEveryCounter := by
  refine ⟨?_, ?_, ?_, ?_, ?_, ?_, ?_, ?_, ?_⟩ <;> intro s s' mb h hr
  · exact runCmd_reportCtrs (c := fun s => Ctrs.bytes s.mem.ctrs 16) h hr
  · exact runCmd_reportCtrs (c := fun s => Ctrs.bytes s.num.wgbCtrs 5) h hr
  · exact runCmd_reportCtrs (c := fun s => Ctrs.bytes s.ptu.ctrs 19) h hr
  · exact runCmd_reportCtrs (c := fun s => Ctrs.bytes s.leafs.ctrs 13) h hr
  · exact runCmd_reportCtrs (c := fun s => Ctrs.bytes s.cle.ctrs 10) h hr
  · exact runCmd_reportCtrs (c := fun s => Ctrs.bytes s.ige.ctrs 11) h hr
  · exact runCmd_reportCtrs (c := fun s => Ctrs.bytes s.rse.ctrs 12) h hr
  · exact runCmd_reportCtrs (c := fun s => Ctrs.bytes s.pcm.ctrs 13) h hr
  · exact runCmd_reportCtrs (c := fun s => (List.range 32).flatMap fun l => Ctrs.bytes (s.link l).ctrs 11) h hr

theorem Ctrs.get_clear (c : Ctrs) (mask i : Nat) :
    Ctrs.get (Ctrs.clear c mask) i = if mask.testBit i then 0 else Ctrs.get c i := by
  unfold Ctrs.get Ctrs.clear SMap.getD
  rw [SMap.lookup_filter_key c fun k => !mask.testBit k]
  cases mask.testBit i <;> rfl

theorem cleared_clear (c : Ctrs) (mask : Nat) : Cleared c (Ctrs.clear c mask) mask := Ctrs.get_clear c mask

theorem clearCtrs_ok {n : Nat} {a : Nat → Nat} (h : a 0 < 2 ^ n) (f : Nat → State → State) (s : State) :
    clearCtrs n f a s = .ok [] (f (a 0) s) :=
  checked_of (by simpa using h)

theorem runCmd_clearCtrs {n code : Nat} {f : Nat → State → State} {s : State} {mb : Fin 16} (h : Holds s mb code 1)
    (hm : argOf s mb 0 < 2 ^ n) (hc : Calm (f (argOf s mb 0) s)) :
    runCmd mb code 1 (clearCtrs n f) s = .next (finishCmd mb St.ok [] (f (argOf s mb 0) s)) :=
  runCmd_ok h (clearCtrs_ok hm f s) hc

/-! MEM_CLEAR_COUNTERS widens its mask: mask bit 14 has two counters, 14 and 15, and mask bit 15 none of the list (R303). -/

theorem testBit_memMask_low (m : Nat) {i : Nat} (h : i < 15) :
    (m % 2 ^ 15 + if m.testBit 14 then 2 ^ 15 else 0).testBit i = m.testBit i := by
  have low : (m % 2 ^ 15).testBit i = m.testBit i := by
    rw [Nat.testBit_mod_two_pow, decide_eq_true h, Bool.true_and]
  split
  · rw [Nat.add_comm, Nat.testBit_two_pow_add_gt h, low]
  · exact low

theorem testBit_memMask_high (m : Nat) :
    (m % 2 ^ 15 + if m.testBit 14 then 2 ^ 15 else 0).testBit 15 = m.testBit 14 := by
  have high : (m % 2 ^ 15).testBit 15 = false := by
    rw [Nat.testBit_mod_two_pow]
    rfl
  split
  · next h => rw [Nat.add_comm, Nat.testBit_two_pow_add_eq, high, h, Bool.not_false]
  · next h => rw [Nat.add_zero, high, eq_false_of_ne_true h]

/-! CLEAR_LINK_COUNTERS changes the links of a mask, one after another. -/

theorem mem_bitsOf {n v i : Nat} : i ∈ bitsOf n v ↔ i < n ∧ v.testBit i = true := by
  simp [bitsOf]

theorem nodup_bitsOf (n v : Nat) : (bitsOf n v).Nodup := List.nodup_range.filter _

theorem link_foldl_modLink (f : Link → Link) {ls : List Nat} (hd : ls.Nodup) (s : State) (k : Nat) :
    (ls.foldl (fun s l => s.modLink l f) s).link k = if k ∈ ls then f (s.link k) else s.link k := by
  induction ls generalizing s with
  | nil => simp
  | cons l ls ih =>
    obtain ⟨hl, hd⟩ := List.nodup_cons.1 hd
    rw [List.foldl_cons, ih hd, State.link_modLink]
    by_cases hk : k = l
    · simp [hk, hl]
    · simp [hk]

theorem foldl_modLink_frame (f : Link → Link) (ls : List Nat) (s : State) (x : SMap Link) :
    { ls.foldl (fun s l => s.modLink l f) s with
      links := { (ls.foldl (fun s l => s.modLink l f) s).links with links := x } }
      = { s with links := { s.links with links := x } } := by
  induction ls generalizing s with
  | nil => rfl
  | cons l ls ih => exact ih (s.modLink l f)

theorem calm_foldl_modLink {s : State} (h : Calm s) (f : Link → Link) (ls : List Nat) :
    Calm (ls.foldl (fun s l => s.modLink l f) s) :=
  calm_of_spine h (congrArg State.spine (foldl_modLink_frame f ls s s.links.links) :)

theorem cmdClearLinkCounters_ok {a : Nat → Nat} (hl : a 0 < 2 ^ 32) (hm : a 1 < 2 ^ 11) (s : State) :
    cmdClearLinkCounters a s = .ok [] ((bitsOf 32 (a 0)).foldl (fun s l => s.modLink l fun x => { x with
      ctrs := Ctrs.clear x.ctrs (a 1), refused := x.refused && !(a 1).testBit 8 }) s) :=
  checked_of (by simpa using ⟨hl, hm⟩)

/-- Mask bit 9 of CLEAR_CLE_COUNTERS clears the lateness tables with its counter (R462). -/
theorem cmdClearCleCounters_ok {a : Nat → Nat} (h : a 0 < 2 ^ 10) (s : State) :
    cmdClearCleCounters a s = .ok [] { s with
      cle := { s.cle with ctrs := Ctrs.clear s.cle.ctrs (a 0) }
      spine := { s.spine with
        lateCommit := if (a 0).testBit 9 then [] else s.spine.lateCommit
        lateInput := if (a 0).testBit 9 then [] else s.spine.lateInput } } := by
  rw [cmdClearCleCounters, clearCtrs_ok h]
  cases (a 0).testBit 9 <;> rfl

/-- Settles O9: each row is clearCtrs of its unit, and Ctrs.clear zeroes the counters of the mask. The memory widens the
mask, the links are cleared one by one, and the collective engine clears its lateness tables too. -/
theorem counterClearsClearTheMask : Obligations.CounterClearsClearTheMask := by
  refine ⟨?_, ?_, ?_, ?_, ?_, ?_, ?_, ?_, ?_, ?_⟩ <;> intro s mb h hm
  · exact ⟨_, runCmd_clearCtrs (f := fun m s => s.numCtr fun c => Ctrs.clear c m) h hm h.calm, cleared_clear _ _⟩
  · exact ⟨_, runCmd_clearCtrs (f := fun m s => s.wgbCtr fun c => Ctrs.clear c m) h hm h.calm, cleared_clear _ _⟩
  · exact ⟨_, runCmd_clearCtrs (f := fun m s => s.ptuCtr fun c => Ctrs.clear c m) h hm h.calm, cleared_clear _ _⟩
  · exact ⟨_, runCmd_clearCtrs (f := fun m s => s.leafCtr fun c => Ctrs.clear c m) h hm h.calm, cleared_clear _ _⟩
  · exact ⟨_, runCmd_clearCtrs (f := fun m s => s.igeCtr fun c => Ctrs.clear c m) h hm h.calm, cleared_clear _ _⟩
  · exact ⟨_, runCmd_clearCtrs (f := fun m s => s.rseCtr fun c => Ctrs.clear c m) h hm h.calm, cleared_clear _ _⟩
  · exact ⟨_, runCmd_clearCtrs (f := fun m s => s.pcmCtr fun c => Ctrs.clear c m) h hm h.calm, cleared_clear _ _⟩
  · refine ⟨_, runCmd_clearCtrs (f := clearMemCtrs) h hm h.calm, fun i hi => ?_, ?_⟩
    · rw [Ctrs.get_clear, testBit_memMask_low _ hi]
    · rw [Ctrs.get_clear, testBit_memMask_high]
  · intro hm1
    have hd := nodup_bitsOf 32 (argOf s mb 0)
    refine ⟨_, runCmd_ok h (cmdClearLinkCounters_ok hm hm1 s) (calm_foldl_modLink h.calm _ _), fun l hl hb => ?_,
      fun l hb => ?_, foldl_modLink_frame _ _ s _⟩
    · rw [link_foldl_modLink _ hd, if_pos (mem_bitsOf.2 ⟨hl, hb⟩)]
      exact cleared_clear _ _
    · rw [link_foldl_modLink _ hd, if_neg]
      rw [mem_bitsOf]
      rintro ⟨hl, ht⟩
      exact hb.elim (fun h32 => by omega) fun hf => by simp [ht] at hf
  · exact ⟨_, runCmd_ok h (cmdClearCleCounters_ok hm s) h.calm, cleared_clear _ _⟩

/-! ### Every command has a next state (R20, R31) -/

/-- The outcome is a next state. -/
def Answers (o : Host.Outcome State Fault Refusal) : Prop := ∃ t, o = .next t

@[simp] theorem answers_next (s : State) : Answers (.next s) := ⟨s, rfl⟩

@[simp] theorem answers_done (s : State) : Answers (done s) := answers_next _

@[simp] theorem answers_ite {c : Prop} [Decidable c] {a b : Host.Outcome State Fault Refusal} :
    Answers (if c then a else b) ↔ if c then Answers a else Answers b := by
  split <;> rfl

theorem answers_runCmd (mb : Fin 16) (code n : Nat) (f : (Nat → Nat) → State → Reply) (s : State) :
    Answers (runCmd mb code n f s) := by
  unfold runCmd
  split
  · exact answers_next _
  · split
    · exact answers_next _
    · split <;> simp

theorem answers_takePacket (l : Nat) (p : Packet) (mine : Bool) (f : State → State) (s : State) :
    Answers (takePacket l p mine f s) := by
  simp [takePacket]

theorem answers_runSpdm (mctp : Bool) (code : Nat) (m : List Byte) (before : Spdm → Bool) (after : Spdm → Spdm)
    (f : List Byte → State → List Byte × State) (s : State) : Answers (runSpdm mctp code m before after f s) := by
  unfold runSpdm
  split
  · exact answers_next _
  · split <;> exact answers_next _

/-- The commands and events that no mailbox holds, by the shape of their meaning: an SPDM request, one that branches on
conditions, one that also takes a value apart, one that does not branch, and what is left, the packets that a link hands
to an engine. -/
theorem answers_of_mailboxRow_none {c : Instr} (h : mailboxRow c = none) (s : State) : Answers (exec c s) := by
  cases c
  case
      spdmGetVersion | spdmGetCapabilities | spdmNegotiateAlgorithms | spdmGetDigests | spdmGetCertificate |
      spdmChallenge | spdmGetMeasurements =>
    exact answers_runSpdm ..
  case
      pwrGoodRise | perstAssert | mainGoodFall | mainGoodRise | mainEnWakeTimeout | hotReset | flr | devResetStart |
      mgmtDevMessage | configRequest | bootPufDerive | measurementsRecord | hbmTraining | firmwareReady |
      linkTrainingTimeout | laneLock | flitLock | helloResend | hello | linkAdmit | ping | pong | hold |
      positionChange | ackTimeout | linkDown | peerLost | linkTestEnd | syncSend | commitDecide | stepStart |
      restoreComplete | replayStart | collectiveEntryStart | governorDecide | retainedRepair | reclaimNotice |
      writeOrRead | hotBankEpisode | hotBankEpisodeEnd | ecsResultRead | camloWatchdogExpiry | fatalEvent |
      colophonSummaryWritten | codeIntegrityCheck | droopEvent | droopRelease | freqRelockStart |
      sustainedLoopPeriod | thermalSample | pmbusCalibration | mgmtCapEffecterSet | bar0AccessError | bar4Access |
      mailboxHandoff | mailboxWriteDrop | intCauseWrite | intMaskWrite | mbDoneWrite | cplConsumedWrite |
      undefinedCommand | tgcComplete | pcieLinkUp | mctpControlRequest | dynamicAddressAssign | jtagTapOperation =>
    simp only [exec,
      execPwrGoodRise, execPerstAssert, execMainGoodFall, execMainGoodRise, execMainEnWakeTimeout, execHotReset,
      execFlr, execDevResetStart, execMgmtDevMessage, execConfigRequest, execBootPufDerive, execMeasurementsRecord,
      execHbmTraining, execFirmwareReady, execLinkTrainingTimeout, execLaneLock, execFlitLock, execHelloResend,
      execHello, execLinkAdmit, execPing, execPong, execHold, execPositionChange, execAckTimeout, execLinkDown,
      execPeerLost, execLinkTestEnd, execSyncSend, execCommitDecide, execStepStart, execRestoreComplete,
      execReplayStart, execCollectiveEntryStart, execGovernorDecide, execRetainedRepair, execReclaimNotice,
      execWriteOrRead, execHotBankEpisode, execHotBankEpisodeEnd, execEcsResultRead, execCamloWatchdogExpiry,
      execFatalEvent, execColophonSummaryWritten, execCodeIntegrityCheck, execDroopEvent, execDroopRelease,
      execFreqRelockStart, execSustainedLoopPeriod, execThermalSample, execPmbusCalibration, execMgmtCapEffecterSet,
      execBar0AccessError, execBar4Access, execMailboxHandoff, execMailboxWriteDrop, execIntCauseWrite,
      execIntMaskWrite, execMbDoneWrite, execCplConsumedWrite, execUndefinedCommand, execTgcComplete, execPcieLinkUp,
      execMctpControlRequest, execDynamicAddressAssign, execJtagTapOperation,
      ↓answers_next, ↓answers_done, ↓answers_ite, ite_self]
  case
      configRecordCheck | imageLoadCheck | linkRelease | dataFlitReceive | idleFlitReceive | packetSend |
      selfIsolate | stagCandidateTimeout | statusReport | stepWatchdog | chunkAdmit | stateRequest |
      manifestComplete | takeoverStreamComplete | takeoverBoundExpiry | reclaimBlockPlace | reclaimBoundExpiry |
      reclaimDone | farRequest | farData | hostTierCompletion | pageEviction | regulatorGrant | sampleStart |
      sampleDecodeComplete | microbatchStart | microbatchReady | scrubComplete | injectLinkDrop | injectLinkDropEnd |
      freqRelockComplete | pmbusRead | sleepTransitionDone | pldmSensorRead | spdmUnsupported | bar2Access |
      registerWrite | doeDiscoveryRequest | pldmEventRead =>
    dsimp only [exec,
      execConfigRecordCheck, execImageLoadCheck, execLinkRelease, execDataFlitReceive, execIdleFlitReceive,
      execPacketSend, execSelfIsolate, execStagCandidateTimeout, execStatusReport, execStepWatchdog, execChunkAdmit,
      execStateRequest, execManifestComplete, execTakeoverStreamComplete, execTakeoverBoundExpiry,
      execReclaimBlockPlace, execReclaimBoundExpiry, execReclaimDone, execFarRequest, execFarData,
      execHostTierCompletion, execPageEviction, execRegulatorGrant, execSampleStart, execSampleDecodeComplete,
      execMicrobatchStart, execMicrobatchReady, execScrubComplete, execInjectLinkDrop, execInjectLinkDropEnd,
      execFreqRelockComplete, execPmbusRead, execSleepTransitionDone, execPldmSensorRead, execSpdmUnsupported,
      execBar2Access, execRegisterWrite, execDoeDiscoveryRequest, execPldmEventRead]
    (repeat' split) <;> simp only [↓answers_next, ↓answers_done]
  case
      pwrGoodFall | perstRelease | migrationComplete | tickwaitExpiry | freezeLong | prgBucketRefill | iadd32 |
      iadd64 | fmax32 | fadd32 | faddbf16 | final32 | finalbf16 | atomicIntAdd | atomicSwap | atomicCompareAndSwap |
      atomicAndOrXor | atomicMinMax | atomicFloatAdd | debugNonceExpiry | energyModelSample | envelopeSecond |
      minuteEnd | pldmWakeRequest | telemetryMirrorUpdate | nakReceive | signalLoss | chunkComplete | quireArrival |
      quireCredit | landingBufferFree | leafStallExpiry | leafEvict | leafReturn | nop | endThread | br | loop |
      waitev | sigev | tickwait | smovi | salu | sld | sst | mma | mconv | mzero | mdrain | reservedOpcode |
      unitInstructionComplete | codeLineFetch | vchain | vchainExecute | desc | descLineFetch | descriptorCheck |
      load | store | copy | mcast | mcastStart | mrecv | wgbUnload | wgbLoad | atomic | requestComplete | append |
      fwd | attnFinal | bwdPrep | bwd | gfinal | qsend | qrelease | lfetch | trunc | attnReservedKind =>
    dsimp only [exec]
    exact answers_next _
  all_goals cases h
  all_goals exact answers_takePacket ..

/-- Settles O46: a row of a mailbox runs through runCmd, which ends in a next state whatever the reply; of the others, no
branch ends in anything else. -/
theorem everyCommandCompletes : Obligations.EveryCommandCompletes := by
  intro c s
  cases hrow : mailboxRow c with
  | none => exact answers_of_mailboxRow_none hrow s
  | some r =>
    obtain ⟨f, hf⟩ := exec_eq_runCmd_of_mailboxRow hrow s
    rw [hf]
    exact answers_runCmd r.1 r.2.1 r.2.2 f s

end Sys2Proof.Machine
end

section
/-! PROOFS. The compute tile: the general registers, and the order in which the threads issue. -/

namespace Sys2Proof.Machine

open Sys2Proof.Safety

/-! ### General registers (R94) -/

theorem Thread.setReg_frame (h : Thread) (r : Nat) (v : BitVec 64) : { h.setReg r v with regs := h.regs } = h := by
  unfold Thread.setReg
  split <;> rfl

/-- Settles O56: a read after a write, by `Thread.reg_setReg`. -/
theorem generalRegistersHoldWhatIsWritten : Obligations.GeneralRegistersHoldWhatIsWritten := by
  intro h r q v
  refine ⟨h.reg_zero, rfl, fun hr => ?_, fun hq => ?_, h.setReg_frame r v⟩
  · rw [Thread.reg_setReg, if_pos ⟨rfl, hr⟩]
  · rw [Thread.reg_setReg, if_neg fun e => hq e.1]

/-! ### The turns of the threads (R95) -/

/-- How many threads the sequencer looks at before this one. -/
def Tile.turnOf (x : Tile) (th : Nat) : Nat := (th + 7 - x.lastTh % 8) % 8

theorem Tile.turnOf_lt (x : Tile) (th : Nat) : x.turnOf th < 8 := Nat.mod_lt _ (by decide)

/-- Each thread has its place in the order that begins after the one that issued last. -/
theorem Tile.at_turnOf (x : Tile) {th : Nat} (h : th < 8) : (x.lastTh + 1 + x.turnOf th) % 8 = th := by
  unfold Tile.turnOf
  omega

theorem Tile.pick_eq_find_range (x : Tile) :
    x.pick = ((List.range 8).find? fun i => x.canIssue ((x.lastTh + 1 + i) % 8)).map fun i => (x.lastTh + 1 + i) % 8 := by
  rw [Tile.pick, List.find?_map]
  rfl

theorem Tile.pick_eq_some_iff (x : Tile) (th : Nat) :
    x.pick = some th ↔ ∃ i, i < 8 ∧ th = (x.lastTh + 1 + i) % 8 ∧ x.canIssue th = true
      ∧ ∀ j, j < i → x.canIssue ((x.lastTh + 1 + j) % 8) = false := by
  rw [Tile.pick_eq_find_range, Option.map_eq_some_iff]
  refine exists_congr fun i => ?_
  rw [List.find?_range_eq_some, List.mem_range]
  constructor
  · rintro ⟨⟨hc, hi, hb⟩, rfl⟩
    exact ⟨hi, rfl, hc, fun j hj => by simpa using hb j hj⟩
  · rintro ⟨hi, rfl, hc, hb⟩
    exact ⟨⟨hc, hi, fun j hj => by simpa using hb j hj⟩, rfl⟩

theorem Tile.pick_eq_none_iff (x : Tile) : x.pick = none ↔ ∀ th, th < 8 → x.canIssue th = false := by
  rw [Tile.pick_eq_find_range, Option.map_eq_none_iff, List.find?_range_eq_none]
  constructor
  · intro h th hth
    simpa [x.at_turnOf hth] using h (x.turnOf th) (x.turnOf_lt th)
  · intro h i _
    simpa using h _ (Nat.mod_lt _ (by decide))

/-- A ready thread is not passed over: what issues stands no later in the order. -/
theorem Tile.turn_nearer {x : Tile} {k th : Nat} (hk : x.pick = some k) (hth : th < 8) (hc : x.canIssue th = true) :
    k = th ∨ (th + 7 - k) % 8 < x.turnOf th := by
  obtain ⟨i, hi, rfl, -, hb⟩ := (x.pick_eq_some_iff k).1 hk
  have hle : i ≤ x.turnOf th := by
    refine Nat.not_lt.1 fun hlt => ?_
    have hnot := hb _ hlt
    rw [x.at_turnOf hth, hc] at hnot
    cases hnot
  unfold Tile.turnOf at hle ⊢
  omega

theorem State.atInsn_iff (s : State) (t th : Nat) (w : BitVec 128) :
    s.atInsn t th w = true ↔ (s.tileRun t).isSome = true ∧ (s.tile t).pick = some th
      ∧ SMap.lookup (s.tile t).icache (((s.tile t).thread th).pc.toNat / 16) = some w := by
  simp [State.atInsn, and_assoc]

/-! An instruction that is not at its turn does nothing: one lemma for each way of issue. -/

section
variable {s : State} {t th : Nat} {w : BitVec 128} (h : s.atInsn t th w = false)
include h

theorem issueSeq_of_not_atInsn (op kind : Nat) (next : Int) (act : State → State) :
    issueSeq op t th w kind next act s = s := by
  simp [issueSeq, h]

theorem issueUnit_of_not_atInsn (op u : Nat) (rd wr : List Nat) (kind : Nat) (act : State → State) :
    issueUnit op t th w u rd wr kind act s = s := by
  simp [issueUnit, h]

theorem attnRow_of_not_atInsn (ks : List Nat) : attnRow_ ks t th w s = s := by
  unfold attnRow_
  split
  · exact issueUnit_of_not_atInsn h ..
  · rfl

end

theorem exec_of_not_atInsn {s : State} {t : Fin 256} {th : Fin 8} {w : BitVec 128} {i : Instr} (hc : Calm s)
    (h : s.atInsn t th w = false)
    (hi : i ∈ [ .nop t th w, .endThread t th w, .br t th w, .loop t th w, .waitev t th w, .sigev t th w, .tickwait t th w,
      .smovi t th w, .salu t th w, .sld t th w, .sst t th w, .mma t th w, .mconv t th w, .mzero t th w,
      .mdrain t th w, .reservedOpcode t th w, .vchain t th w, .desc t th w, .append t th w, .fwd t th w,
      .attnFinal t th w, .bwdPrep t th w, .bwd t th w, .gfinal t th w, .qsend t th w, .qrelease t th w,
      .lfetch t th w, .trunc t th w, .attnReservedKind t th w ]) : exec i s = .next s := by
  have seq (op kind : Nat) (next : Int) (act : State → State) : done (issueSeq op t th w kind next act s) = .next s := by
    rw [issueSeq_of_not_atInsn h, done_calm hc]
  have unit (op u : Nat) (rd wr : List Nat) (kind : Nat) (act : State → State) :
      done (issueUnit op t th w u rd wr kind act s) = .next s := by
    rw [issueUnit_of_not_atInsn h, done_calm hc]
  have attn (ks : List Nat) : done (attnRow_ ks t th w s) = .next s := by
    rw [attnRow_of_not_atInsn h, done_calm hc]
  have reserved : exec (.reservedOpcode t th w) s = .next s := by
    simp only [exec, execReservedOpcode, h, Bool.false_and, Bool.false_eq_true, if_false, done_calm hc]
  revert i
  simp only [List.forall_mem_cons, List.not_mem_nil, false_implies, implies_true, and_true]
  exact ⟨seq .., seq .., seq .., seq .., seq .., seq .., seq .., seq .., seq .., seq .., seq .., unit .., unit ..,
    unit .., unit .., reserved, unit .., unit .., attn _, attn _, attn _, attn _, attn _, attn _, attn _, attn _, attn _,
    attn _, attn _⟩

/-- Settles O59: the thread picked is the first ready one of the order, and an instruction that is not at its turn leaves
the state as it was. -/
theorem readyThreadsIssueInTurn : Obligations.ReadyThreadsIssueInTurn := by
  refine ⟨Tile.pick_eq_none_iff, Tile.pick_eq_some_iff, fun x k th => Tile.turn_nearer, ?_⟩
  intro s u t th w i hc hi hu hne
  cases hat : s.atInsn t th w with
  | true => exact ((s.atInsn_iff t th w).1 hat).2
  | false =>
    rw [exec_of_not_atInsn hc hat hi] at hu
    exact absurd (Host.Outcome.next.inj hu).symm hne

end Sys2Proof.Machine
end

section
/-! PROOFS. The instructions of the sequencer, and the fetch of code lines. -/

namespace Sys2Proof.Safety

open Sys2Proof.Machine

theorem Issues.calm {s : State} {t th : Nat} {w : BitVec 128} {op : Nat} {next : Int} (h : Issues s t th w op next) :
    Calm s :=
  have ⟨_, _, _, _, hc⟩ := h
  hc

theorem IssuesTo.issues {s : State} {t th : Nat} {w : BitVec 128} {op u : Nat} {rd wr : List Nat}
    (h : IssuesTo s t th w op u rd wr) : Issues s t th w op (s.nextPc t th) :=
  have ⟨hI, _, _⟩ := h
  hI

end Sys2Proof.Safety

namespace Sys2Proof.Machine

open Sys2Proof.Safety

/-! ### Issue (R95, R104) -/

/-- What a sequencer instruction at its turn answers: its effect on the state in which its thread has gone on. -/
theorem done_issueSeq {s : State} {t th : Nat} {w : BitVec 128} {op : Nat} {next : Int} (h : Issues s t th w op next)
    {act : State → State} (ha : (act (goOn t th next s)).spine = s.spine) :
    done (issueSeq op t th w 0 next act s) = .next (act (goOn t th next s)) := by
  rw [issueSeq_of h]
  exact done_of_spine h.calm ha

/-- The tile after its thread has gone on. -/
theorem tile_goOn_self (s : State) (t th : Nat) (next : Int) :
    (goOn t th next s).tile t = { ((s.tile t).modThread th fun h => { h with pc := pcAt next }) with
      ctrs := Ctrs.sat (s.tile t).ctrs 0 1, lastTh := th } :=
  State.tile_modTile_self ..

theorem tile_goOn_ne (s : State) {t q : Nat} (th : Nat) (next : Int) (h : q ≠ t) : (goOn t th next s).tile q = s.tile q := by
  rw [goOn, State.tile_modTile, if_neg h]

theorem thread_goOn_self (s : State) (t th : Nat) (next : Int) :
    ((goOn t th next s).tile t).thread th = { (s.tile t).thread th with pc := pcAt next } :=
  (advanced_goOn s t th next).thread

@[simp] theorem ec_goOn (s : State) (t th : Nat) (next : Int) : ((goOn t th next s).tile t).ec = (s.tile t).ec := by
  rw [tile_goOn_self]
  rfl

@[simp] theorem outstanding_goOn (s : State) (t th : Nat) (next : Int) :
    ((goOn t th next s).tile t).outstanding = (s.tile t).outstanding := by
  rw [tile_goOn_self]
  rfl

/-- A change of a tile after its thread has gone on leaves the other tiles and the other parts. -/
theorem tile_modTile_goOn_ne (s : State) {t q : Nat} (th : Nat) (next : Int) (f : Tile → Tile) (h : q ≠ t) :
    ((goOn t th next s).modTile t f).tile q = s.tile q := by
  rw [State.tile_modTile, if_neg h, tile_goOn_ne s th next h]

/-! ### Event counters (R100 to R102) -/

/-- A thread once the event counters are as `c`: one that waits for a value that its counter has reached is ready. -/
def Thread.woken (c : Nat → BitVec 32) (h : Thread) : Thread :=
  if h.st = .waitEvent ∧ evReached (c h.waitEc) h.waitVal = true then { h with st := .ready } else h

/-- One turn of `Tile.wakeEvents`. -/
def Tile.wakeOne (x : Tile) (n : Nat) : Tile :=
  if (x.thread n).st == .waitEvent && evReached (x.ec (x.thread n).waitEc) (x.thread n).waitVal then
    x.modThread n fun h => { h with st := .ready }
  else x

theorem Tile.wakeEvents_eq_foldl (x : Tile) : x.wakeEvents = (List.range 8).foldl Tile.wakeOne x := rfl

theorem Thread.woken_woken (c : Nat → BitVec 32) (h : Thread) : (h.woken c).woken c = h.woken c := by
  by_cases hw : h.st = .waitEvent ∧ evReached (c h.waitEc) h.waitVal = true <;> simp [Thread.woken, hw]

theorem Tile.ec_wakeOne (x : Tile) (n : Nat) : (x.wakeOne n).ec = x.ec := by
  unfold Tile.wakeOne
  split <;> rfl

theorem Tile.thread_wakeOne (x : Tile) (n q : Nat) :
    (x.wakeOne n).thread q = if q = n then (x.thread n).woken x.ec else x.thread q := by
  unfold Tile.wakeOne Thread.woken
  by_cases hw : (x.thread n).st = .waitEvent ∧ evReached (x.ec (x.thread n).waitEc) (x.thread n).waitVal = true
  · rw [if_pos (by simpa using hw), if_pos hw, Tile.thread_modThread]
  · rw [if_neg (by simpa using hw), if_neg hw]
    split
    · next h => rw [h]
    · rfl

theorem Tile.ec_foldl_wakeOne (ns : List Nat) (x : Tile) : (ns.foldl Tile.wakeOne x).ec = x.ec := by
  induction ns generalizing x with
  | nil => rfl
  | cons n ns ih => rw [List.foldl_cons, ih, Tile.ec_wakeOne]

theorem Tile.thread_foldl_wakeOne (ns : List Nat) (x : Tile) (q : Nat) :
    (ns.foldl Tile.wakeOne x).thread q = if q ∈ ns then (x.thread q).woken x.ec else x.thread q := by
  induction ns generalizing x with
  | nil => rfl
  | cons n ns ih =>
    rw [List.foldl_cons, ih, Tile.ec_wakeOne, Tile.thread_wakeOne]
    by_cases hq : q = n
    · subst hq
      simp [Thread.woken_woken]
    · simp [hq]

@[simp] theorem Tile.ec_wakeEvents (x : Tile) : x.wakeEvents.ec = x.ec := Tile.ec_foldl_wakeOne ..

theorem Tile.thread_wakeEvents (x : Tile) {q : Nat} (hq : q < 8) : x.wakeEvents.thread q = (x.thread q).woken x.ec := by
  rw [Tile.wakeEvents_eq_foldl, Tile.thread_foldl_wakeOne, if_pos (List.mem_range.2 hq)]

theorem Tile.ec_bumpEc (x : Tile) (n k : Nat) : (x.bumpEc n).ec k = if k = n then x.ec n + 1 else x.ec k := by
  rw [Tile.bumpEc, Tile.ec_wakeEvents]
  split
  · next hk => rw [hk]; exact SMap.getD_updD_self x.ecs 0 n (· + 1)
  · next hk => exact SMap.getD_updD_ne x.ecs 0 (· + 1) hk

theorem Tile.thread_bumpEc (x : Tile) (n : Nat) {q : Nat} (hq : q < 8) :
    (x.bumpEc n).thread q = (x.thread q).woken (x.bumpEc n).ec := by
  rw [Tile.bumpEc, Tile.thread_wakeEvents _ hq, Tile.ec_wakeEvents]
  rfl

/-- What SIGEV does to its tile once its thread has gone on (R101). -/
def sigevAct (th : Nat) (w : BitVec 128) (x : Tile) : Tile :=
  if (x.outstanding th (Ins.units w)).isEmpty then x.bumpEc (Ins.ec w)
  else { x with sigs := x.sigs ++ [⟨Ins.ec w, x.outstanding th (Ins.units w)⟩] }

theorem exec_sigev {s : State} {t : Fin 256} {th : Fin 8} {w : BitVec 128} (h : Issues s t th w 0x05 (s.nextPc t th)) :
    exec (.sigev t th w) s = .next ((goOn t th (s.nextPc t th) s).modTile t (sigevAct th w)) :=
  done_issueSeq h (act := fun s => s.modTile t (sigevAct th w)) rfl

/-! ### The control instructions (R100 to R106) -/

/-- WAITEV and TICKWAIT: the thread goes on, and waits unless what it waits for has come. -/
theorem advanced_ite {s u v : State} {t th : Nat} {h k : Thread} {c : Prop} [Decidable c] (hu : Advanced s u t th h)
    (hv : Advanced s v t th k) : Advanced s (if c then u else v) t th (if c then h else k) := by
  split
  · exact hu
  · exact hv

theorem spine_ite {s u v : State} {c : Prop} [Decidable c] (hu : u.spine = s.spine) (hv : v.spine = s.spine) :
    (if c then u else v).spine = s.spine := by
  split
  · exact hu
  · exact hv

theorem tickwaitExpiry_next {s : State} {t : Fin 256} {th : Fin 8} (hst : ((s.tile t).thread th).st = .waitTick)
    (htick : ((s.tile t).thread th).waitTick.toNat ≤ s.spine.tick) :
    exec (.tickwaitExpiry t th) s = .next (modTh t th (fun h => { h with st := .ready }) s) := by
  simp only [exec, execTickwaitExpiry, hst, htick, beq_self_eq_true, decide_true, Bool.and_self, if_true]

/-- Settles O23: each instruction moves its thread on and then has its own effect on the thread, or, for SIGEV, on the
event counters and the waiting signals. -/
theorem controlInstructionsTakeEffect : Obligations.ControlInstructionsTakeEffect := by
  refine ⟨?nop, ?endThread, ?br, ?loop, ?waitev, ?sigevNow, ?sigevLater, ?tickwait, ?expiry⟩
  case nop =>
    intro s t th w hI
    exact ⟨_, done_issueSeq hI (act := id) rfl, advanced_goOn ..⟩
  case endThread =>
    intro s t th w hI
    refine ⟨_, done_issueSeq hI rfl, ?_⟩
    have h := advanced_modTh (advanced_goOn s t th ((s.tile t).thread th).pc.toNat) fun h => { h with st := .ended }
    rwa [pcAt_toNat] at h
  case br =>
    rintro s t th w _ _ rfl hsel rfl hI
    refine ⟨_, ?_, advanced_goOn ..⟩
    show done (issueSeq 0x02 t th w (if 5 < Ins.sel w then 2 else 0) _ id s) = _
    rw [if_neg (Nat.not_lt.2 hsel)]
    exact done_issueSeq hI rfl
  case loop =>
    rintro s t th w _ _ _ rfl rfl rfl hI
    refine ⟨_, done_issueSeq hI rfl, ?_⟩
    rw [← Thread.setReg_pc]
    exact advanced_modTh (advanced_goOn ..) fun h => h.setReg (Ins.ga w) (h.reg (Ins.ga w) - 1)
  case waitev =>
    rintro s t th w v rfl hI
    refine ⟨_, done_issueSeq hI (spine_ite rfl rfl), ?_⟩
    rw [ec_goOn]
    exact advanced_ite (advanced_goOn ..) (advanced_modTh (advanced_goOn ..) _)
  case sigevNow =>
    intro s t th w hI hout
    have hx : ((goOn t th (s.nextPc t th) s).modTile t (sigevAct th w)).tile t
        = ((goOn t th (s.nextPc t th) s).tile t).bumpEc (Ins.ec w) := by
      rw [State.tile_modTile_self, sigevAct, outstanding_goOn, hout]
      rfl
    refine ⟨_, exec_sigev hI, ?_, fun n hn => ?_, ?_, fun q hq => tile_modTile_goOn_ne s _ _ _ hq, rfl⟩
    · rw [hx, Tile.ec_bumpEc, if_pos rfl, ec_goOn]
    · rw [hx, Tile.ec_bumpEc, if_neg hn, ec_goOn]
    · rintro q _ hq rfl
      have a := advanced_goOn s t th (s.nextPc t th)
      rw [hx, Tile.thread_bumpEc _ _ hq, Thread.woken]
      by_cases hth : q = th
      · simp only [hth, if_true, a.thread]
      · simp only [hth, if_false, a.others q hth]
  case sigevLater =>
    rintro s t th w _ hI rfl hne
    have hx : ((goOn t th (s.nextPc t th) s).modTile t (sigevAct th w)).tile t
        = { (goOn t th (s.nextPc t th) s).tile t with
            sigs := (s.tile t).sigs ++ [⟨Ins.ec w, (s.tile t).outstanding th (Ins.units w)⟩] } := by
      rw [State.tile_modTile_self, sigevAct, outstanding_goOn, if_neg (by simpa using hne), tile_goOn_self]
      rfl
    refine ⟨_, exec_sigev hI, ?_, ?_, ?_, fun q hq => tile_modTile_goOn_ne s _ _ _ hq, rfl⟩
    · rw [hx]
    · rw [hx, tile_goOn_self]
      rfl
    · rw [hx]
      exact thread_goOn_self ..
  case tickwait =>
    rintro s t th w v rfl hI
    exact ⟨_, done_issueSeq hI (spine_ite rfl rfl),
      advanced_ite (advanced_goOn ..) (advanced_modTh (advanced_goOn ..) _)⟩
  case expiry =>
    rintro s t th _ rfl hst htick
    refine ⟨_, tickwaitExpiry_next hst htick, ?_, fun q hq => ?_, ?_, fun q hq => ?_, rfl⟩
    · rw [modTh, State.tile_modTile_self, Tile.thread_modThread_self]
    · rw [modTh, State.tile_modTile_self, Tile.thread_modThread, if_neg hq]
    · rw [modTh, State.tile_modTile_self]
      rfl
    · rw [modTh, State.tile_modTile, if_neg hq]

end Sys2Proof.Machine
end

section
/-! PROOFS. The scalar instructions, reserved opcodes, and code lines. -/

namespace Sys2Proof.Machine

open Sys2Proof.Safety

/-! ### Scalar loads and stores (R93, R106) -/

@[simp] theorem length_natLe (n v : Nat) : (natLe n v).length = n := by
  induction n generalizing v with
  | zero => rfl
  | succ n ih => simp [natLe, ih]

theorem sldKind_eq_zero {a : Nat} (h8 : a % 8 = 0) (ha : a + 8 ≤ 0x100000) : sldKind a = 0 := if_pos ⟨h8, ha⟩

/-- With no injection at a scratchpad, and its line not poisoned, a word of a tile's scratchpad is good, and reading it
changes nothing. -/
theorem sramRead_word {t a : Nat} {s : State} (h8 : a % 8 = 0) (hp : a / 64 ∉ (s.tile t).poison)
    (hinj : ∀ e ∈ s.rse.inj, e.2.site ≠ 3) : sramRead t [(a, 8)] s = (.good, s.tile t, s) := by
  have hslots (p : Nat × Inj → Bool) : s.rse.inj.filter (fun e => e.2.site == 3 && p e) = [] :=
    List.filter_eq_nil_iff.2 fun e he => by simp [hinj e he]
  have hline (l : Nat) (hl : l ∈ (s.tile t).poison) (h1 : a / 64 ≤ l) (h2 : l ≤ (a + 7) / 64) : 0x100000 ≤ a := by
    have e : l = a / 64 := by omega
    exact absurd (e ▸ hl) hp
  simpa [sramRead, Bool.and_assoc, hslots] using hline

/-- What SLD does once its thread has gone on. -/
def sldAct (t th : Nat) (w : BitVec 128) (a : Nat) (s : State) : State :=
  let r := sramRead t [(a, 8)] s
  if r.1 == .good then
    modTh t th (fun h => h.setReg (Ins.gd w) (BitVec.ofNat 64 (leNat (Mem.readN r.2.1.scratch a 8)))) r.2.2
  else reportFound t th false r.1 r.2.2

theorem exec_sld {s : State} {t : Fin 256} {th : Fin 8} {w : BitVec 128} {a : Nat}
    (ha : a = sldAddr ((s.tile t).thread th) w) (h8 : a % 8 = 0) (hr : a + 8 ≤ 0x100000)
    (h : Issues s t th w 0x0A (s.nextPc t th)) :
    exec (.sld t th w) s = done (sldAct t th w a (goOn t th (s.nextPc t th) s)) := by
  subst ha
  show done (issueSeq 0x0A t th w (sldKind _) _ (sldAct t th w _) s) = _
  rw [sldKind_eq_zero h8 hr, issueSeq_of h]

theorem sldAct_good {s : State} {t th a : Nat} (w : BitVec 128) (h8 : a % 8 = 0) (hp : a / 64 ∉ (s.tile t).poison)
    (hinj : ∀ e ∈ s.rse.inj, e.2.site ≠ 3) : sldAct t th w a s
      = modTh t th (fun h => h.setReg (Ins.gd w) (BitVec.ofNat 64 (leNat (Mem.readN (s.tile t).scratch a 8)))) s := by
  rw [sldAct, sramRead_word h8 hp hinj]
  rfl

theorem sldAct_bad {s s' : State} {t th a : Nat} {f : Found} {x : Tile} (w : BitVec 128)
    (h : sramRead t [(a, 8)] s = (f, x, s')) (hf : f ≠ .good) : sldAct t th w a s = reportFound t th false f s' := by
  simp [sldAct, h, hf]

theorem exec_sst {s : State} {t : Fin 256} {th : Fin 8} {w : BitVec 128} {a : Nat}
    (ha : a = sldAddr ((s.tile t).thread th) w) (h8 : a % 8 = 0) (hr : a + 8 ≤ 0x100000)
    (h : Issues s t th w 0x0B (s.nextPc t th)) :
    exec (.sst t th w) s = .next ((goOn t th (s.nextPc t th) s).modTile t fun x =>
      { x with scratch := Mem.writeN x.scratch a (natLe 8 (((s.tile t).thread th).reg (Ins.gd w)).toNat) }) := by
  subst ha
  show done (issueSeq 0x0B t th w (sldKind _) _ _ s) = _
  rw [sldKind_eq_zero h8 hr]
  exact done_issueSeq h rfl

/-! ### Reports leave the tiles (R41, R419, R492 to R498) -/

theorem raiseCause_tiles (c : Nat) (s : State) : (raiseCause c s).tiles = s.tiles :=
  (congrArg State.tiles (raiseCause_frame c s s.hif s.out) :)

theorem writeRecord_tiles (r : LogRec) (s : State) : (writeRecord r s).tiles = s.tiles := by
  unfold writeRecord
  exact State.rseCtr_tiles ..

theorem logError_tiles (r : LogRec) (s : State) : (logError r s).tiles = s.tiles := by
  unfold logError
  split
  · split
    · exact writeRecord_tiles ..
    · dsimp only
      split
      · exact writeRecord_tiles ..
      · rfl
  · rw [raiseCause_tiles]
    split
    · exact (State.rseCtr_tiles ..).trans (writeRecord_tiles ..)
    · exact writeRecord_tiles ..

theorem sendTo_tiles (p : Packet) (s : State) : (sendTo p s).tiles = s.tiles := by
  unfold sendTo sendOn
  split
  · split <;> rfl
  · rfl

theorem passFault_tiles (f : FaultRec) (status : Nat) (s : State) : (passFault f status s).tiles = s.tiles := by
  unfold passFault
  split
  · rfl
  · split
    · exact sendTo_tiles ..
    · rfl

theorem reportFault_tiles (r : LogRec) (s : State) : (reportFault r s).tiles = s.tiles := by
  unfold reportFault reportAt
  dsimp only
  split
  · exact logError_tiles r s
  · split
    · rw [passFault_tiles]
      split
      · exact (raiseCause_tiles ..).trans (logError_tiles r s)
      · exact logError_tiles r s
    · split <;> exact logError_tiles r s

/-! ### Tile program faults (R127 to R131) -/

theorem State.tile_of_tiles {s u : State} (h : u.tiles = s.tiles) (q : Nat) : u.tile q = s.tile q := by
  rw [State.tile, h]
  rfl

/-- A fault leaves its tile with the thread Faulted, one more fault counted, and the first fault of the step recorded. -/
theorem tile_tileFault_self (t th kind : Nat) (pc : BitVec 32) (op status : Nat) (s : State) :
    (tileFault t th kind pc op status s).tile t
      = { ((s.tile t).modThread th fun h => { h with st := .faulted }) with
          faultInfo := if (s.tile t).faultInfo.getLsbD 7 then (s.tile t).faultInfo
            else BitVec.ofNat 64 (kind + th * 2 ^ 4 + 2 ^ 7 + pc.toNat * 2 ^ 8 + op * 2 ^ 40)
          ctrs := Ctrs.sat (s.tile t).ctrs 1 1 } := by
  unfold tileFault
  dsimp only
  rw [State.tile_of_tiles (reportFault_tiles ..)]
  split
  · exact (State.tile_of_tiles (State.modChan_tiles ..) t).trans (State.tile_modTile_self ..)
  · exact State.tile_modTile_self ..

theorem thread_tileFault_st (t th kind : Nat) (pc : BitVec 32) (op status : Nat) (s : State) :
    (((tileFault t th kind pc op status s).tile t).thread th).st = .faulted := by
  rw [tile_tileFault_self]
  exact congrArg Thread.st (Tile.thread_modThread_self (s.tile t) th fun h => { h with st := .faulted })

/-- What a fault's answer shows: the outcome of a state u, which is u itself where no fault is answered now. -/
theorem exists_done (u : State) : ∃ v, done u = .next v ∧ (Calm u → v = u) := by
  refine ⟨_, rfl, fun hc => ?_⟩
  have h := done_calm hc
  rw [done] at h
  exact Host.Outcome.next.inj h

/-! ### Code lines (R134) -/

theorem fetchCode_data {s s' : State} {t th c line : Nat} {x : Chan} {hd : Header} {h : Thread} {b : List Byte}
    (hrun : s.tileRun t = some (c, x, hd)) (hh : h = (s.tile t).thread th) (hst : h.st = .ready)
    (hl : line = h.pc.toNat / 256) (hcache : SMap.lookup (s.tile t).icache (h.pc.toNat / 16) = none)
    (hbad : line ∉ (s.tile t).badLines) (hlen : h.pc.toNat < hd.codeLength)
    (hline : tileLine t (2 * th) x.part (x.program + hd.codeOffset + 256 * line) (min 256 (hd.codeLength - 256 * line)) s
      = .data b false s') : fetchCode t th s = s'.modTile t (fillCode line b) := by
  subst hh hl
  simp [fetchCode, hrun, hst, hcache, hbad, Nat.not_le.2 hlen, hline]

/-! ### Long freezes (R119) -/

/-- A drain holds the array: one waits for its destination, or an MDRAIN has not begun. -/
def drainHolds (s : State) (t : Nat) : Bool :=
  ((s.tile t).queue 0).any fun q => s.drainWaits t q || (!q.ran && Ins.op q.word == 0x13)

theorem exec_freezeLong (s : State) (t : Fin 256) : exec (.freezeLong t) s
    = .next (s.tileCtr t fun c => Ctrs.sat (Ctrs.sat c 6 1) (if drainHolds s t then 5 else 4) (2 ^ 20)) := rfl

theorem drainHolds_eq_true {s : State} {t : Nat} : drainHolds s t = true ↔
    ∃ q ∈ (s.tile t).queue 0, s.drainWaits t q = true ∨ q.ran = false ∧ Ins.op q.word = 0x13 := by
  simp [drainHolds]

theorem drainHolds_eq_false {s : State} {t : Nat} : drainHolds s t = false ↔
    ∀ q ∈ (s.tile t).queue 0, s.drainWaits t q = false ∧ (q.ran = true ∨ Ins.op q.word ≠ 0x13) := by
  rw [drainHolds, List.any_eq_false]
  refine forall₂_congr fun q _ => ?_
  cases s.drainWaits t q <;> cases q.ran <;> simp

/-- Settles O24: the scalar instructions advance their thread and write its register or the scratchpad; a fault and a code
line by the lemmas on `tileFault` and `fetchCode`. -/
theorem scalarInstructionsTakeEffect : Obligations.ScalarInstructionsTakeEffect := by
  refine ⟨?smovi, ?salu, ?sldGood, ?sldBad, ?sst, ?reserved, ?freeze, ?codeLine⟩
  case smovi =>
    intro s t th w hI
    refine ⟨_, done_issueSeq hI rfl, ?_⟩
    rw [← Thread.setReg_pc]
    exact advanced_modTh (advanced_goOn ..) fun h => h.setReg (Ins.gd w) (Ins.imm w)
  case salu =>
    rintro s t th w _ _ rfl rfl hI
    refine ⟨_, done_issueSeq hI rfl, ?_⟩
    rw [← Thread.setReg_pc]
    exact advanced_modTh (advanced_goOn ..) fun h => h.setReg (Ins.gd w) _
  case sldGood =>
    rintro s t th w _ a rfl ha h8 hr hI hp hinj
    have hg : sldAct t th w a (goOn t th (s.nextPc t th) s) = modTh t th _ _ :=
      sldAct_good w h8 (by rwa [tile_goOn_self]) hinj
    rw [exec_sld ha h8 hr hI, hg, tile_goOn_self]
    refine ⟨_, done_of_spine hI.calm rfl, ?_⟩
    rw [← Thread.setReg_pc]
    exact advanced_modTh (advanced_goOn ..) fun h => h.setReg (Ins.gd w) _
  case sldBad =>
    rintro s _ s' t th w a f x ha h8 hr hI rfl hread hf hc
    rw [exec_sld ha h8 hr hI, sldAct_bad w hread hf, done_calm hc]
  case sst =>
    rintro s t th w _ a rfl ha h8 hr hI
    refine ⟨_, exec_sst ha h8 hr hI, fun k hk => ?_, ?_, ?_, ?_, fun q hq => tile_modTile_goOn_ne s _ _ _ hq, rfl⟩
    · rw [State.tile_modTile_self, tile_goOn_self]
      exact Mem.get_writeN_out _ _ _ (by rwa [length_natLe])
    · rw [State.tile_modTile_self]
      have h := Mem.readN_writeN ((goOn t th (s.nextPc t th) s).tile t).scratch a
        (natLe 8 (((s.tile t).thread th).reg (Ins.gd w)).toNat)
      rwa [length_natLe] at h
    · rw [State.tile_modTile_self]
      exact thread_goOn_self ..
    · rw [State.tile_modTile_self, tile_goOn_self]
      rfl
  case reserved =>
    rintro s _ t th w hat hop rfl
    obtain ⟨v, hv, hcalm⟩ := exists_done (tileFault t th 1 ((s.tile t).thread th).pc (Ins.op w) St.ok s)
    refine ⟨v, ?_, hv, hcalm, thread_tileFault_st .., fun h7 => ?_, fun h7 => ?_⟩
    · simp only [exec, execReservedOpcode, hat, hop, Bool.not_false, Bool.and_self, if_true]
      exact hv
    · rw [tile_tileFault_self]
      exact if_pos h7
    · rw [tile_tileFault_self]
      exact if_neg (by rw [h7]; decide)
  case freeze =>
    intro s t cause hdrain hfeed
    have hcause : (if drainHolds s t then 5 else 4) = cause := by
      cases hd : drainHolds s t with
      | true => exact (hdrain (drainHolds_eq_true.1 hd)).symm
      | false => exact (hfeed (drainHolds_eq_false.1 hd)).symm
    subst hcause
    refine ⟨_, exec_freezeLong s t, ?_, ?_, fun q hq => ?_, rfl⟩
    · rw [State.tileCtr, State.tile_modTile_self]
    · rw [State.tileCtr, State.tile_modTile_self]
    · rw [State.tileCtr, State.tile_modTile, if_neg hq]
  case codeLine =>
    intro s s' t th c x hd h line b hrun hh hst hl hcache hbad hlen hline hc
    show done (fetchCode t th s) = _
    rw [fetchCode_data hrun hh hst hl hcache hbad hlen hline]
    exact done_of_spine hc rfl

end Sys2Proof.Machine
end

section
/-! PROOFS. The fetch engine's rows: lists, lines, checks, requests and multicast. -/

namespace Sys2Proof.Machine

open Sys2Proof.Safety

/-! ### Lists (R344) -/

theorem Tile.lists_setLists (x : Tile) (th q : Nat) (l : List DList) :
    (x.setLists th l).lists q = if q = th then l else x.lists q := by
  unfold Tile.setLists Tile.lists
  split
  · next h => rw [h]; exact SMap.getD_setD_self ..
  · next h => exact SMap.getD_setD_ne _ _ _ h

/-- DESC appends a list to its thread's context. -/
def Tile.appendList (x : Tile) (th : Nat) (l : DList) : Tile :=
  { x.setLists th (x.lists th ++ [l]) with nextId := x.nextId + 1 }

theorem exec_desc {s : State} {t : Fin 256} {th : Fin 8} {w : BitVec 128} (h : IssuesTo s t th w 0x20 3 [] []) :
    exec (.desc t th w) s = .next ((goOn t th (s.nextPc t th) s).modTile t fun x => x.appendList th
      ⟨x.nextId, ((s.tile t).thread th).pc, Ins.ec w, (((s.tile t).thread th).reg (Ins.ga w) + Ins.imm w).toNat,
        Ins.count w, 0, [], false⟩) := by
  show done (issueUnit 0x20 t th w 3 [] [] 0 _ s) = _
  rw [issueUnit_of h]
  exact done_of_spine h.issues.calm rfl

/-! ### Lines and checks (R345, R350, R351) -/

/-- A line of descriptors that has been read good enters its list. -/
def DList.withLine (z l : DList) (n : Nat) (b : List Byte) : DList :=
  { z with
    next := z.next + n
    descs := z.descs ++ (List.range n).map fun i =>
      ⟨l.next + i, (b.drop (64 * i)).take 64, false, 0, 0, false, false, none⟩ }

theorem fetchLine_data {s s' : State} {t th c : Nat} {x : Chan} {hd : Header} {l : DList} {b : List Byte} {n : Nat}
    (hrun : s.tileRun t = some (c, x, hd)) (hl : (s.tile t).runList th = some l) (hst : l.stopped = false)
    (hn : n = min 4 (l.count - l.next)) (h1 : 1 ≤ n) (hroom : (s.tile t).fetched th + n ≤ 32)
    (hlow : lowestOf ((boundFail x (l.base + 64 * l.next) (64 * n)).toList
      ++ (s.firstUnmapped x.part (l.base + 64 * l.next) (64 * n)).toList) = none)
    (hline : tileLine t (2 * th + 1) x.part (l.base + 64 * l.next) (64 * n) s = .data b false s') :
    fetchLine t th s = s'.modTile t fun y => y.modList th l.id fun z => z.withLine l n b := by
  have h0 : (n == 0) = false := by simp; omega
  simp only [fetchLine, hrun, hl, ← hn, hst, h0, Nat.not_lt.2 hroom, hlow, hline, decide_false, Bool.or_self,
    Bool.false_eq_true, if_false]
  rfl

theorem cancelEvict_frame (k : Nat) (s : State) (p : Ptu) : { cancelEvict k s with ptu := p } = { s with ptu := p } := by
  unfold cancelEvict
  split <;> rfl

/-- Touching a page changes the page unit alone. -/
theorem touchPage_frame (k : Nat) (s : State) (p : Ptu) : { touchPage k s with ptu := p } = { s with ptu := p } := rfl

theorem foldl_ptu_frame {β : Type} {f : State → β → State} {p : Ptu}
    (hf : ∀ s b, { f s b with ptu := p } = { s with ptu := p }) (l : List β) (s : State) :
    { l.foldl f s with ptu := p } = { s with ptu := p } := by
  induction l generalizing s with
  | nil => rfl
  | cons b l ih => rw [List.foldl_cons, ih, hf]

theorem touchRanges_frame (part : Nat) (rs : List (Nat × Nat × Bool)) (s : State) (p : Ptu) :
    { touchRanges part rs s with ptu := p } = { s with ptu := p } := by
  refine foldl_ptu_frame (fun s r => foldl_ptu_frame (fun s q => ?_) _ s) rs s
  split
  · rw [touchPage_frame, cancelEvict_frame]
  · rfl

section
variable {s : State} {t th c : Nat} {x : Chan} {hd : Header} {l : DList} {d : Desc}
  (hrun : s.tileRun t = some (c, x, hd)) (hhead : (s.tile t).headDesc th = some (l, d)) (hchk : d.checked = false)
include hrun hhead hchk

theorem checkNext_good {v : Nat} (hc : checkDesc s x (l.base + 64 * d.idx) d.raw = (0, v)) :
    checkNext t th s = touchRanges x.part (descRanges x.relaxed d.raw)
      (s.modTile t fun y => y.modList th l.id fun l => l.modDesc d.idx fun d => { d with checked := true }) := by
  simp [checkNext, hrun, hhead, hchk, hc]

theorem checkNext_bad {k v : Nat} (hc : checkDesc s x (l.base + 64 * d.idx) d.raw = (k, v)) (hk : k ≠ 0) :
    checkNext t th s = descFault t th l d.idx (DescF.kind d.raw) k v s := by
  simp [checkNext, hrun, hhead, hchk, hc, hk]

end

/-! ### Requests and multicast (R346, R355 to R360) -/

theorem issueDesc_of_ready {s : State} {t th k : Nat} {l : DList} {d : Desc} (h : s.ready t th k = some (l, d)) :
    issueDesc t th k s = issuePieces t th l d ((descPieces (s.tileRelaxed t) d.raw).drop d.issued) s := by
  rw [issueDesc, h]

/-- The MCAST opens once every receiver has posted an MRECV with its rows. -/
theorem startMcast_opens {s : State} {t th c : Nat} {x : Chan} {hd : Header} {l : DList} {d : Desc}
    (hrun : s.tileRun t = some (c, x, hd)) (hready : s.ready t th 4 = some (l, d))
    (hall : ∀ k ∈ mcastRanks d.raw, ∃ v, s.recvOf x (DescF.mtag d.raw) k = some v ∧ v.2.rows = DescF.rows d.raw
      ∧ v.2.rowBytes = DescF.rowBytes d.raw) :
    startMcast t th s = s.modTile t fun y => y.modList th l.id fun l => l.modDesc d.idx fun d =>
      { d with opened := true } := by
  have hposted : (((mcastRanks d.raw).map fun k => s.recvOf x (DescF.mtag d.raw) k).any (·.isNone)) = false := by
    simp only [List.any_map, List.any_eq_false]
    intro k hk
    obtain ⟨v, hv, -⟩ := hall k hk
    simp [hv]
  have hrows : ((((mcastRanks d.raw).map fun k => s.recvOf x (DescF.mtag d.raw) k).filterMap id).filter fun v =>
      v.2.rows != DescF.rows d.raw || v.2.rowBytes != DescF.rowBytes d.raw) = [] := by
    refine List.filter_eq_nil_iff.2 fun v hv => ?_
    obtain ⟨k, hk, hkv⟩ : ∃ k ∈ mcastRanks d.raw, s.recvOf x (DescF.mtag d.raw) k = some v := by simpa using hv
    obtain ⟨v', hv', hr, hb⟩ := hall k hk
    obtain rfl : v' = v := Option.some.inj (hv'.symm.trans hkv)
    simp [hr, hb]
  simp only [startMcast, hrun, hready, hposted, hrows]
  rfl

/-! ### Completion (R25, R26, R347) -/

/-! A transfer over the fabric touches the injection slots and the replay count alone. -/

theorem injTake_frame (p : Inj → Bool) (s : State) (x : Rse) : { (injTake p s).2 with rse := x } = { s with rse := x } := by
  unfold injTake
  dsimp only
  split <;> rfl

theorem injMask_frame (p : Inj → Bool) (s : State) (x : Rse) : { (injMask p s).2.2 with rse := x } = { s with rse := x } :=
  injTake_frame p s x

theorem fabricTry_frame (die n : Nat) (s : State) (x : Rse) :
    { (fabricTry die n s).2.2 with rse := x } = { s with rse := x } := by
  induction n generalizing s with
  | zero => rfl
  | succ n ih =>
    unfold fabricTry
    dsimp only
    split
    · exact (ih _).trans (injMask_frame _ s x)
    · exact injMask_frame (fun e => e.site == 5 && e.loc == die) s x

theorem fabricCross_frame (path : List Nat) (s : State) (x : Rse) :
    { (fabricCross path s).2.2 with rse := x } = { s with rse := x } := by
  induction path generalizing s with
  | nil => rfl
  | cons d ds ih =>
    unfold fabricCross
    dsimp only
    split
    · exact fabricTry_frame d 5 s x
    · exact (ih _).trans (fabricTry_frame d 5 s x)

theorem tilePart_fabricCross {path : List Nat} {s s1 : State} {o : Option Nat} {m : BitVec 64}
    (h : fabricCross path s = (o, m, s1)) (t : Nat) : s1.tilePart t = s.tilePart t := by
  have hf := fabricCross_frame path s s.rse
  rw [h] at hf
  exact (congrArg (fun u : State => u.tilePart t) hf :)

section
variable {s s1 : State} {t n : Nat} {r : Req} {d : List Byte} {m : BitVec 64}
  (hr : SMap.lookup (s.tile t).reqs n = some r) (hd : s.reqDesc t r = some d) (hready : s.reqReady t n r = true)
include hr hd hready

theorem finishReq_moves (hx : fabricCross (if r.sent then [] else reqPath t r) s = (none, m, s1)) :
    finishReq t n s = dropInPlace (pageKey (s.tilePart t) r.va) (moveReq t n r d m s1) := by
  simp [finishReq, hr, hd, hready, hx, tilePart_fabricCross hx]

theorem finishReq_fault {k : Nat} (hx : fabricCross (if r.sent then [] else reqPath t r) s = (some k, m, s1)) :
    finishReq t n s = fabricFault k s1 := by
  simp [finishReq, hr, hd, hready, hx]

end

/-- Settles O26: each row is `done` of an operation of the fetch engine; what the operation does where the clause's
hypotheses hold is a lemma above. -/
theorem fetchEngineTakesEffect : Obligations.FetchEngineTakesEffect := by
  refine ⟨?desc, ?line, ?checkGood, ?checkBad, ?issue, ?mcast, ?mcastClosed, ?mcastStart, ?mrecv, ?moves, ?fabric⟩
  case desc =>
    rintro s t th w _ rfl hI
    refine ⟨_, exec_desc hI, ?_, fun q hq => ?_, ?_, ?_, fun q hq => tile_modTile_goOn_ne s _ _ _ hq, rfl⟩
    · rw [State.tile_modTile_self, tile_goOn_self]
      exact (Tile.lists_setLists ..).trans (if_pos rfl)
    · rw [State.tile_modTile_self, tile_goOn_self]
      exact (Tile.lists_setLists ..).trans (if_neg hq)
    · rw [State.tile_modTile_self, tile_goOn_self]
      rfl
    · rw [State.tile_modTile_self]
      exact thread_goOn_self ..
  case line =>
    rintro s s' t th c x hd l n _ b hrun hl hst hn h1 hroom rfl hlow hline hc
    refine ⟨_, ?_, rfl⟩
    show done (fetchLine t th s) = _
    rw [fetchLine_data hrun hl hst hn h1 hroom hlow hline]
    exact done_of_spine hc rfl
  case checkGood =>
    rintro s _ t th c x hd l d v hrun hhead hchk hcheck hc rfl
    have hf := touchRanges_frame x.part (descRanges x.relaxed d.raw)
      (s.modTile t fun y => y.modList th l.id fun l => l.modDesc d.idx fun d => { d with checked := true }) s.ptu
    refine ⟨?_, (congrArg (fun u : State => { u with tiles := s.tiles }) hf :)⟩
    show done (checkNext t th s) = _
    rw [checkNext_good hrun hhead hchk hcheck]
    exact done_of_spine hc (congrArg State.spine hf :)
  case checkBad =>
    rintro s _ t th c x hd l d k v hrun hhead hchk hcheck hk rfl
    obtain ⟨y, hy, hcalm⟩ := exists_done (descFault t th l d.idx (DescF.kind d.raw) k v s)
    refine ⟨y, ?_, hy, hcalm, thread_tileFault_st ..⟩
    show done (checkNext t th s) = _
    rw [checkNext_bad hrun hhead hchk hcheck hk, hy]
  case issue =>
    rintro s _ t th k i l d hki hready rfl hc
    have hdone := done_calm hc
    rw [← issueDesc_of_ready hready] at hdone ⊢
    rcases hki with ⟨rfl, rfl⟩ | ⟨rfl, rfl⟩ | ⟨rfl, rfl⟩ | ⟨rfl, rfl⟩ | ⟨rfl, rfl⟩ | ⟨rfl, rfl⟩ <;> exact hdone
  case mcast =>
    rintro s _ t th l d hready hopen rfl hc
    simp only [exec, execMcast, hready, hopen, if_true, issueDesc_of_ready hready, done_calm hc]
  case mcastClosed =>
    intro s t th l d hready hopen hc
    simp only [exec, execMcast, hready, hopen, Bool.false_eq_true, if_false]
    exact done_of_spine hc rfl
  case mcastStart =>
    intro s t th c x hd l d hrun hready hc hall
    show done (startMcast t th s) = _
    rw [startMcast_opens hrun hready hall]
    exact done_of_spine hc rfl
  case mrecv =>
    intro s t th l d hready hc
    refine ⟨postRecv t th s, ?_, ?_⟩
    · refine done_of_spine hc ?_
      rw [postRecv, hready]
      rfl
    · rw [postRecv, hready]
      dsimp only
      refine ⟨?_, ?_, fun q hq => ?_, rfl⟩
      · rw [State.tile_modTile_self]
      · rw [State.tile_modTile_self]
        rfl
      · rw [State.tile_modTile, if_neg hq]
  case moves =>
    rintro s s1 _ t n r d m hr hd hready hx rfl hc
    show done (finishReq t n s) = _
    rw [finishReq_moves hr hd hready hx, done_calm hc]
  case fabric =>
    rintro s s1 t n k r d m hr hd hready hx hc
    show done (finishReq t n s) = _
    rw [finishReq_fault hr hd hready hx, done_calm hc]

end Sys2Proof.Machine
end

section
/-! PROOFS. The commands that write the channel table, and TILE_RESET. -/

namespace Sys2Proof.Safety

open Sys2Proof.Machine

theorem RecordAt.calm {s s' : State} {w n align : Nat} {data : List Byte} (h : RecordAt s s' w n align data) : Calm s' :=
  have ⟨_, _, hc⟩ := h
  hc

end Sys2Proof.Safety

namespace Sys2Proof.Machine

open Sys2Proof.Safety

/-! ### Entries (R142, R143, R556) -/

theorem badChan_eq_false {c : Nat} (h : c ≤ 4095) : badChan c = false := by
  simpa [badChan] using h

theorem stopped_of_chan {s : State} {c : Nat} {x : Chan} (hx : s.chan c = some x) (hrun : x.running = false) :
    s.stopped c = true := by
  simp [State.stopped, hx, hrun]

@[simp] theorem chan_dropCached (c q : Nat) (s : State) : (dropCached c s).chan q = s.chan q := rfl

@[simp] theorem chan_cacheEntry (c q : Nat) (s : State) : (cacheEntry c s).chan q = s.chan q := rfl

section
variable {a : Nat → Nat} {s s' s'' : State}

theorem cmdChannelCreate_ok {r : List Byte} (h0 : a 0 ≤ 4095) (hr : RecordAt s s' (a 1) 128 128 r) (hi : imageOk r = true)
    (hn : s'.chan (a 0) = none) :
    cmdChannelCreate a s = .ok [] (dropCached (a 0) (s'.setChan (a 0) (Chan.blank.setImage r))) := by
  rw [cmdChannelCreate, checked_of (by simpa using badChan_eq_false h0), withRecord_ok hr, checked_of (by simp [hi, hn])]

/-- The table without an entry. -/
def dropChan (c : Nat) (s : State) : State :=
  { dropCached c s with chans := { (dropCached c s).chans with table := SMap.del s.chans.table c } }

theorem chan_dropChan_self (c : Nat) (s : State) : (dropChan c s).chan c = none := SMap.lookup_del_self ..

theorem chan_dropChan_ne (s : State) {c q : Nat} (h : q ≠ c) : (dropChan c s).chan q = s.chan q := SMap.lookup_del_ne _ h

theorem cmdChannelDestroy_ok (h0 : a 0 ≤ 4095) (hs : s.stopped (a 0) = true) :
    cmdChannelDestroy a s = .ok [] (dropChan (a 0) s) := by
  rw [cmdChannelDestroy, checked_of (by simpa [hs] using badChan_eq_false h0)]
  rfl

theorem cmdChannelSetMode_ok (h0 : a 0 ≤ 4095) (h1 : a 1 ≤ 1) (hs : s.stopped (a 0) = true) :
    cmdChannelSetMode a s = .ok [] (dropCached (a 0) (s.modChan (a 0) fun x => { x with relaxed := a 1 == 1 })) := by
  rw [cmdChannelSetMode, checked_of (by simpa [hs] using ⟨badChan_eq_false h0, h1⟩)]

theorem cmdChannelUpdate_ok {r : List Byte} (h0 : a 0 ≤ 4095) (hr : RecordAt s s' (a 1) 128 128 r) (hi : imageOk r = true)
    (hs : s'.stopped (a 0) = true) :
    cmdChannelUpdate a s = .ok [] (dropCached (a 0) (s'.modChan (a 0) fun x => x.setImage r)) := by
  rw [cmdChannelUpdate, checked_of (by simpa using badChan_eq_false h0), withRecord_ok hr, checked_of (by simp [hi, hs])]

/-- An entry after PROGRAM_LOAD. -/
def Chan.loaded (x : Chan) (program : Nat) (r : List Byte) : Chan :=
  { x with program := program, header := some (Header.of r), runState := 2, started := false, ran := false }

theorem cmdProgramLoad_ok {x : Chan} {r code : List Byte} (h0 : a 0 ≤ 4095) (h1 : a 1 < 2 ^ 52) (hal : a 1 % 4096 = 0)
    (hx : s.chan (a 0) = some x) (hrun : x.running = false) (hr : RecordAt s s' (a 1 + x.part * 2 ^ 52) 64 4096 r)
    (hh : headerOk r = true)
    (hc : RecordAt s' s'' (a 1 + x.part * 2 ^ 52 + (Header.of r).codeOffset) (Header.of r).codeLength 16 code) :
    cmdProgramLoad a s
      = .ok [] (extendMeas 6 (sha3 (r ++ code)) (s''.modChan (a 0) fun x => x.loaded (a 1) r)) := by
  rw [cmdProgramLoad, checked_of (by simpa [hal, stopped_of_chan hx hrun, badChan_eq_false h0] using h1), hx]
  dsimp only [Option.map_some, Option.getD_some]
  rw [withRecord_ok hr, checked_of (by simp [hh]), withRecord_ok hc]
  rfl

end

/-! ### Starting (R140, R664) -/

theorem tile_foldl_modTile_of_not_mem (f : Nat → Tile → Tile) {ls : List Nat} {k : Nat} (hk : k ∉ ls) (s : State) :
    (ls.foldl (fun s t => s.modTile t (f t)) s).tile k = s.tile k := by
  induction ls generalizing s with
  | nil => rfl
  | cons t ls ih =>
    obtain ⟨ht, hls⟩ := not_or.1 (mt List.mem_cons.2 hk)
    rw [List.foldl_cons, ih hls, State.tile_modTile, if_neg ht]

theorem foldl_modTile_frame (f : Nat → Tile → Tile) (ls : List Nat) (s : State) (x : SMap Tile) :
    { ls.foldl (fun s t => s.modTile t (f t)) s with tiles := x } = { s with tiles := x } := by
  induction ls generalizing s with
  | nil => rfl
  | cons t ls ih => exact ih (s.modTile t (f t))

/-- An entry that has been armed. -/
def Chan.armed (step : Nat) (x : Chan) : Chan :=
  { x with
    runState := 3, startStep := step, started := false, ran := false
    faultKind := 0, faultTile := 0, faultThread := 0, faultPc := 0, lastStatus := 0 }

/-- A tile that an armed channel takes. -/
def armedTile (c : Nat) (x : Chan) (t : Nat) (y : Tile) : Tile :=
  { y.clearFault with threads := [], chan := some c, rank := x.rankOf t }

section
variable {s : State} {c : Nat} {x : Chan} (hx : s.chan c = some x) (step : Nat)
include hx

theorem armChan_eq : armChan c step s
    = cacheEntry c ((x.tileList.foldl (fun s t => s.modTile t (armedTile c x t)) s).modChan c (Chan.armed step)) := by
  rw [armChan, hx]
  rfl

theorem chan_armChan (q : Nat) : (armChan c step s).chan q = if q = c then some (x.armed step) else s.chan q := by
  have hf (k : Nat) : (x.tileList.foldl (fun s t => s.modTile t (armedTile c x t)) s).chan k = s.chan k :=
    (congrArg (fun u : State => u.chan k) (foldl_modTile_frame (armedTile c x) x.tileList s s.tiles) :)
  rw [armChan_eq hx, chan_cacheEntry, State.chan_modChan, hf, hf, hx]
  rfl

theorem tile_armChan {k : Nat} (hk : k ∉ x.tileList) : (armChan c step s).tile k = s.tile k := by
  rw [armChan_eq hx]
  exact tile_foldl_modTile_of_not_mem _ hk s

theorem armChan_frame (d : Chans) (m : SMap Tile) :
    { armChan c step s with chans := d, tiles := m } = { s with chans := d, tiles := m } := by
  rw [armChan_eq hx]
  exact (congrArg (fun u : State => { u with chans := d }) (foldl_modTile_frame (armedTile c x) x.tileList s m) :)

end

theorem wakeIdle_frame (s : State) (p : Nat) : { wakeIdle s with pcm := { (wakeIdle s).pcm with sstate := p } }
    = { s with pcm := { s.pcm with sstate := p } } := by
  unfold wakeIdle
  split <;> rfl

theorem chan_wakeIdle (s : State) (q : Nat) : (wakeIdle s).chan q = s.chan q :=
  (congrArg (fun u : State => u.chan q) (wakeIdle_frame s 0) :)

theorem tile_wakeIdle (s : State) (k : Nat) : (wakeIdle s).tile k = s.tile k :=
  (congrArg (fun u : State => u.tile k) (wakeIdle_frame s 0) :)

theorem not_mem_tileList {x : Chan} {k : Nat} (h : x.tiles.getLsbD k = false) : k ∉ x.tileList := by
  simp [Chan.tileList, bitsOf, BitVec.testBit_toNat, h]

/-- The step that CHANNEL_START starts its channel at. -/
def firstStep (s : State) (w : Nat) : Nat := if s.spine.running = true ∧ w = 0 then s.spine.step + 1 else w

theorem cmdChannelStart_ok {a : Nat → Nat} {s : State} {x : Chan} (h0 : a 0 ≤ 4095) (hm : s.memOff = false)
    (hx : s.chan (a 0) = some x) (hrun : x.running = false) (hh : x.header.isSome = true)
    (ht : s.tilesTaken (a 0) = false) (hw : s.spine.running = true → a 1 = 0 ∨ s.spine.step < a 1) :
    cmdChannelStart a s = .ok [if a 1 = 0 ∧ s.spine.running = false then 2 ^ 64 - 1 else firstStep s (a 1)]
      (wakeIdle (armChan (a 0) (firstStep s (a 1)) s)) := by
  have hrange : (s.spine.running && a 1 != 0 && decide (a 1 ≤ s.spine.step)) = false := by
    cases hr : s.spine.running with
    | false => rfl
    | true => rcases hw hr with h | h <;> simp [h]
  have hhead : ((s.chan (a 0)).bind (·.header)).isNone = false := by
    rw [hx]
    simpa using hh
  rw [cmdChannelStart, checked_of (by simp [badChan_eq_false h0, hrange, hm, stopped_of_chan hx hrun, hhead, ht])]
  simp only [firstStep, Bool.and_eq_true, beq_iff_eq, Bool.not_eq_true']

/-! ### Stopping (R144, R664) -/

section
variable {a : Nat → Nat} {s : State} {x : Chan} (h0 : a 0 ≤ 4095) (hx : s.chan (a 0) = some x) (hrun : x.running = true)
include h0 hx hrun

theorem cmdChannelStop_running (h1 : a 1 = 0) (hs : s.spine.running = true) :
    cmdChannelStop a s = .ok [x.lastRan.getD (2 ^ 64 - 1)] (s.modChan (a 0) fun x => { x with runState := 4 }) := by
  rw [cmdChannelStop, checked_of (by simp [badChan_eq_false h0, hx, hrun, h1]), if_pos hs, lastRun, hx]
  rfl

theorem cmdChannelStop_idle (h1 : a 1 ≤ 1) (hs : s.spine.running = false) :
    cmdChannelStop a s = .ok [x.lastRan.getD (2 ^ 64 - 1)] (stopChan (a 0) 6 s) := by
  rw [cmdChannelStop, checked_of (by simpa [badChan_eq_false h0, hx, hrun, hs] using h1), if_neg (by simp [hs]), lastRun, hx]
  rfl

end

/-- Settles O4: each row's command passes its checks and leaves the entry, the measurement or the tiles as the lemmas above
say. -/
theorem channelCommandsTakeEffect : Obligations.ChannelCommandsTakeEffect := by
  refine ⟨?create, ?destroy, ?setMode, ?update, ?load, ?start, ?stopRunning, ?stopIdle⟩
  case create =>
    intro s s' mb r h h0 hr hi hn
    refine ⟨_, runCmd_ok h (cmdChannelCreate_ok h0 hr hi hn) hr.calm, ?_, fun q hq => ?_, rfl⟩
    · rw [chan_dropCached, State.chan_setChan, if_pos rfl]
    · rw [chan_dropCached, State.chan_setChan, if_neg hq]
  case destroy =>
    intro s mb h h0 hs
    exact ⟨_, runCmd_ok h (cmdChannelDestroy_ok h0 hs) h.calm, chan_dropChan_self .., fun q => chan_dropChan_ne s, rfl⟩
  case setMode =>
    intro s mb h h0 h1 hs
    refine ⟨_, runCmd_ok h (cmdChannelSetMode_ok h0 h1 hs) h.calm, ?_, fun q hq => ?_, rfl⟩
    · rw [chan_dropCached, State.chan_modChan, if_pos rfl]
    · rw [chan_dropCached, State.chan_modChan, if_neg hq]
  case update =>
    intro s s' mb r h h0 hr hi hs
    refine ⟨_, runCmd_ok h (cmdChannelUpdate_ok h0 hr hi hs) hr.calm, ?_, fun q hq => ?_, rfl⟩
    · rw [chan_dropCached, State.chan_modChan, if_pos rfl]
    · rw [chan_dropCached, State.chan_modChan, if_neg hq]
  case load =>
    intro s s' s'' mb x r code h h0 h1 hal hx hrun hr hh hc
    refine ⟨_, runCmd_ok h (cmdProgramLoad_ok h0 h1 hal hx hrun hr hh hc) hc.calm, ?_, ?_, fun q hq => ?_, rfl⟩
    · exact (State.chan_modChan ..).trans (if_pos rfl)
    · exact SMap.getD_put_self ..
    · exact (State.chan_modChan ..).trans (if_neg hq)
  case start =>
    intro s mb x h h0 hm hx hrun hh ht hw
    have hframe := (wakeIdle_frame (armChan (argOf s mb 0) (firstStep s (argOf s mb 1)) s) s.pcm.sstate)
    have harm := armChan_frame hx (firstStep s (argOf s mb 1)) s.chans s.tiles
    have hall := (congrArg (fun u : State => { u with chans := s.chans, tiles := s.tiles }) hframe :).trans
      (congrArg (fun u : State => { u with pcm := { u.pcm with sstate := s.pcm.sstate } }) harm :)
    refine ⟨_, firstStep s (argOf s mb 1), runCmd_ok h (cmdChannelStart_ok h0 hm hx hrun hh ht hw)
      (calm_of_spine h.calm (congrArg State.spine hall :)), rfl, ?_, fun q hq => ?_, fun k _ hk => ?_, hall⟩
    · rw [chan_wakeIdle, chan_armChan hx, if_pos rfl]
      rfl
    · rw [chan_wakeIdle, chan_armChan hx, if_neg hq]
    · rw [tile_wakeIdle, tile_armChan hx _ (not_mem_tileList hk)]
  case stopRunning =>
    intro s mb x h h0 h1 hs hx hrun
    refine ⟨_, runCmd_ok h (cmdChannelStop_running h0 hx hrun h1 hs) h.calm, ?_, fun q hq => ?_, rfl⟩
    · rw [State.chan_modChan, if_pos rfl, hx]
      rfl
    · rw [State.chan_modChan, if_neg hq]
  case stopIdle =>
    intro s mb x h h0 h1 hs hx hrun hc
    exact runCmd_ok h (cmdChannelStop_idle h0 hx hrun h1 hs) hc

/-! ### TILE_RESET and the injection slots (R141, R525) -/

/-- The completion of a command whose mailbox does not ask for an interrupt sends nothing out. -/
theorem finishCmd_out {mb : Nat} {s : State} (h : (s.mailbox mb).word0.getLsbD 30 = false) (st : Nat) (res : List Nat) :
    (finishCmd mb st res s).out = s.out := by
  unfold finishCmd
  simp only [h, Bool.false_eq_true, if_false]
  rfl

/-- MB0 holds TILE_RESET of tile 0, and an injection holds link 0, which trains, in electrical idle. -/
def resetWhileDropped : State :=
  { State.reset with
    hif := { Hif.reset with mbs := [(0, ⟨0x8000010A, 0, [], [], 0⟩)] }
    links := { Links.reset with links := [(0, { Link.reset with st := 1, dropped := true })] } }

/-- The reset of a tile clears the injection slots, so the link leaves the electrical idle and its training pattern goes
out. -/
theorem tileReset_resetWhileDropped :
    ∃ v, exec (.tileReset 0) resetWhileDropped = .next v ∧ v.out = [.pattern 0] := ⟨_, rfl, by decide +kernel⟩

/-- Refutes O5: its clause on TILE_RESET keeps what has been sent out, but clearing the injection slots (R525) ends an
armed link drop, and a link that trains then sends its pattern. In `resetWhileDropped` nothing has been sent out before,
and the pattern of link 0 has been after. -/
theorem not_tileCommandsTakeEffect : ¬ Obligations.TileCommandsTakeEffect := by
  rintro ⟨-, -, hreset, -⟩
  obtain ⟨t, ht, -, -, -, -, hframe⟩ := hreset resetWhileDropped 0 ⟨by decide, by decide, .inr rfl⟩ (by decide) (by decide)
  obtain ⟨v, hv, hout⟩ := tileReset_resetWhileDropped
  have hhif : t.hif = resetWhileDropped.hif := (congrArg State.hif hframe :)
  have hkept : t.out = [] := (congrArg State.out hframe :)
  have hfin : finishCmd 0 St.ok [] t = v := Host.Outcome.next.inj (ht.symm.trans hv)
  have hirq : (t.mailbox 0).word0.getLsbD 30 = false := by
    rw [State.mailbox, hhif]
    decide
  rw [← hfin, finishCmd_out hirq, hkept] at hout
  cases hout

end Sys2Proof.Machine
end
